-- ==== Sys2Proof/Word.lean ====
section
/-! DEFINITION. The word types of the module and the shape of its sparse maps.

Registers are 32-bit words and memory is bytes (R10, R34). Everything that is indexed by a large
range of which only a few places ever differ from their reset value (registers, tiles, memories)
is a sparse map: a list of key and value pairs (see Machine/Map.lean for its operations). -/

namespace Sys2Proof

/-- A 32-bit word of the register space (R34). -/
abbrev Word := BitVec 32

/-- One byte of memory (R10). -/
abbrev Byte := BitVec 8

/-- A sparse map: pairs of a key and a value, the keys strictly rising. -/
abbrev SMap (α : Type) := List (Nat × α)

end Sys2Proof
end

