-- ==== Sys2Proof/Machine/Types.lean ====
section
/-! DEFINITION. The plain data types that the fields of State are built from: number formats and
poison causes, and the hidden state of a tile's units. -/

namespace Sys2Proof.Machine

/-- A poison cause, in the order of its code (R81). -/
inductive Cause where
  | none | nonfinite | check | windowHigh | windowLow | align | count | ecc
deriving DecidableEq, Repr

/-- The rounding modes of R87. -/
inductive Rnd where
  | rne | rtz | rdn | rup | sr
deriving DecidableEq, Repr

/-- The storage formats of R70. -/
inductive Fmt where
  | e4m3 | e5m2 | mxfp8e4m3 | mxfp8e5m2 | mxfp4 | int8 | bf16 | fp32 | int32 | wide | e8m0
deriving DecidableEq, Repr

/-- An exact value: NaN, an infinity, or (-1)^neg × mag × 2^exp (mag = 0 is a signed zero). -/
inductive FVal where
  | nan
  | inf (neg : Bool)
  | fin (neg : Bool) (mag : Nat) (exp : Int)
deriving DecidableEq, Repr

/-- How a floating-point format uses its highest exponent (R68). -/
inductive TopExp where
  | ieee      -- infinities and NaNs
  | oneNaN    -- normal numbers but for the all-ones NaN (E4M3)
  | normal    -- normal numbers only (E2M1)
deriving DecidableEq, Repr

/-- The fields of a floating-point element format (R68). -/
structure FFmt where
  expBits : Nat
  manBits : Nat
  bias : Nat
  top : TopExp
  /-- finite values above the largest saturate in every mode (R91) -/
  saturates : Bool
deriving DecidableEq, Repr

/-- An accumulator or a wide word: A, W, TERMS and CAUSE (R74, R78). -/
structure Wide where
  a : BitVec 96
  w : BitVec 10
  terms : BitVec 16
  cause : Cause
deriving DecidableEq, Repr


/-! ### Goose events (R371) -/

/-- The kinds of events of R371. -/
inductive EvKind where
  | check | elastic | poison | eccUnc | eccCorr | linkReplay | colShort | uncovered | holdover
  | pairMissing | muleLate | muleFault | badBundle | imemEcc | hazard | stream | msgNack | semSat
  | fabTimeout | crossSlip | clkDroop | clkMon | overrun | armRefused | pairMismatch | colLockstep
  | localSilent | tickWatch | safeStop | pwrTrip | selftestFail
deriving DecidableEq, Repr

/-- The classes of events (R371, R374); `conditional` kinds count under R373 only. -/
inductive EvClass where
  | corrected | suspect | hard | conditional | recordOnly
deriving DecidableEq, Repr

/-- An event reported to a Goose (R370): kind, region, logical tile, cycle and detail. -/
structure GEvent where
  kind : EvKind
  region : Nat
  tile : Nat
  cycle : Nat
  detail : Nat
deriving DecidableEq, Repr

/-- The hazards of R196. -/
inductive Hazard where
  | readPending | writeCollide | bankConflict | slotOverlap | queue | format | flow
deriving DecidableEq, Repr

/-! ### The control slot (R171, R178 to R180) -/

/-- An active repeat block: its counter and the bundle addresses of its body (R179). -/
structure RepBlock where
  counter : Nat
  first : Nat
  last : Nat
deriving DecidableEq, Repr

/-- The control state of a tile (R171). `cycle` is the schedule cycle whose bundle issues next; it
stays at C once cycle C − 1 has issued. -/
structure Ctl where
  pc : BitVec 11
  /-- loop counters k0 to k3 -/
  k : SMap (BitVec 16)
  /-- iteration indices j0 to j3 -/
  j : SMap (BitVec 16)
  /-- comparators q0 to q3 -/
  q : SMap Bool
  /-- active repeat blocks, innermost first -/
  reps : List RepBlock
  ended : Bool
  cycle : Nat
deriving DecidableEq, Repr

/-! ### Masters of the register space (R36) -/

/-- A master of the register space: the device management core, the side-band port, a host port, the Mule
of a tile. -/
inductive Master where
  | dmc
  | sideBand
  | host (port : Nat)
  | mule (t : Nat)
deriving DecidableEq, Repr

/-! ### Storage errors -/

/-- A latent error of a stored word: correctable or uncorrectable (R127, R191, R235, R253). -/
inductive EccErr where
  | single | double
deriving DecidableEq, Repr

/-! ### The matrix unit (R103 to R123) -/

/-- The stationary activation block an array holds (R106 to R108). -/
structure Block where
  /-- raw elements: key 32 × row + column of the run -/
  elems : SMap Nat
  /-- scale bytes, where the format has them -/
  scales : List Nat
  /-- carried poison causes of the elements, keyed as they are -/
  causes : SMap Cause
  /-- carried poison causes of the scale bytes -/
  scaleCauses : List Cause
  fmt : Fmt
deriving DecidableEq, Repr

/-- One array of the matrix unit. -/
structure MxArray where
  /-- exact accumulators 0 to 31 (R74); default a cleared accumulator of window 0 -/
  acc : SMap Wide
  /-- BF16 partials: key 32 × column + r (R83) -/
  partials : SMap (BitVec 32)
  /-- carried cause of a BF16 accumulator -/
  bfCause : SMap Cause
  /-- last combined FP32 value of each column (R119, R122) -/
  combined : SMap (BitVec 32)
  /-- the last pass to update the array was a BF16 pass -/
  lastBf16 : Bool
  /-- checksum register C (R85) -/
  chk : BitVec 104
  /-- the resident block, none while it is empty (R108) -/
  block : Option Block
  /-- lag of each cell row (R114) -/
  lag : SMap Nat
  /-- corrected reads on their way: the cycle in which the row meets them, and the row (R114) -/
  lateDue : List (Nat × Nat)
  /-- an elastic overflow awaits the reset of R116 -/
  overflowed : Bool
deriving DecidableEq, Repr

/-- The sums of one step on their way to U(t): for each array and column the products. -/
structure StepSums where
  step : Nat
  issue : Nat
  /-- key 32 × array + column: the exact products in cell-row order (exact classes) -/
  terms : SMap (List FVal)
  /-- key 32 × array + column: the FP32 products in cell-row order (BF16) -/
  prods : SMap (List (BitVec 32))
  /-- key 32 × array + column: causes carried in by poisoned operands -/
  carried : SMap Cause
  /-- greatest lag λ of each array for the step (R115) -/
  late : SMap Nat
deriving DecidableEq, Repr

/-- A pass in flight (R109, R112): the latched descriptor and what remains of its events. -/
structure Pass where
  desc : Nat
  /-- the four descriptor words, as latched at issue(0) -/
  words : List (BitVec 32)
  issue0 : Nat
  /-- next step to issue -/
  nextStep : Nat
  /-- FEED row position at the start, none where no FEED run supplies the pass (R246) -/
  feedStart : Option Nat
  /-- the latched words of the FEED descriptor the pass draws from, none where it has none -/
  feedDesc : Option (List (BitVec 32))
  /-- blocks of arrays 0 to 3 as the pass uses them -/
  blocks : SMap Block
  /-- sums on their way to the accumulators, oldest step first -/
  waiting : List StepSums
  /-- steps already added -/
  updated : Nat
  /-- arrays with an elastic overflow in this pass -/
  overflow : List Nat
  /-- causes newly raised in this pass, with their array (R82) -/
  raised : List (Nat × Cause)
  /-- wide words loaded under ACCLOAD: key 32 × array + column -/
  loaded : SMap Wide
  /-- drain registers: key 32 × array + column (R113) -/
  snap : SMap Wide
  /-- drain registers of a BF16 pass: FP32 values and causes -/
  snapBf : SMap (BitVec 32)
  snapBfParts : SMap (BitVec 32)
  snapChk : SMap (BitVec 104)
  copied : Bool
  compared : Bool
  combined : Bool
  drained : Bool
deriving DecidableEq, Repr

/-- One step's weight rows on a row stream, on their way to a tile (R247). -/
structure RowWord where
  dest : Nat
  due : Nat
  /-- elements of the step's rows: key 64 × row of the step + column -/
  elems : SMap Nat
  scales : List Nat
  /-- carried poison causes of the elements, keyed as they are -/
  causes : SMap Cause
  /-- carried poison causes of the scale bytes -/
  scaleCauses : List Cause
  /-- rows that need correction at the receiver -/
  lateRows : List Nat
deriving DecidableEq, Repr

/-- The operand fields of a vector slot beside its operation (R173 to R177, R183, R184). -/
structure VecSlot where
  view : BitVec 2
  row : BitVec 5
  count : BitVec 6
  vd : BitVec 3
  va : BitVec 3
  vb : BitVec 3
  vc : BitVec 3
  bsrc : BitVec 2
  orow : BitVec 8
  rnd : BitVec 3
  rstr : BitVec 3
  mode : BitVec 44
deriving DecidableEq, Repr

/-! ### The vector engine (R124 to R146) -/

/-- A 32-bit element of a tile register with its poison cause (R124, R125, R236). -/
structure Elem where
  bits : BitVec 32
  cause : Cause
deriving DecidableEq, Repr

/-- An entry of the finished-tile queue (R129): value j of array a at place 32 × a + j; the AMASK and N
of its pass are in the values, which are +0 or cleared where they leave a place out. -/
inductive QEntry where
  | narrow (vals : List Elem)
  | wide (vals : List Wide)
deriving DecidableEq, Repr

/-- A 32-bit element of a result, or one BF16 half of it (`half` true: the upper): its index in the
row or run of words it lands in, its bits and its poison cause. -/
structure Lane where
  idx : Nat
  half : Option Bool
  bits : BitVec 32
  cause : Cause
deriving DecidableEq, Repr

/-- What a pending result writes (R131). -/
inductive Landed where
  /-- elements of a row of a tile register, by column -/
  | treg (reg row : Nat) (vals : List Lane)
  /-- words of the operand cache, counted from the start of a row -/
  | ocache (row : Nat) (vals : List Lane)
  /-- scan carries, by column -/
  | carry (vals : List Lane)
  /-- bytes at a scratchpad offset of the tile, with the cause of each -/
  | spad (off : Nat) (bytes : List (BitVec 8)) (causes : List Cause)
deriving DecidableEq, Repr

/-- A result on its way (R131): the cycle it is written in, and what is written. -/
structure Pending where
  due : Nat
  /-- cycle of issue of its instruction -/
  issued : Nat
  what : Landed
deriving DecidableEq, Repr

/-- A vector instruction that still has rows to issue (R131). -/
structure VecRun where
  vop : Nat
  slot : VecSlot
  /-- cycle of issue and next row -/
  issue : Nat
  row : Nat
  /-- iteration index latched at issue (R174, R177) -/
  ind : Nat
  /-- cursor base of the stream's channel as at issue (R96, R238) -/
  base : BitVec 64
  /-- scan carries as at issue, by column; none where the carry is absent (R141) -/
  carryIn : Option (List Elem)
  /-- values read so far by a block family, row by row: source a, source b, head flags -/
  seenA : List (List Elem)
  seenB : List (List Elem)
  seenF : List (List Elem)
  /-- the queue entry a pop took -/
  popped : Option QEntry
  /-- causes already raised by the instruction (R82) -/
  raised : List Cause
  /-- rows of registers as they stood before the instruction's own results (R132): key 32 × register +
  row -/
  own : List (Nat × List Elem)
deriving DecidableEq, Repr

/-- The vector engine of a tile. -/
structure Vec where
  /-- tile registers: key 2048 × register + 64 × row + column -/
  treg : SMap Elem
  /-- operand cache words: key 64 × row + word -/
  ocache : SMap Elem
  /-- latent errors of tile registers and of the cache, by the same keys -/
  tregErr : SMap EccErr
  ocacheErr : SMap EccErr
  /-- the cache lost its contents in power gating: words not written since read as free values from this number
  on (R22, R128) -/
  cacheSeed : Option Nat
  /-- scan carries by column -/
  carry : SMap Elem
  /-- finished-tile queue, oldest first -/
  queue : List QEntry
  /-- the instruction in issue -/
  run : Option VecRun
  /-- results on their way, in the order they were issued -/
  pending : List Pending
deriving DecidableEq, Repr

/-! ### The generator streams (R94 to R102) -/

/-- What a generator stream keeps beside its registers: its position and a key from the entropy
source (R96, R99). -/
structure Rng where
  cur : BitVec 64
  hwKey : Option (BitVec 128)
deriving DecidableEq, Repr

/-! ### Stream channels (R238 to R247) -/

/-- One far-side line request of a run, awaiting its reply (R241): bytes `off` to `off + len − 1` of an
element, the far address of its first byte, the local bytes of a run towards the far side, and the
answer of another rank once it has come. -/
structure StreamElem where
  elem : Nat
  off : Nat
  len : Nat
  far : Nat
  bytes : List (BitVec 8)
  causes : List Cause
  /-- the last request of its element -/
  last : Bool
  /-- the element fails before any access: code of R242, and the cause its zeros carry (R243) -/
  fail : Option (Nat × Cause)
  /-- the request went to another rank -/
  remote : Bool
  /-- status, data and causes of the answer of another rank -/
  answer : Option (Nat × List (BitVec 8) × List Cause)
deriving DecidableEq, Repr

/-- A run of a stream channel (R185, R238, R241, R246). -/
structure StreamRun where
  desc : Nat
  words : List (BitVec 32)
  /-- 1 SRUN, 2 SGATHER, 3 SSCATTER -/
  sop : Nat
  sem : Nat
  semEn : Bool
  /-- cycle of issue; 2^32 once a later frame has begun -/
  issue : Nat
  /-- elements (or FEED rows) completed -/
  done : Nat
  /-- weight-pair copies of the run's batch: pairs that read copy B (R412, R414) -/
  copies : SMap Bool
  /-- schedule cycle of completion, once complete: SEM is signalled in the next -/
  ended : Option Nat
  /-- the first fault of the run was raised -/
  faulted : Bool
  /-- SHALT was executed: no further element, no completion signal -/
  halted : Bool
  /-- element and byte of the next request -/
  next : Nat
  nextOff : Nat
  /-- first cycle in which the next request may issue -/
  reqAt : Nat
  /-- index line read last: its offset, bytes and causes (R241) -/
  idxLine : Option (Nat × List (BitVec 8) × List Cause)
  /-- requests on their way, oldest first -/
  waiting : List StreamElem
deriving DecidableEq, Repr

/-- One stream channel. -/
structure Channel where
  cur : BitVec 64
  /-- cursor base of the latest run and of the run before the current cycle's (R238) -/
  base : BitVec 64
  basePrev : BitVec 64
  baseCycle : Nat
  run : Option StreamRun
  /-- descriptor of the current or last run -/
  lastDesc : Nat
deriving DecidableEq, Repr

/-! ### Messages (R265 to R279) -/

/-- The unit that waits for the answer to a remote request (R326, R329). -/
inductive ReqSource where
  /-- a line request of a stream run: its element and first byte -/
  | stream (t c elem off : Nat)
  /-- operation `id` of a tile's message slot -/
  | slotMsg (t id : Nat)
  /-- the SEND of a Mule -/
  | mule (t : Nat)
  /-- the piece at byte `off` of copy `k` of an engine -/
  | agp (n k off : Nat)
  /-- the NOTIFY 3 message of a window -/
  | notify (w : Nat)
  /-- a descriptor of the collectives engine -/
  | coll (d : Nat)
deriving DecidableEq, Repr

/-- Where a message came from, and so where its answer goes. -/
inductive MsgFrom where
  /-- a unit of this module, with the cycle of delivery -/
  | die (source : ReqSource) (due : Nat)
  /-- another rank: its rank and entry, the class, the link it came on and its transfer -/
  | rank (src tid : Nat) (be : Bool) (link xfer : Nat)
deriving DecidableEq, Repr

/-- A message (R265), field by field. -/
structure Msg where
  rank : BitVec 13
  tile : BitVec 10
  port : BitVec 4
  tag : BitVec 16
  epoch : BitVec 8
  ord : Bool
  be : Bool
  notice : Bool
  user : BitVec 2
  payload : BitVec 64
deriving DecidableEq, Repr

/-- A message-slot operation that awaits its answer (R270). -/
structure Outstanding where
  /-- serial number of the operation at its tile -/
  id : Nat
  template : Nat
  nackpol : Nat
  ntag : BitVec 16
  payloadLow : BitVec 32
deriving DecidableEq, Repr

/-- A message held at its tile until a fence counter reads 0 (R277). -/
structure HeldMsg where
  id : Nat
  fence : Nat
  xfer : Nat
  msg : Msg
deriving DecidableEq, Repr

/-- An operation a fence counts: a message, or a stream channel's run (R277). -/
inductive FenceOp where
  | msg (id : Nat)
  | run (channel : Nat)
deriving DecidableEq, Repr

/-- A message held at the receiving tile: until its due cycle, or under STRICT until a check point
(R162, R274). -/
structure Landing where
  msg : Msg
  sender : MsgFrom
  /-- due cycle of a scheduled message; none for a best-effort one -/
  due : Option Nat
  /-- one more than the schedule cycle in which it arrived; 0 once a later frame has begun -/
  arrived : Nat
deriving DecidableEq, Repr

/-! ### The Mule (R147 to R169) -/

/-- The states of a Mule (R168). -/
inductive MuleState where
  | halted | running | waiting | handler | fault
deriving DecidableEq, Repr

/-- An inbox entry: the message, its handler entry, and one more than the cycle it entered, 0 once a later
frame has begun (R160, R161). -/
structure InboxEntry where
  msg : Msg
  handler : Nat
  entered : Nat
  /-- released by a check point (R162) -/
  released : Bool
deriving DecidableEq, Repr

/-- A signal on its way to a tile semaphore: the cycle it is applied in, none for one whose arrival no
cycle fixes (R187, R273, R276). -/
structure Sig where
  sem : Nat
  inc : Nat
  due : Option Nat
deriving DecidableEq, Repr

/-- The Mule of a tile. -/
structure Mule where
  regs : SMap (BitVec 32)
  pc : BitVec 32
  state : MuleState
  fcode : Nat
  faultPc : BitVec 32
  /-- halted by executing HALT (R160) -/
  haltedByHalt : Bool
  /-- a handler runs (its HRET is due) -/
  inHandler : Bool
  /-- the WAIT a handler interrupted resumes after it -/
  waitSem : Option (Nat × Nat)
  /-- a SEND awaits its answer: its destination register -/
  sendDest : Option Nat
  /-- STOP asked: halt at the next instruction boundary -/
  stopAsked : Bool
  inbox : List InboxEntry
  imem : SMap (BitVec 32)
  dmem : SMap (BitVec 8)
  imemErr : SMap EccErr
  dmemErr : SMap EccErr
deriving DecidableEq, Repr

/-! ### A tile -/

/-- The hidden state of one logical tile: everything that is not a plain register of its window. -/
structure Tile where
  ctl : Ctl
  /-- instruction memory, bundle by bundle (R190) -/
  imem : SMap (BitVec 256)
  imemErr : SMap EccErr
  /-- staging registers: key 8 × master + word (R190) -/
  staging : SMap (BitVec 32)
  arrays : SMap MxArray
  /-- passes in flight, oldest first -/
  passes : List Pass
  /-- descriptor of the pass issuing or of the last pass (R123) -/
  unitDesc : Nat
  vec : Vec
  rng : SMap Rng
  chans : SMap Channel
  /-- weight rows arrived on the row stream -/
  rowIn : List RowWord
  mule : Mule
  /-- serial number of the next message-slot operation -/
  msgSerial : Nat
  outstanding : List Outstanding
  held : List HeldMsg
  /-- operations each fence counter still counts -/
  fences : SMap (List FenceOp)
  landings : List Landing
  /-- signals that have not been applied yet (R276) -/
  sigs : List Sig
  /-- open landing ports (R275) -/
  landOpen : SMap Bool
  /-- cycle in which each semaphore last rose from 0 to 1, this frame (R156) -/
  semRose : SMap Nat
  /-- queued write-backs, oldest first: 8-byte words of the slice (R235) -/
  writeBacks : List Nat
  /-- next line of each bank a running scrub writes; absent when the bank is done (R237) -/
  scrub : SMap Nat
  scrubBusy : Bool
  /-- running digests of taps 0 to 3 (R379) -/
  taps : SMap (BitVec 128)
  /-- power-gated (R22) -/
  gated : Bool
  /-- in tile-row reset (R486) -/
  inReset : Bool
  /-- general-port and feed-port use: key 32 × cycle + bank, plus 16 for the feed port (R233) -/
  portUse : SMap Nat
  /-- a scheduling promise was broken in this frame: what the tile's scheduled units produce is
  undefined (R8) -/
  broken : Bool
  /-- a hazard was reported in this frame (R197) -/
  hazardSeen : Bool
deriving DecidableEq, Repr

/-! ### Regional clocking (R347 to R360) -/

/-- A fraction, for times that are no whole number of picoseconds. -/
structure Frac where
  num : Nat
  den : Nat
deriving DecidableEq, Repr

/-- The clock of a region in the open frame: its charges in ps (R52), the cycle of its last stretch
(R354), and why it is held: 0 not, 1 crossing word, 2 full queue, 3 droop (R366). -/
structure ClkRegion where
  stretch : Frac
  hold : Frac
  lastStretch : Option Nat
  held : Nat
  /-- stretch charge since CLK_R_STRETCH_PS was read, ps -/
  stretchRead : Frac
deriving DecidableEq, Repr

/-- The hub's clocking state. -/
structure Clk where
  /-- frequency of the previous frame, MHz (R358) -/
  fPrev : Nat
  /-- throttle level and the frequency it gives, MHz (R360) -/
  level : Nat
  ft : Nat
  /-- cycle from which the throttled frequency applies, and the throttle charge of the frame, ps -/
  throttleFrom : Nat
  throttle : Frac
  /-- time run throttled since CLK_THROT_NS was read, ps -/
  throttleRead : Frac
  /-- VCORE that the converter has reached, mV (R357) -/
  mv : Nat
  /-- stretch and hold charge of the closed frame's critical region, ps; 0 after an idle or refused
  frame (R358) -/
  lastStretch : Frac
  lastHold : Frac
deriving DecidableEq, Repr

/-! ### Address-generator engines (R248 to R251) -/

/-- The states of an engine (R262). -/
inductive AgpState where
  | halted | running | waiting | fault
deriving DecidableEq, Repr

/-- How far a piece of a copy has come. -/
inductive AgpStage where
  | toRead | reading | held | writing | done
deriving DecidableEq, Repr

/-- A piece of a copy, cut where a source or a destination line ends: bytes `off` to `off + len − 1`, and
what was read. -/
structure AgpPiece where
  off : Nat
  len : Nat
  stage : AgpStage
  bytes : List (BitVec 8)
  causes : List Cause
deriving DecidableEq, Repr

/-- A copy in flight (R250): addresses, length, the pc of its instruction, and the weight-pair copies of
its batch (R414). -/
structure AgpCopy where
  id : Nat
  dst : Nat
  src : Nat
  len : Nat
  pc : Nat
  copies : SMap Bool
  pieces : List AgpPiece
  /-- destination lines counted as poisoned -/
  poisoned : List Nat
deriving DecidableEq, Repr

/-- A SIG that waits for earlier copies: target, increment, the copies. -/
structure AgpSignal where
  target : Nat
  inc : Nat
  after : List Nat
deriving DecidableEq, Repr

/-- What an engine keeps beside its registers (R249). -/
structure Agp where
  pc : BitVec 8
  state : AgpState
  fcode : Nat
  reps : List RepBlock
  copies : List AgpCopy
  nextId : Nat
  signals : List AgpSignal
  /-- STOP was written: halt when no copy is in flight -/
  stopping : Bool
deriving DecidableEq, Repr

/-! ### The fabric (R265 to R331) -/

/-- The fields of a packet (R300) that the module's behaviour depends on. `kind` is TYPE: 0 WRITE, 1 READ,
2 MSG, 3 READ_DATA, 4 ANSWER, 5 COLL. -/
structure Packet where
  dst : Nat
  src : Nat
  kind : Nat
  vcc : Nat
  be : Bool
  ord : Bool
  twin : Bool
  pos : Nat
  len : Nat
  tid : Nat
  xfer : Nat
  space : Nat
  offset : Nat
  data : List (BitVec 8)
  /-- poison cause of each 64-byte line of data -/
  marks : List Cause
  /-- the links of the hops after the first that the source of a best-effort packet chose (R310) -/
  hops : List Nat
deriving DecidableEq, Repr

/-- What a route notice names (R314): a transfer and its route, or an unreachable module. -/
inductive Notice where
  | transfer (prog xfer : Nat) (twin : Bool)
  | module (flock member : Nat)
deriving DecidableEq, Repr

/-- What one direction of a link carries to its receiver (R288 to R290). -/
structure Flit where
  /-- FEC and CRC both pass -/
  good : Bool
  /-- symbols that the FEC corrected -/
  corrected : Nat
  seq : BitVec 12
  ackseq : BitVec 12
  nak : Bool
  /-- an IDLE flit carries no SEQ of its own -/
  idle : Bool
  /-- a CONTROL flit announces that the peer forwards from now on (R318) -/
  forward : Bool
deriving DecidableEq, Repr

/-- What a link keeps beside its registers (R290, R292, R318); a host port is kept as link 32 or 33. -/
structure Link where
  /-- SEQ expected next, and SEQ of the next flit sent -/
  rx : BitVec 12
  tx : BitVec 12
  /-- flits sent and not acknowledged, oldest first: SEQ, and the packet that ends in it -/
  replay : List (BitVec 12 × Option Packet)
  /-- replays in a row of the oldest of them -/
  replays : Nat
  /-- a NAK with the expected SEQ is owed to the sender -/
  nakDue : Bool
  /-- lanes marked bad -/
  bad : BitVec 4
  /-- width code before the last DOWN -/
  lastWidth : Nat
  /-- the peer forwards, as training or an announcement told; an announcement that takes effect at the
  next tick -/
  peerForward : Bool
  announced : Bool
deriving DecidableEq, Repr

/-- A transaction entry (R329): the request, the unit that waits, and the program slot whose route it
takes. -/
structure NetEntry where
  pkt : Packet
  source : ReqSource
  prog : Nat
  /-- the packet has left the module -/
  sent : Bool
deriving DecidableEq, Repr

/-- A route entry (R221, R307). -/
structure Route where
  xfer : Nat
  prog : Nat
  /-- 0 origin, 1 forward, 2 terminal -/
  role : Nat
  twin : Bool
  dest : Nat
  inLink : Nat
  outLink : Nat
  due : Nat
  lslot : Nat
deriving DecidableEq, Repr

/-- The fabric's state in the open frame, and what waits at the links. -/
structure Fab where
  links : SMap Link
  /-- transfers of the armed program, by number and route, that arrived, timed out, or met a notice -/
  arrived : List (Nat × Bool)
  timedOut : List (Nat × Bool)
  noticed : List Nat
  /-- packets a forwarder holds for the slot of their transfer: link and packet (R307) -/
  forwards : List (Nat × Packet)
  /-- route notices sent: link and notice, oldest first (the model's record) -/
  notices : List (Nat × Notice)
  /-- FORWARD = 1 was written: 1 announce at the next tick, 2 links UP at the one after (R318) -/
  forwardStage : Nat
deriving DecidableEq, Repr

/-- A message in flight on the die (R269): its sender, and the cycle its delivery falls in. -/
structure Flight where
  msg : Msg
  source : ReqSource
  due : Nat
deriving DecidableEq, Repr

/-- An answer on its way back to a sender on the die. -/
structure MsgAnswer where
  source : ReqSource
  code : Nat
  /-- cycle by which it reaches the sender -/
  due : Nat
deriving DecidableEq, Repr

/-! ### Collectives (R332 to R346, R400 to R404) -/

/-- A contribution to a chunk: group index, count word, data and the poison cause of each of its bytes. -/
structure ColPart where
  member : Nat
  count : Nat
  bytes : List (BitVec 8)
  causes : List Cause
deriving DecidableEq, Repr

/-- Which part of a collective a transfer brings: descriptor, step (1 a contribution to the module's own
chunk, 2 a combined or gathered chunk or a broadcast vector) and the group index of the sender. -/
structure ColStep where
  desc : Nat
  step : Nat
  member : Nat
deriving DecidableEq, Repr

/-- A running descriptor (R332). -/
structure ColRun where
  /-- the sixteen words, as at START -/
  words : List (BitVec 32)
  /-- own group index -/
  me : Nat
  /-- contributions to the own chunk, in order of arrival, and members whose contribution is missing -/
  parts : List ColPart
  missing : List Nat
  /-- the own chunk has been combined and written -/
  combined : Bool
  /-- chunks written at DST with their totals, and chunks that timed out -/
  got : List (Nat × Nat)
  lost : List Nat
  /-- transfers whose answer is awaited -/
  sends : List Nat
  /-- causes already raised in this run (R339) -/
  raised : List Cause
  /-- the shadow area being written (R404) -/
  shadow : Option Nat
deriving DecidableEq, Repr

/-! ### Weight pairs (R412 to R421) -/

/-- What a weight pair keeps beside its registers: FROM of its pending switch, and the copy it switched away
from and has not released. -/
structure WPair where
  fromBatch : Nat
  old : Option Bool
deriving DecidableEq, Repr

/-! ### The tick tree and the Goose (R379 to R382, R475) -/

/-- A tick packet (R475). -/
structure TickPacket where
  tick : BitVec 64
  period : BitVec 27
  hops : BitVec 8
  flock : BitVec 8
  member : BitVec 5
  prio : BitVec 8
  handover : BitVec 64
  serial : BitVec 64
deriving DecidableEq, Repr

/-- A candidate for bellwether (R473). -/
structure Cand where
  flock : BitVec 8
  member : BitVec 5
  prio : BitVec 8
  serial : BitVec 64
deriving DecidableEq, Repr

/-- A digest item of a module pair (R382). -/
structure DigestItem where
  rank : Nat
  tile : Nat
  tap : Nat
  prog : Nat
  tick : BitVec 64
  digest : BitVec 128
  failed : Bool
deriving DecidableEq, Repr

/-- The tick packet that a module would follow at the tick that is due (R476): HOPS, link, and the error e of its
timer in units of 0.125 ns. -/
structure TickParent where
  hops : Nat
  link : Nat
  err : BitVec 16
deriving DecidableEq, Repr

/-! ### The host link (R422 to R445) -/

/-- A host-link packet (R427). `kind` is TYPE: 0 WRITE, 1 READ, 3 READ_DATA, 4 ANSWER, 8 HWRITE; `bad` says that
a reserved header bit is set; `want` is the length that a READ asks for, in bytes. -/
structure HostPacket where
  kind : Nat
  tag : Nat
  ord : Bool
  bad : Bool
  addr : BitVec 64
  want : Nat
  data : List (BitVec 8)
  /-- poison cause of each byte of data, none past the list -/
  marks : List Cause
deriving DecidableEq, Repr

/-- What an executing descriptor waits for: the image load it started, or a tick count. -/
inductive HlkWait where
  | load
  | tick (count : BitVec 64)
deriving DecidableEq, Repr

/-- A descriptor in execution (R436): its number, ring, NOTIFY flag and cookie. -/
structure HlkExec where
  num : Nat
  base : Nat
  notify : Bool
  cookie : BitVec 64
  wait : HlkWait
deriving DecidableEq, Repr

/-- The state of the host link beside its registers. -/
structure Hlk where
  /-- command ring as taken at the enable: fabric address and descriptors -/
  base : Nat
  size : Nat
  /-- numbers of the descriptors queued by samples, oldest first -/
  queue : List Nat
  exec : Option HlkExec
  /-- completion ring as taken at the enable: host address and records -/
  cplBase : Nat
  cplSize : Nat
  /-- records lost since the last delivered record -/
  lost : Nat
  /-- time of the last renewal or grant, and the time since which a port has not been UP, µs (R430) -/
  renewAt : Nat
  downAt : SMap Nat
  /-- packets sent to the hosts, oldest first: port and packet (the model's record) -/
  sent : List (Nat × HostPacket)
deriving DecidableEq, Repr

/-- A frame that has closed and awaits its verdict (R372 to R376, R442). -/
structure Closed where
  /-- tick count that opened it, program slot and sequence entry -/
  tick : BitVec 64
  prog : Nat
  entry : Nat
  overrun : Bool
  /-- code of the refusal, none where it was armed -/
  refused : Option Nat
  holdover : Bool
  /-- FRM_PROG_CFG of the slot, as committed for the frame -/
  cfg : BitVec 32
  events : List GEvent
  /-- events were carried into it (R372) -/
  carried : Bool
  /-- released weight pairs, and the batch count in force (R442) -/
  released : BitVec 4
  batch : BitVec 64
  slack : BitVec 32
  /-- digests of tile pairs compared (R381), and tiles with a tap that names the slot (R373) -/
  compared : Nat
  missing : Nat
  /-- module pairs whose digest item is awaited: tile and tap (R382) -/
  waits : List (Nat × Nat)
  tapTiles : List Nat
deriving DecidableEq, Repr

/-! ### Images (R214 to R221) -/

/-- An entry of PROGRAMS (R217); the masks with bit n for logical tile n. -/
structure NifProg where
  slot : Nat
  flags : Nat
  ffloor : Nat
  c : Nat
  r : Nat
  entry : Nat
  len : Nat
  active : Nat
  used : Nat
deriving DecidableEq, Repr

/-- A block of BUNDLES (R218). -/
structure NifBlock where
  tile : Nat
  first : Nat
  bundles : List (BitVec 256)
deriving DecidableEq, Repr

/-- A block of MULE (R219). -/
structure NifMule where
  tile : Nat
  boot : Nat
  imem : List (BitVec 32)
  dmem : List (BitVec 8)
deriving DecidableEq, Repr

/-- What an image says (R214 to R221). -/
structure Nif where
  digest : List (BitVec 8)
  tiles : Nat
  latency : Nat
  stackCount : Nat
  ddrUse : Nat
  ddrBytes : Nat
  ranks : Nat
  rank : Nat
  progs : List NifProg
  blocks : List NifBlock
  mules : List NifMule
  /-- register offset and value -/
  config : List (Nat × BitVec 32)
  routes : List Route
  /-- PROGRAMS and BUNDLES are present -/
  native : Bool
deriving DecidableEq, Repr

/-- An image load in progress (R222): what START latched, and the image once the checks have passed. -/
structure Load where
  addr : Nat
  len : Nat
  cop : Nat
  image : Option Nif
deriving DecidableEq, Repr

/-- What a read of the shadow restore brought (R408): answered DONE without an uncorrectable error, the 64
bytes, and whether the line was stored poisoned. -/
structure ShrLine where
  ok : Bool
  bytes : List (BitVec 8)
  poison : Bool
deriving DecidableEq, Repr

/-! ### Power (R491 to R500) and the board-test port (R508) -/

/-- The sequence of main power (R496, R497): off, waiting for P52V, a step of the rails rising, all rails up, on, a
step of the rails falling. -/
inductive PowerSeq where
  | off | waiting
  | rising (step : Nat)
  | settled | on
  | falling (step : Nat)
deriving DecidableEq, Repr

/-- Power. -/
structure Power where
  /-- PWRGD_MAIN (R496) -/
  mainGood : Bool
  /-- P12V_SB is good; P52V lies within 40 V to 60 V; the baseboard holds MAIN_EN_N low -/
  p12 : Bool
  p52 : Bool
  enLow : Bool
  /-- main power has been asked for, by MAIN_ON or MAIN_AUTO; the stagger delay has elapsed (R493) -/
  onReq : Bool
  stagger : Bool
  /-- the time the stagger delay counts from, and the time the wait for P52V began, µs -/
  onAt : Nat
  waitAt : Nat
  seq : PowerSeq
  /-- the latched trip and the time of it, µs (R500) -/
  trip : Option Nat
  tripAt : Nat
  /-- what ended main power last: 0 an orderly power-down or nothing, 1 MAIN_EN_N, 2 a trip (R511) -/
  lastOff : Nat
deriving DecidableEq, Repr

/-- The instructions of the board-test TAP (R508). -/
inductive TapInstr where
  | bypass | idcode | samplePreload | extest
deriving DecidableEq, Repr

/-- The board-test port: its instruction, what its data register shifts out, the preloaded values of the boundary
cells, and the values it drives on the pins. -/
structure Tap where
  instr : TapInstr
  data : List Bool
  preload : List Bool
  driven : Option (List Bool)
deriving DecidableEq, Repr

/-! ### Management and boot (R446 to R467) -/

/-- SPDM error codes that the chapter names (R448, R458, R466, R467), and those of DSP0274 for a request that is not
valid or not supported. -/
inductive SpdmError where
  | busy | unspecified | unexpectedRequest | invalidRequest | unsupportedRequest
deriving DecidableEq, Repr

/-- A response of the SPDM responder (R464 to R467): the field contents; how DSP0274 lays them out is outside the
manual. -/
inductive SpdmReply where
  | version (v : List Nat)
  | capabilities (cert chal measSigned : Bool)
  | algorithms (ecdsaP384 sha384 : Bool)
  | digests (d : List (List (BitVec 8)))
  | certificate (portion : List (BitVec 8)) (remainder : Nat)
  | challenge (chain nonce signature : List (BitVec 8))
  | measurements (count : Nat) (blocks : List (Nat × List (BitVec 8))) (nonce signature : List (BitVec 8))
  | hss (q : Nat) (signature : List (BitVec 8))
  | error (e : SpdmError)
deriving DecidableEq, Repr

/-- What the side-band port sends (R447, R449). -/
inductive SbReply where
  /-- REG_READ: completion and values -/
  | regs (code : Nat) (values : List (BitVec 32))
  /-- REG_WRITE and KEY_ENROLL: completion -/
  | done (code : Nat)
  /-- MCTP control: completion (0 success) and data -/
  | mctp (code : Nat) (data : List (BitVec 8))
  | spdm (r : SpdmReply)
  /-- PLDM event: sensor, value, and whether an in-band interrupt announces it -/
  | event (sensor value : Nat) (ibi : Bool)
deriving DecidableEq, Repr

/-- The SPDM connection (R464, R466): how far the negotiation has come, the transcript, the held HSS signature with its
index, and the times of recent signed responses, µs. -/
structure Spdm where
  state : Nat
  transcript : List (BitVec 8)
  held : Option (Nat × List (BitVec 8))
  signedAt : List Nat
deriving DecidableEq, Repr

/-- The management controller, the flash and the secure element beside their registers. -/
structure Mgmt where
  /-- boot stage that runs on the controller: 0 none, 1 and 2, 3 complete, 4 stopped (R456, R458) -/
  stage : Nat
  /-- the controller restarts after a watchdog reset (R450) -/
  down : Bool
  /-- images in the flash: key 2 × TYPE + slot (R453, R457) -/
  flash : SMap (List (BitVec 8))
  /-- slot that the boot selected, by TYPE -/
  selected : SMap Nat
  /-- images that run (TYPE 1 and 2) and records in force (3 and 4), by TYPE (R456, R461) -/
  inForce : SMap (List (BitVec 8))
  /-- secure element: enrolled keys of slots 2 and 3, ECDSA and HSS (R454), counters by TYPE (R457), revocation bits,
  and the next HSS index -/
  keys : SMap (List (BitVec 8) × List (BitVec 8))
  counters : SMap Nat
  revoked : BitVec 4
  lmsNext : Nat
  /-- boot stage of the device management core: 0 off, 4 to 6, 7 READY, 8 FAILED -/
  dev : Nat
  /-- last lower LMS tree whose state is complete (R467) -/
  lmsBuilt : Nat
  spdm : Spdm
  /-- last reported value of each PLDM sensor (R449) -/
  sensors : SMap Nat
  /-- slot address as read: FLOCK, MEMBER and whether the parity holds (R507) -/
  flock : BitVec 8
  member : BitVec 5
  slotOk : Bool
  /-- messages sent on the side-band port, oldest first (the model's record) -/
  sent : List SbReply
deriving DecidableEq, Repr

/-- What boot stage 6 finds (R254 to R257, R350, R462, R481): physical rows that fail self-test; HBM stacks that
train; capacity code and success of each CAMM2 site; for each region its worst crossing: sender, L_c and number;
whether the PUF reconstruction succeeds and the secure element answers. -/
structure BringUp where
  failedRows : BitVec 36
  hbmTrained : BitVec 8
  sites : List (Nat × Bool)
  crossings : List (Nat × Nat × Nat × Nat)
  pufOk : Bool
  seOk : Bool
deriving DecidableEq, Repr

end Sys2Proof.Machine
end

