-- ==== Sys2Proof/Syntax.lean ====
section
/-! DEFINITION. The commands of the module: one constructor for each row of the opcode table, with the
operands its rule gives it. A command of a unit of which the module has several names the unit first: a
tile `t`, a stream channel `ch`, an engine `n`, a link `l`, a region `r`. Commands that a clock or the
world outside brings about (a tick, an arrival, the expiry of a time) are rows like any other. Rows with operands stand first and
rows without after them, each in the table's order (Lean's runtime numbers no constructor with fields above 244). -/

namespace Sys2Proof

open Machine

inductive Instr where
  /-- TICK (R55): The frame controller's tick closes the ending frame and runs the ordered tick
  steps: commit, ring sample, sequence advance, period compare, arming checks and frequency
  publication. -/
  | tick (silent : List (Fin 62))
  /-- TICK_PACKET (R46): A tick packet arriving within the 50 ns window on a module that is not the
  bellwether is checked for its tick count and sets the tick, or ends holdover. -/
  | tickPacket (l : Fin 32) (p : TickPacket) (err : BitVec 16)
  /-- REGISTER_WRITE (R14): A write to a register that has no row of its own, applied by its access
  code after the checks of R37 and the order of R38. -/
  | registerWrite (m : Master) (off : BitVec 32) (v : BitVec 32)
  /-- RC_READ (R14): A read of an RC register returns its value and resets the register. -/
  | rcRead (m : Master) (off : BitVec 32)
  /-- LO_READ_LATCH (R34): A read of a _LO register latches the _HI half for the same master's next
  read. -/
  | loReadLatch (m : Master) (off : BitVec 32)
  /-- BUNDLE_ISSUE (R170): Each used tile issues one 256-bit bundle per schedule cycle, with all of
  its slots acting in the same cycle. -/
  | bundleIssue (t : Nat)
  /-- KSET (R178): Control slot: sets loop counter k to IMM16 and clears j_k. -/
  | kset (t : Nat) (k : BitVec 2) (imm : BitVec 16)
  /-- REP (R179): Control slot: opens a repeat block of LEN bundles run k times. -/
  | rep (t : Nat) (k : BitVec 2) (len : BitVec 10)
  /-- REP_ITERATION_END (R179): At the end of a repeat body, k decrements and j increments, and the
  block closes after its last iteration. -/
  | repIterationEnd (t : Nat)
  /-- JMP (R178): Control slot: sets pc to TARGET at no cycle cost. -/
  | jmp (t : Nat) (target : BitVec 11)
  /-- JQ (R178): Control slot: jumps to TARGET when comparator q is set. -/
  | jq (t : Nat) (q : BitVec 2) (target : BitVec 11)
  /-- QCMP (R178): Control slot: sets comparator q from an unsigned comparison of k with IMM16. -/
  | qcmp (t : Nat) (q : BitVec 2) (k : BitVec 2) (rel : BitVec 2) (imm : BitVec 16)
  /-- END (R178): Control slot: the tile issues empty bundles until cycle C − 1. -/
  | endOp (t : Nat)
  /-- PASS (R109): Matrix slot: starts pass descriptor (DESC + j) mod 64 in the cycle of the bundle.
  -/
  | pass (t : Nat) (desc : BitVec 6) (ind : BitVec 3)
  /-- PASS_STEP (R104): A step of a pass issues every τ cycles, feeding weight rows through the cell
  rows against the stationary activation block. -/
  | passStep (t : Nat)
  /-- ACCUMULATE (R112): At U(t) the exact step sums are added to the accumulators and to C. -/
  | accumulate (t : Nat)
  /-- BF16_COMBINE (R119): At V the 32 FP32 partials of each column are combined left to right. -/
  | bf16Combine (t : Nat)
  /-- CHECKSUM_COMPARE (R118): At U(n − 1) + 1, C is compared with the sum of the accumulators; a
  mismatch sets cause CHECK. -/
  | checksumCompare (t : Nat)
  /-- DRAIN (R120): The WIDE or NARROW drain writes the drain registers to scratchpad or to the
  finished-tile queue at its fixed cycle. -/
  | drain (t : Nat)
  /-- VADD (R134): Vector FP32 or BF16 addition. -/
  | vadd (t : Nat) (v : VecSlot)
  /-- VSUB (R134): Vector subtraction. -/
  | vsub (t : Nat) (v : VecSlot)
  /-- VMUL (R134): Vector multiplication. -/
  | vmul (t : Nat) (v : VecSlot)
  /-- VFMA (R134): Vector fused multiply-add. -/
  | vfma (t : Nat) (v : VecSlot)
  /-- VMIN (R134): Vector IEEE minimum. -/
  | vmin (t : Nat) (v : VecSlot)
  /-- VMAX (R134): Vector IEEE maximum. -/
  | vmax (t : Nat) (v : VecSlot)
  /-- VABS (R134): Vector absolute value by the sign bit. -/
  | vabs (t : Nat) (v : VecSlot)
  /-- VNEG (R134): Vector negation by the sign bit. -/
  | vneg (t : Nat) (v : VecSlot)
  /-- VCMP (R134): Vector floating-point comparison writing 1.0 or +0. -/
  | vcmp (t : Nat) (v : VecSlot)
  /-- VSEL (R134): Vector selection by the raw bits of a condition. -/
  | vsel (t : Nat) (v : VecSlot)
  /-- VMOV (R183): Vector copy of source b. -/
  | vmov (t : Nat) (v : VecSlot)
  /-- VIADD (R134): INT32 addition modulo 2^32. -/
  | viadd (t : Nat) (v : VecSlot)
  /-- VISUB (R134): INT32 subtraction. -/
  | visub (t : Nat) (v : VecSlot)
  /-- VIMUL (R134): INT32 multiplication keeping the low 32 bits. -/
  | vimul (t : Nat) (v : VecSlot)
  /-- VAND (R134): Bitwise AND. -/
  | vand (t : Nat) (v : VecSlot)
  /-- VOR (R134): Bitwise OR. -/
  | vor (t : Nat) (v : VecSlot)
  /-- VXOR (R134): Bitwise XOR. -/
  | vxor (t : Nat) (v : VecSlot)
  /-- VSHL (R134): Shift left. -/
  | vshl (t : Nat) (v : VecSlot)
  /-- VSHR (R134): Logical shift right. -/
  | vshr (t : Nat) (v : VecSlot)
  /-- VSRA (R134): Arithmetic shift right. -/
  | vsra (t : Nat) (v : VecSlot)
  /-- VICMP (R134): Signed integer comparison writing 1 or 0. -/
  | vicmp (t : Nat) (v : VecSlot)
  /-- VIOTA (R134): Writes base + 64r + c. -/
  | viota (t : Nat) (v : VecSlot)
  /-- VCVT (R135): Converts between the FP32, BF16 and INT32 views. -/
  | vcvt (t : Nat) (v : VecSlot)
  /-- VEXP (R136): e^x within 2 ulp. -/
  | vexp (t : Nat) (v : VecSlot)
  /-- VEXP2 (R136): 2^x within 2 ulp. -/
  | vexp2 (t : Nat) (v : VecSlot)
  /-- VLOG (R136): Natural logarithm. -/
  | vlog (t : Nat) (v : VecSlot)
  /-- VLOG2 (R136): Base-2 logarithm. -/
  | vlog2 (t : Nat) (v : VecSlot)
  /-- VRCP (R136): Reciprocal within 1 ulp. -/
  | vrcp (t : Nat) (v : VecSlot)
  /-- VRSQRT (R136): Reciprocal square root. -/
  | vrsqrt (t : Nat) (v : VecSlot)
  /-- VSQRT (R136): Correctly rounded square root. -/
  | vsqrt (t : Nat) (v : VecSlot)
  /-- VTANH (R136): Hyperbolic tangent. -/
  | vtanh (t : Nat) (v : VecSlot)
  /-- VSIGM (R136): Logistic sigmoid. -/
  | vsigm (t : Nat) (v : VecSlot)
  /-- VERF (R136): Error function. -/
  | verf (t : Nat) (v : VecSlot)
  /-- VSINPI (R136): sin(πx). -/
  | vsinpi (t : Nat) (v : VecSlot)
  /-- VCOSPI (R136): cos(πx). -/
  | vcospi (t : Nat) (v : VecSlot)
  /-- VRNGU (R137): Writes uniform values from one draw per element. -/
  | vrngu (t : Nat) (v : VecSlot)
  /-- VRNGB (R137): Writes Bernoulli 1.0 or +0 against a broadcast probability. -/
  | vrngb (t : Nat) (v : VecSlot)
  /-- VRNGN (R137): Writes normal values from two draws per element. -/
  | vrngn (t : Nat) (v : VecSlot)
  /-- VRED (R138): Row or column reduction by the fixed pairwise tree. -/
  | vred (t : Nat) (v : VecSlot)
  /-- VSCAN (R141): Prefix scan along ROW, COL or FLAT, optionally segmented and chained. -/
  | vscan (t : Nat) (v : VecSlot)
  /-- VSEGRED (R142): Segmented reduction over a length-form row. -/
  | vsegred (t : Nat) (v : VecSlot)
  /-- VSORT (R143): Sorts each row of key and index pairs in descending order. -/
  | vsort (t : Nat) (v : VecSlot)
  /-- VMERGE (R143): Merges two sorted rows, keeping the 64 largest pairs. -/
  | vmerge (t : Nat) (v : VecSlot)
  /-- VQPOP (R130): Removes the oldest finished-tile queue entry into two register rows. -/
  | vqpop (t : Nat) (v : VecSlot)
  /-- VWADD (R130): Adds wide words from the queue or the cache into a wide area. -/
  | vwadd (t : Nat) (v : VecSlot)
  /-- VWCVT (R130): Converts a wide area to FP32. -/
  | vwcvt (t : Nat) (v : VecSlot)
  /-- VLD (R135): Loads any format from scratchpad into the FP32 or BF16 view. -/
  | vld (t : Nat) (v : VecSlot)
  /-- VST (R135): Stores the FP32 view to scratchpad in a chosen format. -/
  | vst (t : Nat) (v : VecSlot)
  /-- VOCLD (R128): Copies scratchpad runs into operand cache rows, moving poison marks. -/
  | vocld (t : Nat) (v : VecSlot)
  /-- VOCST (R128): Copies operand cache rows into scratchpad. -/
  | vocst (t : Nat) (v : VecSlot)
  /-- VEC_RESULT_WRITE (R131): A vector result row lands at issue + i + L, or at the block latency.
  -/
  | vecResultWrite (t : Nat)
  /-- SRUN (R241): Stream slot: runs a LINEAR or FEED descriptor on a channel. -/
  | srun (t : Nat) (ch : BitVec 2) (desc : BitVec 5) (sem : BitVec 5) (semEn : Bool) (ind : BitVec 3)
  /-- SGATHER (R186): Stream slot: gathers table rows by index. -/
  | sgather (t : Nat) (ch : BitVec 2) (desc : BitVec 5) (sem : BitVec 5) (semEn : Bool) (ind : BitVec 3)
  /-- SSCATTER (R186): Stream slot: scatters rows to table positions by index. -/
  | sscatter (t : Nat) (ch : BitVec 2) (desc : BitVec 5) (sem : BitVec 5) (semEn : Bool) (ind : BitVec 3)
  /-- SHALT (R185): Stream slot: stops the channel at the next element boundary. -/
  | shalt (t : Nat) (ch : BitVec 2)
  /-- STREAM_REPLY (R241): A far-side reply arrives and its rows are written locally in element
  order. -/
  | streamReply (t : Nat) (ch : BitVec 2)
  /-- STREAM_COMPLETE (R187): A long-running instruction completes, and it signals SEM in the
  following cycle. -/
  | streamComplete (t : Nat) (ch : BitVec 2)
  /-- ROW_STREAM_ARRIVAL (R247): Rows of a FEED run with REACH reach the tile d hops away 8d cycles
  later. -/
  | rowStreamArrival (t : Nat)
  /-- MSEND (R279): Message slot: sends one message built from a template and a payload. -/
  | msend (t : Nat) (tpl : BitVec 5) (paddr : BitVec 17) (ord : Bool) (ind : BitVec 3) (step : BitVec 6)
  /-- MSIG (R279): Message slot: signals the semaphore that a template names. -/
  | msig (t : Nat) (tpl : BitVec 5) (inc : BitVec 16) (ord : Bool)
  /-- MFENCE (R277): Message slot: sets a fence counter to the tile's incomplete operations. -/
  | mfence (t : Nat) (fc : BitVec 2)
  /-- FENCE_RELEASE_SEND (R277): A WAITF message held at the tile is sent when its fence counter
  reaches 0. -/
  | fenceReleaseSend (t : Nat)
  /-- CP_TAKE (R153): Mule-interface slot: decrements a semaphore if it is at least 1, and otherwise
  misses the check point. -/
  | cpTake (t : Nat) (n : BitVec 5)
  /-- CP_GIVE (R153): Mule-interface slot: increments a semaphore. -/
  | cpGive (t : Nat) (n : BitVec 5)
  /-- CP_MARK (R153): Mule-interface slot: a check point that touches no semaphore. -/
  | cpMark (t : Nat)
  /-- ADD (R151): Mule: d = a + b. -/
  | add (t : Nat) (d : BitVec 5) (a : BitVec 5) (b : BitVec 5)
  /-- SUB (R151): Mule: d = a − b. -/
  | sub (t : Nat) (d : BitVec 5) (a : BitVec 5) (b : BitVec 5)
  /-- AND (R151): Mule bitwise AND. -/
  | and (t : Nat) (d : BitVec 5) (a : BitVec 5) (b : BitVec 5)
  /-- OR (R151): Mule bitwise OR. -/
  | or (t : Nat) (d : BitVec 5) (a : BitVec 5) (b : BitVec 5)
  /-- XOR (R151): Mule bitwise XOR. -/
  | xor (t : Nat) (d : BitVec 5) (a : BitVec 5) (b : BitVec 5)
  /-- SHL (R151): Mule shift left by b[4:0]. -/
  | shl (t : Nat) (d : BitVec 5) (a : BitVec 5) (b : BitVec 5)
  /-- SHR (R151): Mule logical shift right. -/
  | shr (t : Nat) (d : BitVec 5) (a : BitVec 5) (b : BitVec 5)
  /-- SRA (R151): Mule arithmetic shift right. -/
  | sra (t : Nat) (d : BitVec 5) (a : BitVec 5) (b : BitVec 5)
  /-- SLT (R151): Mule signed set-less-than. -/
  | slt (t : Nat) (d : BitVec 5) (a : BitVec 5) (b : BitVec 5)
  /-- SLTU (R151): Mule unsigned set-less-than. -/
  | sltu (t : Nat) (d : BitVec 5) (a : BitVec 5) (b : BitVec 5)
  /-- MUL (R151): Mule low 32-bit product. -/
  | mul (t : Nat) (d : BitVec 5) (a : BitVec 5) (b : BitVec 5)
  /-- MULHU (R151): Mule unsigned high product. -/
  | mulhu (t : Nat) (d : BitVec 5) (a : BitVec 5) (b : BitVec 5)
  /-- MULH (R151): Mule signed high product. -/
  | mulh (t : Nat) (d : BitVec 5) (a : BitVec 5) (b : BitVec 5)
  /-- ADDI (R151): Mule add of a sign-extended immediate. -/
  | addi (t : Nat) (d : BitVec 5) (a : BitVec 5) (imm : BitVec 16)
  /-- ANDI (R151): Mule AND with a zero-extended immediate. -/
  | andi (t : Nat) (d : BitVec 5) (a : BitVec 5) (imm : BitVec 16)
  /-- ORI (R151): Mule OR with an immediate. -/
  | ori (t : Nat) (d : BitVec 5) (a : BitVec 5) (imm : BitVec 16)
  /-- XORI (R151): Mule XOR with an immediate. -/
  | xori (t : Nat) (d : BitVec 5) (a : BitVec 5) (imm : BitVec 16)
  /-- SHLI (R151): Mule shift left by an immediate. -/
  | shli (t : Nat) (d : BitVec 5) (a : BitVec 5) (imm : BitVec 16)
  /-- SHRI (R151): Mule logical shift right by an immediate. -/
  | shri (t : Nat) (d : BitVec 5) (a : BitVec 5) (imm : BitVec 16)
  /-- SRAI (R151): Mule arithmetic shift right by an immediate. -/
  | srai (t : Nat) (d : BitVec 5) (a : BitVec 5) (imm : BitVec 16)
  /-- SLTI (R151): Mule signed compare with an immediate. -/
  | slti (t : Nat) (d : BitVec 5) (a : BitVec 5) (imm : BitVec 16)
  /-- LUI (R151): Mule loads imm21 << 11. -/
  | lui (t : Nat) (d : BitVec 5) (imm : BitVec 21)
  /-- LDW (R151): Mule word load through the address map of R149. -/
  | ldw (t : Nat) (d : BitVec 5) (a : BitVec 5) (imm : BitVec 16)
  /-- LDH (R151): Mule signed half-word load. -/
  | ldh (t : Nat) (d : BitVec 5) (a : BitVec 5) (imm : BitVec 16)
  /-- LDHU (R151): Mule unsigned half-word load. -/
  | ldhu (t : Nat) (d : BitVec 5) (a : BitVec 5) (imm : BitVec 16)
  /-- LDB (R151): Mule signed byte load. -/
  | ldb (t : Nat) (d : BitVec 5) (a : BitVec 5) (imm : BitVec 16)
  /-- LDBU (R151): Mule unsigned byte load. -/
  | ldbu (t : Nat) (d : BitVec 5) (a : BitVec 5) (imm : BitVec 16)
  /-- STW (R151): Mule word store. -/
  | stw (t : Nat) (d : BitVec 5) (a : BitVec 5) (imm : BitVec 16)
  /-- STH (R151): Mule half-word store. -/
  | sth (t : Nat) (d : BitVec 5) (a : BitVec 5) (imm : BitVec 16)
  /-- STB (R151): Mule byte store. -/
  | stb (t : Nat) (d : BitVec 5) (a : BitVec 5) (imm : BitVec 16)
  /-- BEQ (R151): Mule branch if equal. -/
  | beq (t : Nat) (a : BitVec 5) (b : BitVec 5) (off : BitVec 16)
  /-- BNE (R151): Mule branch if not equal. -/
  | bne (t : Nat) (a : BitVec 5) (b : BitVec 5) (off : BitVec 16)
  /-- BLT (R151): Mule branch if signed less than. -/
  | blt (t : Nat) (a : BitVec 5) (b : BitVec 5) (off : BitVec 16)
  /-- BGE (R151): Mule branch if signed greater or equal. -/
  | bge (t : Nat) (a : BitVec 5) (b : BitVec 5) (off : BitVec 16)
  /-- BLTU (R151): Mule branch if unsigned less than. -/
  | bltu (t : Nat) (a : BitVec 5) (b : BitVec 5) (off : BitVec 16)
  /-- BGEU (R151): Mule branch if unsigned greater or equal. -/
  | bgeu (t : Nat) (a : BitVec 5) (b : BitVec 5) (off : BitVec 16)
  /-- JAL (R151): Mule jump and link into s1. -/
  | jal (t : Nat) (off : BitVec 26)
  /-- JALR (R151): Mule register jump and link. -/
  | jalr (t : Nat) (d : BitVec 5) (a : BitVec 5) (imm : BitVec 16)
  /-- MULE_WAIT (R157): The Mule waits on its own semaphore and dispatches handlers while it waits.
  -/
  | muleWait (t : Nat) (d : BitVec 5) (a : BitVec 5) (imm : BitVec 16)
  /-- MULE_WAIT_END (R157): The WAIT ends in the first cycle in which the semaphore is at least 1,
  and decrements it. -/
  | muleWaitEnd (t : Nat)
  /-- MULE_SIG (R158): The Mule signals a tile or device semaphore. -/
  | muleSig (t : Nat) (d : BitVec 5) (a : BitVec 5) (b : BitVec 5)
  /-- MULE_FENCE (R151): The Mule waits until its earlier stores are written. -/
  | muleFence (t : Nat) (d : BitVec 5) (a : BitVec 5) (b : BitVec 5)
  /-- SEND (R159): The Mule sends a message built from s24 to s27 and holds until it is answered. -/
  | send (t : Nat) (d : BitVec 5) (a : BitVec 5) (b : BitVec 5)
  /-- YIELD (R161): A Mule dispatch point. -/
  | yield (t : Nat) (d : BitVec 5) (a : BitVec 5) (b : BitVec 5)
  /-- HRET (R163): Returns from a handler to s31, or faults outside a handler. -/
  | hret (t : Nat) (d : BitVec 5) (a : BitVec 5) (b : BitVec 5)
  /-- MULE_HALT (R151): Stops the Mule in HALTED. -/
  | muleHalt (t : Nat) (d : BitVec 5) (a : BitVec 5) (b : BitVec 5)
  /-- CYC (R151): Writes the current schedule cycle to d. -/
  | cyc (t : Nat) (d : BitVec 5) (a : BitVec 5) (b : BitVec 5)
  /-- HANDLER_DISPATCH (R161): At a dispatch point an eligible inbox message is removed and its
  handler runs. -/
  | handlerDispatch (t : Nat)
  /-- MUL_START (R168): MUL_CTRL.START runs the Mule from MUL_BOOT. -/
  | mulStart (t : Nat)
  /-- MUL_STOP (R168): MUL_CTRL.STOP halts the Mule at the next instruction boundary. -/
  | mulStop (t : Nat)
  /-- MUL_RESUME (R168): MUL_CTRL.RESUME runs the Mule from MUL_PC. -/
  | mulResume (t : Nat)
  /-- MUL_IMEM_WRITE (R167): A write to Mule instruction memory is applied only while the Mule is
  HALTED or FAULT. -/
  | mulImemWrite (t : Nat) (word : Fin 4096) (v : BitVec 32)
  /-- IMEM_STAGE_WRITE (R190): A write to words 0 to 6 of a bundle goes to the master's staging
  register. -/
  | imemStageWrite (m : Master) (t : Nat) (word : Fin 7) (v : BitVec 32)
  /-- IMEM_BUNDLE_WRITE (R190): A write to word 7 writes the whole bundle from the staging register.
  -/
  | imemBundleWrite (m : Master) (t : Nat) (b : Fin 2048) (v : BitVec 32)
  /-- PT_DATA_READ (R201): A read of DBG_PT_DATA performs one read of a physical tile target. -/
  | ptDataRead (m : Master)
  /-- PT_DATA_WRITE (R201): A write of DBG_PT_DATA performs one write to a physical tile target. -/
  | ptDataWrite (m : Master) (v : BitVec 32)
  /-- DMC_LOAD_START (R222): DMC_LOAD_CTRL.START latches the address, length and COP and starts an
  image load, or refuses the START. -/
  | dmcLoadStart (cop : BitVec 3)
  /-- SPD_SCRUB_START (R237): SPD_SCRUB.START starts or restarts zeroing every line of the slice. -/
  | spdScrubStart (t : Nat)
  /-- SCRUB_LINE (R237): A bank writes its next scrub line in a cycle free of classes 1 to 4. -/
  | scrubLine (t : Nat) (bank : Fin 16)
  /-- ECC_WRITEBACK (R235): A queued corrected word is written back in a cycle free of fixed-cycle
  accesses. -/
  | eccWriteback (t : Nat) (bank : Fin 16)
  /-- AGP_START (R262): AGP_CTRL.START runs an engine from AGP_BOOT. -/
  | agpStart (n : Fin 16)
  /-- AGP_STOP (R262): AGP_CTRL.STOP halts the engine after its copies in flight complete. -/
  | agpStop (n : Fin 16)
  /-- AGP_RESUME (R262): AGP_CTRL.RESUME runs the engine from its current pc. -/
  | agpResume (n : Fin 16)
  /-- AGP_NOP (R249): Engine NOP. -/
  | agpNop (n : Fin 16)
  /-- SETA (R249): Sets bits 47:0 of an address register. -/
  | seta (n : Fin 16) (a : BitVec 3) (imm : BitVec 48)
  /-- SETAH (R249): Sets bits 63:48 of an address register. -/
  | setah (n : Fin 16) (a : BitVec 3) (imm : BitVec 16)
  /-- ADDA (R249): Adds a signed offset to an address register. -/
  | adda (n : Fin 16) (a : BitVec 3) (imm : BitVec 48)
  /-- MOVA (R249): Copies one address register into another. -/
  | mova (n : Fin 16) (a : BitVec 3) (b : BitVec 3)
  /-- SETC (R249): Sets a counter. -/
  | setc (n : Fin 16) (c : BitVec 2) (imm : BitVec 32)
  /-- COPY (R250): Issues a copy of IMM bytes, with up to four in flight. -/
  | copy (n : Fin 16) (a : BitVec 3) (b : BitVec 3) (len : BitVec 32) (advance : Bool)
  /-- COPY_COMPLETE (R250): An engine copy completes when every line is written and acknowledged. -/
  | copyComplete (n : Fin 16) (k : Nat)
  /-- AGP_REP (R250): Repeats the next instructions a counter's number of times. -/
  | agpRep (n : Fin 16) (c : BitVec 2) (len : BitVec 8)
  /-- AGP_WAIT (R249): Waits for a device semaphore of at least 1 and decrements it. -/
  | agpWait (n : Fin 16) (d : BitVec 8)
  /-- AGP_SIG (R249): Signals a target after every earlier copy completes. -/
  | agpSig (n : Fin 16) (target : BitVec 16) (inc : BitVec 16)
  /-- AGP_FENCE (R249): Waits until every earlier copy completes. -/
  | agpFence (n : Fin 16)
  /-- AGP_HALT (R249): Stops the engine in HALTED. -/
  | agpHalt (n : Fin 16)
  /-- HBM_REFRESH_WINDOW (R256): A refresh window opens when c mod HBM_REF_PERIOD equals
  HBM_REF_PHASE, and the stack takes no scheduled request. -/
  | hbmRefreshWindow (k : Fin 8) (cyc : Nat)
  /-- FORCED_REFRESH (R256): When postponed refreshes reach their limit, the controller refreshes at
  once and holds its region's clock. -/
  | forcedRefresh (k : Fin 9) (ps : Nat)
  /-- DDR_REFRESH_WINDOW (R259): A DDR5 refresh window opens for both controllers. -/
  | ddrRefreshWindow (cyc : Nat)
  /-- MESSAGE_RECEIVE (R269): A receiver checks a message for BADPORT, STALE, ABSENT and its port,
  and accepts it or answers with a code. -/
  | messageReceive (arrival : Option (Fin 32 × Bool × Packet))
  /-- SCHEDULED_LANDING (R274): A scheduled message held at the tile lands in its due cycle, in tag
  order. -/
  | scheduledLanding (t : Nat)
  /-- SEMAPHORE_SIGNAL (R276): Signals that arrive at a semaphore add their summed increment,
  saturating with SEM_SAT. -/
  | semaphoreSignal (target : BitVec 16)
  /-- SYN_SIG (R286): A host write signals a tile semaphore. -/
  | synSig (t : Nat) (v : BitVec 32)
  /-- SYN_DSIG (R285): A host write signals a device semaphore. -/
  | synDsig (v : BitVec 32)
  /-- MSG_LAND_CLOSE (R275): Closes landing ports at once. -/
  | msgLandClose (t : Nat) (mask : BitVec 4)
  /-- DUMP_START (R284): DMC_DUMP_CTRL.START snapshots every synchronisation object and writes the
  dump. -/
  | dumpStart (dest : Bool)
  /-- FLIT_RECEIVE (R290): A receiver checks FEC and CRC, uses the flit or returns NAK, and the
  sender replays on NAK. -/
  | flitReceive (l : Fin 34) (f : Flit)
  /-- LINK_SILENCE (R291): A receiver with no valid flit for 1 µs takes its link DOWN. -/
  | linkSilence (l : Fin 34) (lock : Bool)
  /-- LANE_BAD (R292): A lane that loses lock or reaches its FEC threshold takes the link DOWN for
  narrower retraining. -/
  | laneBad (l : Fin 34) (lane : Fin 4) (lock : Bool)
  /-- LINK_TRAINED (R294): Training completes and the peer identity decides UP, HELD, MISWIRED or
  DISABLED, followed by delay calibration. -/
  | linkTrained (l : Fin 34) (flock : BitVec 8) (member : BitVec 5) (peerForward : Bool) (good : BitVec 4) (rtt : BitVec 32) (tdly : BitVec 32)
  /-- RETRAIN (R317): FAB_LINK_CTRL.RETRAIN resets a link. -/
  | retrain (l : Fin 32)
  /-- SLOT_SEND (R307): An origin or forwarder sends a scheduled transfer in its link slot. -/
  | slotSend (l : Fin 32) (xfer : BitVec 16) (twin : Bool)
  /-- SCHEDULED_ARRIVAL (R307): A scheduled packet is matched to a route entry, written or
  forwarded, and an answer is returned. -/
  | scheduledArrival (l : Fin 32) (crc : Bool) (p : Packet)
  /-- DUE_HOLD (R308): At the due cycle of a transfer that has not arrived, the SerDes region holds,
  or times out at once if its link is down. -/
  | dueHold (xfer : BitVec 16) (twin : Bool) (part : Option ColStep) (ps : Nat)
  /-- TRANSFER_TIMEOUT (R308): At the end of the grace period a scheduled transfer times out and
  raises FAB_TIMEOUT. -/
  | transferTimeout (xfer : BitVec 16) (twin : Bool) (part : Option ColStep)
  /-- ROUTE_NOTICE (R314): A route notice received hop by hop reaches the origin, which selects the
  twin route from the next tick. -/
  | routeNotice (n : Notice)
  /-- BE_TIMEOUT (R311): A best-effort request with no answer within FAB_BE_TIMEOUT completes with
  TIMEOUT. -/
  | beTimeout (tid : BitVec 14)
  /-- WRITE (R323): A remote WRITE packet is checked against the windows, written line by line and
  answered. -/
  | write (l : Fin 32) (crc : Bool) (p : Packet)
  /-- READ (R323): A remote READ packet is checked and answered with READ_DATA or a refusal. -/
  | read (l : Fin 32) (crc : Bool) (p : Packet)
  /-- READ_DATA (R326): Read data arrives at the source and completes its waiting element. -/
  | readData (l : Fin 32) (crc : Bool) (p : Packet)
  /-- ANSWER (R326): An ANSWER packet completes the waiting element with its status. -/
  | answer (l : Fin 32) (crc : Bool) (p : Packet)
  /-- COLLECTIVE_START (R332): An enabled collective descriptor starts at cycle START of a frame
  that arms its PROG. -/
  | collectiveStart (d : Fin 64) (cyc : Nat)
  /-- COL_CONTRIBUTION (R336): An arriving contribution is combined in tree or relaxed order and
  written. -/
  | colContribution (c : ColStep) (count : BitVec 64) (bs : List (BitVec 8)) (marks : List Cause) (differs : Bool)
  /-- COLLECTIVE_COMPLETE (R340): A descriptor signals SEM after its last write and every answer or
  timeout. -/
  | collectiveComplete (d : Fin 64)
  /-- CROSSING_HOLD (R351): A receiver holds its clock until the word stamped for its cycle is
  ready. -/
  | crossingHold (r : Fin 62) (ps : Nat)
  /-- QUEUE_FULL_HOLD (R352): A sender holds its clock while a crossing queue is full. -/
  | queueFullHold (r : Fin 62) (ps : Nat)
  /-- CROSS_SLIP (R353): A word still not ready CLK_XMARGIN ns after the sender's progress shows its
  cycle raises a hard fault. -/
  | crossSlip (r : Fin 62) (sender : Fin 62) (cyc : Nat)
  /-- DROOP_STRETCH (R354): A supply droop stretches the current period to 1.5/f, or holds the clock
  during the lockout. -/
  | droopStretch (r : Fin 62) (cyc : Nat) (mv : Nat) (ps : Nat)
  /-- CLK_DROOP (R355): A droop hold that exceeds HOLDMAX raises a hard fault and holds the region
  until the tick. -/
  | clkDroop (r : Fin 62) (cyc : Nat) (mv : Nat)
  /-- CLK_MON (R356): The clock monitor records a period, duty or stop fault. -/
  | clkMon (r : Fin 62) (kind : Fin 3) (dev : BitVec 16) (cyc : Nat)
  /-- THERMAL_REPORT (R360): A region's 1 µs temperature report updates T and the throttle level. -/
  | thermalReport (r : Fin 62) (temp : BitVec 16) (cyc : Nat)
  /-- DIGEST_ITEM (R382): A partner's digest item arrives and is compared with the own tap. -/
  | digestItem (d : DigestItem)
  /-- PAIR_MISSING (R382): No valid digest item within 1.2 µs of the tick raises PAIR_MISSING. -/
  | pairMissing (t : Nat) (k : Fin 4)
  /-- TICK_WATCH (R385): A tick interval outside tolerance, or a missing tick, raises TICK_WATCH and
  enters the safe state. -/
  | tickWatch (interval : Option Nat)
  /-- SELFTEST (R388): GOS_CTRL.SELFTEST forces failures and checks that each one reaches the
  central Goose. -/
  | selftest (failing : Option (Fin 62))
  /-- FRM_WPAIR_SWITCH (R415): Requests a weight-pair switch from batch FROM, or is refused LATE. -/
  | frmWpairSwitch (j : Fin 4) (v : BitVec 32)
  /-- COPY_RELEASED (R416): A weight copy that is no longer in use is released and reported. -/
  | copyReleased (j : Fin 4)
  /-- SHR_START (R407): DMC_SHR_CTRL.START starts a shadow restore with SEL, or refuses it. -/
  | shrStart (sel : BitVec 2)
  /-- SHADOW_RESTORE_END (R408): A shadow restore ends with SHR_DONE or with the code of the first
  failing check, marking poison where needed. -/
  | shadowRestoreEnd (h0 : ShrLine) (h1 : ShrLine) (lines : List ShrLine)
  /-- HOST_WRITE (R428): A host WRITE packet is applied and answered. -/
  | hostWrite (p : Fin 2) (pkt : HostPacket) (reused : Bool)
  /-- HOST_READ (R428): A host READ packet is answered with READ_DATA or an ANSWER. -/
  | hostRead (p : Fin 2) (pkt : HostPacket) (reused : Bool)
  /-- CLAIM (R430): HLK_CLAIM.REQ claims the ownership token, and the claim is granted or refused.
  -/
  | claim (p : Fin 2)
  /-- RELEASE (R431): HLK_CLAIM.RELEASE sets the token to none and disables both rings. -/
  | release (p : Fin 2)
  /-- RENEW (R430): HLK_RENEW.RENEW renews the owner's lease. -/
  | renew (p : Fin 2)
  /-- PORT_RETRAIN (R425): HLK_PORT_CTRL.RETRAIN retrains a host port. -/
  | portRetrain (p : Fin 2)
  /-- REG_READ (R447): Side-band vendor command that reads 1 to 12 registers. -/
  | regRead (off : BitVec 32) (n : Nat)
  /-- REG_WRITE (R447): Side-band vendor command that writes 1 to 12 registers. -/
  | regWrite (off : BitVec 32) (vs : List (BitVec 32))
  /-- KEY_ENROLL (R455): Enrols integrator keys into an empty slot 2 or 3. -/
  | keyEnroll (slot : BitVec 8) (ecdsa : List (BitVec 8)) (hss : List (BitVec 8))
  /-- SET_ENDPOINT_ID (R447): MCTP control command that assigns the endpoint ID. -/
  | setEndpointId (op : BitVec 2) (eid : BitVec 8)
  /-- GET_MCTP_VERSION_SUPPORT (R447): MCTP control command that returns the supported versions. -/
  | getMctpVersionSupport (typ : BitVec 8)
  /-- ENTDAA (R446): I3C dynamic address assignment. -/
  | entdaa (addr : BitVec 7)
  /-- SETDASA (R446): I3C dynamic address assignment from the static address. -/
  | setdasa (static : BitVec 7) (addr : BitVec 7)
  /-- PLATFORM_EVENT_MESSAGE (R449): A sensor state change or threshold crossing is sent as a PLDM
  event with an in-band interrupt. -/
  | platformEventMessage (sensor : Nat) (measured : Nat)
  /-- FIRMWARE_UPDATE (R460): PLDM Type 5 writes an image into the slot that the boot did not
  select. -/
  | firmwareUpdate (image : List (BitVec 8))
  /-- RECORD_COMMIT (R460): The management firmware checks a record and atomically advances its
  counter and revocation bits. -/
  | recordCommit (site : Bool)
  /-- GET_VERSION (R464): SPDM request. -/
  | getVersion (fields : List (BitVec 8))
  /-- GET_CAPABILITIES (R464): SPDM request. -/
  | getCapabilities (fields : List (BitVec 8))
  /-- NEGOTIATE_ALGORITHMS (R464): SPDM request. -/
  | negotiateAlgorithms (ecdsa : Bool) (sha : Bool) (fields : List (BitVec 8))
  /-- GET_DIGESTS (R464): SPDM request that returns certificate digests. -/
  | getDigests (fields : List (BitVec 8))
  /-- GET_CERTIFICATE (R463): SPDM request that returns certificate slot 0. -/
  | getCertificate (slot : Nat) (off : Nat) (len : Nat) (fields : List (BitVec 8))
  /-- CHALLENGE (R466): SPDM signed challenge response after the LMS counter increment. -/
  | challenge (slot : Nat) (fields : List (BitVec 8))
  /-- GET_MEASUREMENTS (R465): SPDM request that returns the measurement blocks. -/
  | getMeasurements (index : BitVec 8) (sign : Bool) (fields : List (BitVec 8))
  /-- VENDOR_DEFINED_REQUEST (R466): Fetches the HSS signature of the last signed response. -/
  | vendorDefinedRequest (code : BitVec 16)
  /-- LMS_FAIL (R466): An LMS increment unconfirmed within 50 ms releases no response and sets
  LMS_FAIL. -/
  | lmsFail (moved : Bool)
  /-- STANDBY_POWER_GOOD (R456): P12V_SB good reads the slot address and starts the boot chain from
  ROM. -/
  | standbyPowerGood (flock : BitVec 8) (member : BitVec 5) (par : Bool)
  /-- BOOT_STAGE_COMPLETE (R456): A boot stage verifies the next and advances, or stops with a boot
  code. -/
  | bootStageComplete (stage : Fin 7) (b : BringUp)
  /-- CANDIDATE_EXCHANGE (R473): Every 10 µs a module sends its two lowest bellwether candidates and
  adopts lower ones. -/
  | candidateExchange (l : Fin 32) (cs : List Cand)
  /-- DMC_ROWRST (R486): Requests a tile-row reset of the named logical rows. -/
  | dmcRowrst (rows : BitVec 32)
  /-- COLD_POWER_ON (R483): Removal and return of P52V and P12V_SB. -/
  | coldPowerOn (p52 : Bool)
  /-- INPUT_WAIT_EXPIRY (R492): P52V out of range for 1 s leaves main power off with IN_UV or IN_OV.
  -/
  | inputWaitExpiry (high : Bool)
  /-- PROTECTION_TRIP (R500): A comparator trip disables every main converter, latches, and records
  PWR_TRIP. -/
  | protectionTrip (codes : List Nat)
  /-- SAMPLE_PRELOAD (R508): Board-test TAP instruction. -/
  | samplePreload (pins : List Bool) (cells : List Bool)
  /-- EXTEST (R508): Drives the boundary pins while main power is off, and acts as BYPASS otherwise.
  -/
  | extest (pins : List Bool)
  /-- ILLEGAL (R151): A Mule fetches a word with a reserved opcode or non-zero reserved bits (or an
  address-generator engine meets a reserved OP), and faults with code ILLEGAL. -/
  | illegal (engine : Bool) (n : Nat)
  /-- HOLDOVER_TICK (R46): When the expected tick-packet window expires with no valid packet, the
  frame controller produces the tick from its own timer and enters holdover. -/
  | holdoverTick
  /-- TICK_LOST (R47): When FRM_HOLDOVER_LIMIT consecutive holdover ticks are reached, the frame
  controller sets TICK_LOST and enters the safe state. -/
  | tickLost
  /-- DRAIN_COMPLETE (R59): The end of an overrun's drain enters the safe state under OVR_STOP, or
  else lets arming resume at the next tick. -/
  | drainComplete
  /-- RELEASE_CYCLE0 (R55): At tick + 40 ns every region is released into cycle 0, the committed SH
  values apply, and per-frame state is cleared. -/
  | releaseCycle0
  /-- RUN_START (R61): Writing FRM_CTRL.RUN = 1 starts arming at FRM_START_TICK or at the next tick;
  the write is ignored while DMC_BRING.NOARM is set. -/
  | runStart
  /-- RUN_STOP (R61): Clearing FRM_CTRL.RUN lets the current frame finish and arms no program from
  the following tick. -/
  | runStop
  /-- SAFE_REQ (R67): Writing FRM_CTRL.SAFE_REQ enters the safe state at the next tick. -/
  | safeReq
  /-- AT_NEXT_TICK (R63): A commit request to be applied in step 2 of the next tick. -/
  | atNextTick
  /-- AT_COUNT (R63): A commit request to be applied at the tick FRM_COMMIT_AT, or refused
  COMMIT_LATE if that tick has passed. -/
  | atCount
  /-- NOW (R63): A commit applied at once when FRM_STATE is IDLE or SAFE, and otherwise refused
  COMMIT_BUSY. -/
  | now
  /-- CANCEL (R63): Withdraws any pending commit request and keeps the shadows. -/
  | cancel
  /-- SUBTICK_SAMPLE (R435): When an FRM_SUBTICK interval expires in a frame that arms no program,
  the host link samples the command ring. -/
  | subtickSample
  /-- LOAD_CHECKS (R224): A started load checks the image in order and stops at the first failure,
  writing nothing. -/
  | loadChecks
  /-- LOAD_INSTALL (R227): After the checks pass, the device management core installs bundles, Mule
  blocks, configuration, slots and routes, and requests a commit. -/
  | loadInstall
  /-- LOAD_END (R228): The load ends with LOAD_DONE or LOAD_COMMIT when its commit request resolves.
  -/
  | loadEnd
  /-- DMC_LOAD_ABORT (R229): DMC_LOAD_CTRL.ABORT ends a load with LOAD_ABORTED, invalidating its
  slots if the install has begun. -/
  | dmcLoadAbort
  /-- MESSAGE_ANSWER (R270): An answer reaches the sender; a negative acknowledgement updates
  MSG_NACK and applies NACKPOL. -/
  | messageAnswer
  /-- SAVE (R280): DMC_CTX_CTRL SAVE requests a context save, or is refused. -/
  | save
  /-- RESTORE (R280): DMC_CTX_CTRL RESTORE requests a context restore, or is refused. -/
  | restore
  /-- CONTEXT_SAVE_RUN (R281): At the next tick the save stops the Mules, waits for outstanding
  operations and writes the context. -/
  | contextSaveRun
  /-- CONTEXT_RESTORE_RUN (R283): At the next tick the restore checks the context and makes the
  staged copies live only if all checks pass. -/
  | contextRestoreRun
  /-- FORWARD (R318): Writing FAB_CTRL.FORWARD = 1 announces forwarding, and the links become UP
  from the following tick. -/
  | forward
  /-- FAB_TWIN_CLEAR (R315): Returns every transfer to its primary route at the next tick. -/
  | fabTwinClear
  /-- TID_FREE_SEND (R330): A best-effort request waiting for a transaction entry is sent when an
  entry is freed. -/
  | tidFreeSend
  /-- VERDICT_FORMED (R376): The central Goose forms the frame verdict, writes the records and hands
  them to the host link. -/
  | verdictFormed
  /-- GOOSE_STOP (R451): GOS_ALIVE silent for 5 µs asserts the management controller's safe request.
  -/
  | gooseStop
  /-- RING_ENABLE (R434): Takes the ring base and size and enables the command ring, or refuses with
  RING_CFG. -/
  | ringEnable
  /-- RING_DISABLE (R434): Stops the command ring after the executing descriptor. -/
  | ringDisable
  /-- CPL_ENABLE (R440): Enables the completion ring and emits an OWNER record. -/
  | cplEnable
  /-- CPL_DISABLE (R440): Disables the completion ring. -/
  | cplDisable
  /-- REGW (R437): Command descriptor: applies up to six register writes. -/
  | regw
  /-- LOAD (R437): Command descriptor: starts an image load. -/
  | load
  /-- WAIT_TICK (R437): Command descriptor: completes at the first tick whose count reaches the
  value. -/
  | waitTick
  /-- MARK (R437): Command descriptor: completes at once with a command record. -/
  | mark
  /-- NOP (R437): Command descriptor that does nothing. -/
  | nop
  /-- GET_ENDPOINT_ID (R447): MCTP control command that returns the endpoint ID. -/
  | getEndpointId
  /-- GET_MESSAGE_TYPE_SUPPORT (R447): MCTP control command that returns the supported message
  types. -/
  | getMessageTypeSupport
  /-- GET_VENDOR_DEFINED_MESSAGE_SUPPORT (R447): MCTP control command that returns Imhal's vendor
  number. -/
  | getVendorDefinedMessageSupport
  /-- LMS_BUILD (R467): After 2^19 leaves of the active lower tree, the next tree's state is built
  in idle time. -/
  | lmsBuild
  /-- WATCHDOG_RESET (R450): The management controller's watchdog expires after 500 ms and restarts
  its core from ROM. -/
  | watchdogReset
  /-- MAIN_ON (R452): MMC_CTRL.MAIN_ON requests main power up. -/
  | mainOn
  /-- MAIN_OFF (R497): MMC_CTRL.MAIN_OFF enters the safe state and sequences main power down. -/
  | mainOff
  /-- MMC_SAFE_REQ (R452): MMC_CTRL.SAFE_REQ asserts safe cause 6. -/
  | mmcSafeReq
  /-- OWN_RELEASE (R452): MMC_CTRL.OWN_RELEASE sets the ownership token to none. -/
  | ownRelease
  /-- WARM_RESET (R452): MMC_CTRL.WARM_RESET requests a warm module reset. -/
  | warmReset
  /-- SVN_COMMIT (R460): Raises the firmware counters to the SVNs of the running images. -/
  | svnCommit
  /-- ELECTION_SETTLE (R473): A view unchanged for 10 ms fixes the bellwether and the deputy. -/
  | electionSettle
  /-- TAKEOVER (R478): After two missed ticks the deputy produces ticks as bellwether. -/
  | takeover
  /-- ELECT (R479): FAB_HALL_CTRL.ELECT on the bellwether starts a re-election. -/
  | elect
  /-- HANDOVER (R479): At the HANDOVER tick count the new bellwether takes over. -/
  | handover
  /-- WARM (R485): DMC_RESET.WARM performs a warm module reset at once. -/
  | warm
  /-- JOB (R485): DMC_RESET.JOB requests a job reset at the next tick. -/
  | job
  /-- JOB_RESET_RUN (R485): At the tick after the request, the job reset clears its state and
  completes within 1 ms. -/
  | jobResetRun
  /-- ROW_RESET_END (R486): A tile-row reset ends within 10 µs. -/
  | rowResetEnd
  /-- MAIN_EN_N_HIGH (R492): MAIN_EN_N going high enters the safe state and sequences main power
  down. -/
  | mainEnNHigh
  /-- STAGGER_EXPIRY (R493): The stagger delay expires and the main converter is enabled if every
  condition holds. -/
  | staggerExpiry
  /-- RAIL_STEP (R496): When a step's rails reach 90 % plus 0.5 ms, the next power-up step is
  enabled. -/
  | railStep
  /-- MAIN_POWER_GOOD (R496): 1 ms after step 5, PWRGD_MAIN and MAIN_GOOD are asserted. -/
  | mainPowerGood
  /-- SEQ_FAIL (R498): A rail that misses its window trips SEQ_FAIL. -/
  | seqFail
  /-- POWER_DOWN_STEP (R497): When a step's rails fall below 10 %, the next power-down step is
  switched off. -/
  | powerDownStep
  /-- BYPASS (R508): Board-test TAP instruction. -/
  | bypass
  /-- IDCODE (R508): Board-test TAP instruction that returns the IDCODE. -/
  | idcode
  /-- CMD_BAD (R438): The host link executes a command descriptor with a reserved OP, a reserved bit
  set or COUNT out of range, executes nothing, and writes a CMD_BAD command record. -/
  | cmdBad
  /-- MAIN_EN_N_LOW (R492): The baseboard drives MAIN_EN_N low, which completes the conditions for
  enabling the main converter when the others already hold. -/
  | mainEnNLow
  /-- P52V_IN_RANGE (R492): P52V comes into 40 V to 60 V during the up-to-1 s wait, and the main
  converter is enabled. -/
  | p52vInRange
deriving DecidableEq, Repr

end Sys2Proof
end

