-- ==== Sys2Proof/Decode.lean ====
section
/-! DEFINITION. The commands that words of the opcode table spell. -/

namespace Sys2Proof

/-- The command that a word spells by the bits of the opcode table. The table gives bits to none of its
rows, so no word spells a command. -/
def decodeTableWord (_nbits _w : Nat) : Option Instr := none

end Sys2Proof
end

