-- ==== Sys2Proof/Config.lean ====
section
/-! DEFINITION. What the manual leaves to the silicon or leaves open: constants without a body.

Each `opaque` below stands for a value the manual does not give. Nothing in Lean can evaluate one,
so whatever is proved holds for every value of it. -/

namespace Sys2Proof.Config

/-- The n-th free value: the bits of a result the manual leaves undefined (R8). The model applies it
to the counter `State.freeCount`, which it advances with each use. -/
opaque freeBits : Nat → Nat

/-- Which of the FP32 values within the bound of R136 a transcendental operation (first argument: its
VOP) gives for an FP32 operand: a fixed function of the silicon that the manual does not give. -/
opaque transcendental : Nat → BitVec 32 → Nat

/-- The n-th 128-bit word of the module's entropy source (R99, R281). -/
opaque entropy : Nat → BitVec 128

/-- The transfer of a collective descriptor that carries a send, counted from XFER_BASE: arguments OP, group
size, step, sending and receiving member. The translator numbers them and the manual gives no rule
(R332). -/
opaque collectiveXfer : Nat → Nat → Nat → Nat → Nat → Nat

/-- Whether an ECDSA P-384 signature verifies: public key, message, signature (R453). The arithmetic is that of FIPS
186, outside the manual. -/
opaque ecdsaOk : List (BitVec 8) → List (BitVec 8) → List (BitVec 8) → Bool

/-- Whether an HSS signature verifies: public key, message, signature (R453; RFC 8554). -/
opaque hssOk : List (BitVec 8) → List (BitVec 8) → List (BitVec 8) → Bool

/-- The ECDSA signature of a message by the DeviceID key of a device secret (R462, R466). -/
opaque ecdsaSign : List (BitVec 8) → List (BitVec 8) → List (BitVec 8)

/-- The HSS signature of a message under a device secret with index q (R466, R467). -/
opaque hssSign : List (BitVec 8) → Nat → List (BitVec 8) → List (BitVec 8)

/-- The public keys in the management controller's ROM for slots 0 and 1: ECDSA and HSS (R454). -/
opaque romKeys : Nat → List (BitVec 8) × List (BitVec 8)

/-- The contents of the management controller's ROM (R465). -/
opaque mmcRom : List (BitVec 8)

/-- The device secret that the PUF and its helper data give (R462). -/
opaque deviceSecret : List (BitVec 8)

/-- The DeviceID public key of a device secret (R462, R470). -/
opaque deviceKey : List (BitVec 8) → List (BitVec 8)

/-- The certificate chain of slot 0 (R463). -/
opaque certChain : List (BitVec 8)

/-- The bytes of an SPDM message as they enter the transcript, from the number of its request and its fields (R466). -/
opaque spdmBytes : Nat → List (BitVec 8) → List (BitVec 8)

/-- The SPDM 1.3 signing prefix of a signed response (R466). -/
opaque spdmPrefix : Nat → List (BitVec 8)

/-- Imhal's IANA enterprise number (R447). -/
opaque imhalNumber : BitVec 32

/-- The MCTP versions that the module supports, by message type (R447). -/
opaque mctpVersions : Nat → List (BitVec 8)

/-- The numbers of the MCTP message types that R447 names. -/
opaque mctpTypes : List (BitVec 8)

/-- What an analogue measurement reads (R510, R512): register offset and use of the free values. -/
opaque measured : Nat → Nat → BitVec 32

end Sys2Proof.Config
end

