-- ==== Sys2Proof/Machine/Flags.lean ====
section
/-! DEFINITION. Number formats, rounding, conversion, exact accumulation, poison causes and the
counter-based generator: the arithmetic of chapter Number Formats and Exact Accumulation
(R68 to R102), as pure functions that every unit shares. -/

namespace Sys2Proof.Machine

/-! ### Codes -/

/-- The code of a poison cause (R81). -/
def causeCode : Cause → Nat
  | .none => 0 | .nonfinite => 1 | .check => 2 | .windowHigh => 3
  | .windowLow => 4 | .align => 5 | .count => 6 | .ecc => 7

/-- The poison cause of a 3-bit code (R81). -/
def causeOfCode (c : Nat) : Cause :=
  match c % 8 with
  | 0 => .none | 1 => .nonfinite | 2 => .check | 3 => .windowHigh
  | 4 => .windowLow | 5 => .align | 6 => .count | _ => .ecc

/-- Causes combine to the lowest non-zero code (R81). -/
def causeJoin (a b : Cause) : Cause :=
  if a = .none then b
  else if b = .none then a
  else if causeCode a ≤ causeCode b then a else b

/-- The combination of several causes (R81). -/
def causeJoinAll (cs : List Cause) : Cause := cs.foldl causeJoin .none

/-- The rounding mode of a 3-bit RND field; 5 to 7 are reserved (R87). -/
def rndOfCode (n : Nat) : Option Rnd :=
  match n with
  | 0 => some .rne | 1 => some .rtz | 2 => some .rdn | 3 => some .rup | 4 => some .sr
  | _ => none

/-- The format of a 4-bit code; 0xB to 0xF are reserved (R70). -/
def fmtOfCode (n : Nat) : Option Fmt :=
  match n with
  | 0 => some .e4m3 | 1 => some .e5m2 | 2 => some .mxfp8e4m3 | 3 => some .mxfp8e5m2
  | 4 => some .mxfp4 | 5 => some .int8 | 6 => some .bf16 | 7 => some .fp32
  | 8 => some .int32 | 9 => some .wide | 10 => some .e8m0 | _ => none

/-- Bits of one stored element of a format (R70). -/
def fmtBits : Fmt → Nat
  | .e4m3 | .e5m2 | .mxfp8e4m3 | .mxfp8e5m2 | .int8 | .e8m0 => 8
  | .mxfp4 => 4
  | .bf16 => 16
  | .fp32 | .int32 => 32
  | .wide => 128

/-- Whether a format carries a scale byte for each block of 32 elements (R70, R71). -/
def fmtScaled : Fmt → Bool
  | .mxfp8e4m3 | .mxfp8e5m2 | .mxfp4 => true
  | _ => false

/-! ### Element formats -/

def fp32F : FFmt := ⟨8, 23, 127, .ieee, false⟩
def bf16F : FFmt := ⟨8, 7, 127, .ieee, false⟩
def e5m2F : FFmt := ⟨5, 2, 15, .ieee, true⟩
def e4m3F : FFmt := ⟨4, 3, 7, .oneNaN, true⟩
def e2m1F : FFmt := ⟨2, 1, 1, .normal, true⟩

/-- The exact value of the bits of a floating-point element (R68, R69). -/
def floatVal (f : FFmt) (bits : Nat) : FVal :=
  let m := bits % 2 ^ f.manBits
  let e := (bits / 2 ^ f.manBits) % 2 ^ f.expBits
  let neg := (bits / 2 ^ (f.manBits + f.expBits)) % 2 == 1
  let emin : Int := 1 - (f.bias : Int) - f.manBits
  if e = 2 ^ f.expBits - 1 && f.top == .ieee then
    if m = 0 then .inf neg else .nan
  else if e = 2 ^ f.expBits - 1 && m = 2 ^ f.manBits - 1 && f.top == .oneNaN then .nan
  else if e = 0 then .fin neg m emin
  else .fin neg (2 ^ f.manBits + m) (emin + e - 1)

/-- The exact value of a two's complement integer of `w` bits (R68). -/
def intVal (w : Nat) (bits : Nat) : FVal :=
  let b := bits % 2 ^ w
  if b < 2 ^ (w - 1) then .fin false b 0 else .fin true (2 ^ w - b) 0

/-- The exact value of an E8M0 byte (R68, R523). -/
def e8m0Val (b : Nat) : FVal :=
  if b % 256 = 255 then .nan else .fin false 1 ((b % 256 : Nat) - 127)

/-- Multiply a value by 2^s. -/
def scaleVal (v : FVal) (s : Int) : FVal :=
  match v with
  | .fin n m e => .fin n m (e + s)
  | v => v

/-- The floating-point fields of a format's element, where it has them (R70). -/
def fmtFloat : Fmt → Option FFmt
  | .e4m3 | .mxfp8e4m3 => some e4m3F
  | .e5m2 | .mxfp8e5m2 => some e5m2F
  | .mxfp4 => some e2m1F
  | .bf16 => some bf16F
  | .fp32 => some fp32F
  | _ => none

/-- The exact value of one element, without its block scale (R70). -/
def elemVal (f : Fmt) (bits : Nat) : FVal :=
  match fmtFloat f with
  | some ff => floatVal ff bits
  | none =>
    match f with
    | .int8 => intVal 8 bits
    | .int32 => intVal 32 bits
    | _ => e8m0Val bits

/-- The exact value of one element of a block with scale byte `s`: 0xFF is a NaN block (R71). -/
def blockVal (f : Fmt) (s : Nat) (bits : Nat) : FVal :=
  if fmtScaled f then
    if s % 256 = 255 then .nan else scaleVal (elemVal f bits) ((s % 256 : Nat) - 127)
  else elemVal f bits

/-! ### Rounding and conversion -/

/-- Whether a value `lo + rem / 2^sh` of the last place rounds to `lo + 1` (R87, R88); `r` is the
draw that stochastic rounding takes. -/
def roundsUp (rnd : Rnd) (neg loOdd : Bool) (r rem sh : Nat) : Bool :=
  if rem = 0 then false
  else match rnd with
    | .rne => 2 ^ sh < 2 * rem || (2 ^ sh == 2 * rem && loOdd)
    | .rtz => false
    | .rdn => neg
    | .rup => !neg
    | .sr => decide (2 ^ 32 ≤ r + rem * 2 ^ 32 / 2 ^ sh)

/-- `m / 2^sh` rounded to an integer, and whether the upper neighbour was chosen. -/
def roundShift (rnd : Rnd) (neg : Bool) (r m sh : Nat) : Nat × Bool :=
  let lo := m / 2 ^ sh
  let up := roundsUp rnd neg (lo % 2 == 1) r (m % 2 ^ sh) sh
  (if up then lo + 1 else lo, up)

/-- `m × 2^e` rounded to a multiple of 2^q: the multiple, and whether the upper neighbour was
chosen. -/
def roundAt (rnd : Rnd) (neg : Bool) (r m : Nat) (e q : Int) : Nat × Bool :=
  if q ≤ e then (m * 2 ^ (e - q).toNat, false) else roundShift rnd neg r m (q - e).toNat

/-- The canonical NaN of a format (R69); an element of a NaN block where it has none (R92). -/
def canonNaN (f : FFmt) : Nat :=
  match f.top with
  | .ieee => (2 ^ f.expBits - 1) * 2 ^ f.manBits + 2 ^ (f.manBits - 1)
  | .oneNaN => 2 ^ (f.expBits + f.manBits) - 1
  | .normal => 0

/-- The code of the largest finite magnitude of a format (R68). -/
def maxCode (f : FFmt) : Nat :=
  match f.top with
  | .ieee => (2 ^ f.expBits - 1) * 2 ^ f.manBits - 1
  | .oneNaN => 2 ^ (f.expBits + f.manBits) - 2
  | .normal => 2 ^ (f.expBits + f.manBits) - 1

/-- Whether a finite value above the largest magnitude becomes an infinity (R91). -/
def overflowsToInf (f : FFmt) (rnd : Rnd) (neg up : Bool) : Bool :=
  !f.saturates &&
  match rnd with
  | .rne => true | .rtz => false | .rdn => neg | .rup => !neg | .sr => up

/-- Round a value to a floating-point format (R88 to R91); `r` is the draw of stochastic
rounding. -/
def floatBits (f : FFmt) (rnd : Rnd) (r : Nat) (v : FVal) : Nat :=
  let sign (n : Bool) : Nat := if n then 2 ^ (f.expBits + f.manBits) else 0
  match v with
  | .nan => canonNaN f
  | .inf n => if f.top = .ieee then sign n + (2 ^ f.expBits - 1) * 2 ^ f.manBits else canonNaN f
  | .fin n m e =>
    if m = 0 then sign n
    else
      let emin : Int := 1 - (f.bias : Int) - f.manBits
      let q := max (e + m.log2 - f.manBits) emin
      let (sig, up) := roundAt rnd n r m e q
      -- the code of a magnitude: exponent field times 2^manBits plus mantissa; a carry out of the
      -- mantissa moves into the exponent by itself
      let code := if sig < 2 ^ f.manBits then sig else (q - emin).toNat * 2 ^ f.manBits + sig
      if maxCode f < code then
        if overflowsToInf f rnd n up then sign n + (2 ^ f.expBits - 1) * 2 ^ f.manBits
        else sign n + maxCode f
      else sign n + code

/-- Round a value to a two's complement integer of `w` bits, saturating (R91). -/
def intBits (w : Nat) (rnd : Rnd) (r : Nat) (v : FVal) : Nat :=
  match v with
  | .nan => 0
  | .inf n => if n then 2 ^ (w - 1) else 2 ^ (w - 1) - 1
  | .fin n m e =>
    let k := (roundAt rnd n r m e 0).1
    if n then (if k < 2 ^ (w - 1) then (2 ^ w - k) % 2 ^ w else 2 ^ (w - 1))
    else (if k < 2 ^ (w - 1) then k else 2 ^ (w - 1) - 1)

/-- Convert a value to an E8M0 byte (R523). -/
def e8m0Bits (rnd : Rnd) (r : Nat) (v : FVal) : Nat :=
  match v with
  | .nan => 255
  | .inf _ => 255
  | .fin n m e =>
    if m = 0 then 0
    else if n then 255
    else
      let k : Int := e + m.log2
      if k < -127 then 0
      else if 127 ≤ k then 254
      else
        let b := (k + 127).toNat
        let up := roundsUp rnd false (b % 2 == 1) r (m - 2 ^ m.log2) m.log2
        if up then b + 1 else b

/-- Convert a value to one element of a format (R90, R91, R523). -/
def elemBits (f : Fmt) (rnd : Rnd) (r : Nat) (v : FVal) : Nat :=
  match fmtFloat f with
  | some ff => floatBits ff rnd r v
  | none =>
    match f with
    | .int8 => intBits 8 rnd r v
    | .int32 => intBits 32 rnd r v
    | _ => e8m0Bits rnd r v

/-- The fixed pattern that stands for a poisoned value in a narrow format (R82). -/
def poisonBits (f : Fmt) : Nat :=
  match f with
  | .int8 => 0x80
  | .int32 => 0x80000000
  | .e8m0 => 0xFF
  | f => match fmtFloat f with
    | some ff => canonNaN ff
    | none => 0

/-- The binary exponent floor(log2 |v|) of a non-zero finite value. -/
def valLog2 (v : FVal) : Option Int :=
  match v with
  | .fin _ m e => if m = 0 then none else some (e + m.log2)
  | _ => none

/-- Whether a value is finite. -/
def valFinite : FVal → Bool
  | .fin _ _ _ => true
  | _ => false

/-- The largest binary exponent among the non-zero values of a block. -/
def blockLog2 (vs : List FVal) : Option Int :=
  vs.foldl (fun acc v => match acc, valLog2 v with
    | none, x => x
    | some a, none => some a
    | some a, some b => some (max a b)) none

/-- emax of the element format of an MX conversion (R92 step 3). -/
def mxEmax (f : Fmt) : Int :=
  match f with
  | .mxfp8e5m2 => 15
  | .mxfp4 => 2
  | _ => 8

/-- Convert the 32 values of a block to an MX format (R92): the scale byte and the elements.
Value `i` takes the draw `rs i`. -/
def mxBits (f : Fmt) (rnd : Rnd) (rs : List Nat) (vs : List FVal) : Nat × List Nat :=
  if vs.any (fun v => !valFinite v) then (0xFF, vs.map fun _ => 0)
  else match blockLog2 vs with
    | none => (0x7F, vs.map fun v => elemBits f rnd 0 v)
    | some l =>
      let e := max (-127) (min 127 (l - mxEmax f))
      ((e + 127).toNat,
        (vs.zip (rs ++ List.replicate vs.length 0)).map
          fun p => elemBits f rnd p.2 (scaleVal p.1 (-e)))

/-! ### FP32 and BF16 arithmetic (R93) -/

/-- Negate a value. -/
def valNeg : FVal → FVal
  | .nan => .nan
  | .inf n => .inf (!n)
  | .fin n m e => .fin (!n) m e

/-- The signed integer a finite value is at the grid 2^q, for q at or below its exponent. -/
def valInt (n : Bool) (m : Nat) (e q : Int) : Int :=
  let k : Int := (m * 2 ^ (e - q).toNat : Nat)
  if n then -k else k

/-- The exact sum; the sign of an exact zero follows R89. -/
def valAdd (rnd : Rnd) (a b : FVal) : FVal :=
  match a, b with
  | .nan, _ => .nan
  | _, .nan => .nan
  | .inf x, .inf y => if x = y then .inf x else .nan
  | .inf x, .fin _ _ _ => .inf x
  | .fin _ _ _, .inf y => .inf y
  | .fin n1 m1 e1, .fin n2 m2 e2 =>
    let q := min e1 e2
    let s := valInt n1 m1 e1 q + valInt n2 m2 e2 q
    if s = 0 then .fin (if n1 = n2 then n1 else rnd = .rdn) 0 q
    else .fin (s < 0) s.natAbs q

/-- The exact product. -/
def valMul (a b : FVal) : FVal :=
  match a, b with
  | .nan, _ => .nan
  | _, .nan => .nan
  | .inf x, .inf y => .inf (x != y)
  | .inf x, .fin y m _ => if m = 0 then .nan else .inf (x != y)
  | .fin x m _, .inf y => if m = 0 then .nan else .inf (x != y)
  | .fin x m e, .fin y m' e' => .fin (x != y) (m * m') (e + e')

/-- The order of two values, none where either is NaN. Zeros compare equal. -/
def valCmp (a b : FVal) : Option Ordering :=
  match a, b with
  | .nan, _ => none
  | _, .nan => none
  | .inf x, .inf y => some (if x = y then .eq else if x then .lt else .gt)
  | .inf x, .fin _ _ _ => some (if x then .lt else .gt)
  | .fin _ _ _, .inf y => some (if y then .gt else .lt)
  | .fin n1 m1 e1, .fin n2 m2 e2 =>
    let q := min e1 e2
    some (compare (valInt n1 m1 e1 q) (valInt n2 m2 e2 q))

/-- The sign of a value (of a zero too). -/
def valSign : FVal → Bool
  | .nan => false
  | .inf n => n
  | .fin n _ _ => n

/-- IEEE 754-2019 minimum: NaN wins, −0 orders below +0 (R93). -/
def valMin (a b : FVal) : FVal :=
  match valCmp a b with
  | none => .nan
  | some .lt => a
  | some .gt => b
  | some .eq => if valSign a then a else b

/-- IEEE 754-2019 maximum (R93). -/
def valMax (a b : FVal) : FVal :=
  match valCmp a b with
  | none => .nan
  | some .lt => b
  | some .gt => a
  | some .eq => if valSign a then b else a

/-- The exact value of an FP32 word. -/
def fp32Val (x : BitVec 32) : FVal := floatVal fp32F x.toNat

/-- Round a value to FP32. -/
def fp32Bits (rnd : Rnd) (v : FVal) : BitVec 32 := BitVec.ofNat 32 (floatBits fp32F rnd 0 v)

/-- FP32 addition, correctly rounded (R93). -/
def fp32Add (rnd : Rnd) (a b : BitVec 32) : BitVec 32 :=
  fp32Bits rnd (valAdd rnd (fp32Val a) (fp32Val b))

/-- FP32 multiplication, correctly rounded (R93). -/
def fp32Mul (rnd : Rnd) (a b : BitVec 32) : BitVec 32 :=
  fp32Bits rnd (valMul (fp32Val a) (fp32Val b))

/-! ### The exact accumulator (R74 to R82) -/

/-- The window top 2^79 − 1 (R74). -/
def windowTop : Nat := 2 ^ 79 - 1

/-- A cleared accumulator of window W (R74). -/
def wideClear (w : BitVec 10) : Wide := ⟨0, w, 0, .none⟩

/-- The bits of a wide word (R78). -/
def wideBits (x : Wide) : BitVec 128 :=
  BitVec.ofNat 128 (x.a.toNat + x.w.toNat * 2 ^ 96 + causeCode x.cause * 2 ^ 106 + x.terms.toNat * 2 ^ 109)

/-- The wide word of 128 bits; bits 127:125 are reserved (R78). -/
def wideOfBits (b : BitVec 128) : Wide :=
  ⟨b.extractLsb' 0 96, b.extractLsb' 96 10, b.extractLsb' 109 16,
    causeOfCode (b.extractLsb' 106 3).toNat⟩

/-- An aligned term and the cause it gives (R75), from the signed product of the significands and
d = La + sa + Lb + sb − W. -/
def alignTerm (prod : Int) (d : Int) : Int × Cause :=
  let (p, low) : Int × Bool :=
    if 0 ≤ d then (prod * 2 ^ d.toNat, false)
    else (prod.tdiv (2 ^ (-d).toNat), prod % 2 ^ (-d).toNat ≠ 0)
  if windowTop < p.natAbs then ((if p < 0 then -(windowTop : Int) else windowTop), .windowHigh)
  else (p, if low then .windowLow else .none)

/-- Add one term to an accumulator (R76): the accumulator, and the cause the term newly sets. -/
def accAddTerm (acc : Wide) (p : Int) (c : Cause) : Wide × Cause :=
  if acc.terms = 65535 then ({ acc with cause := causeJoin acc.cause .count }, .count)
  else ({ acc with a := acc.a + BitVec.ofInt 96 p, terms := acc.terms + 1,
                   cause := causeJoin acc.cause c }, c)

/-- The check of a drained or converted sum (R77): the saturated sum, and the cause newly set. -/
def drainCheck (x : Wide) : Wide × Cause :=
  if windowTop < x.a.toInt.natAbs then
    ({ x with a := BitVec.ofInt 96 (if x.a.toInt < 0 then -(windowTop : Int) else windowTop),
              cause := causeJoin x.cause .windowHigh }, .windowHigh)
  else (x, .none)

/-- The value A × 2^W of an accumulator; A = 0 is +0 (R74, R82, R89). -/
def wideVal (x : Wide) : FVal := .fin (x.a.toInt < 0) x.a.toInt.natAbs x.w.toInt

/-- Whether an operand of a wide-word addition is beyond what its terms can sum to (R79 rule 4). -/
def wideTooBig (x : Wide) : Bool := decide (max x.terms.toNat 1 * windowTop < x.a.toInt.natAbs)

/-- Wide-word addition (R79): the result, and the distinct causes it newly sets (R82). -/
def wideAdd (x y : Wide) : Wide × List Cause :=
  let high := wideTooBig x || wideTooBig y
  let differ := x.w ≠ y.w
  let total := x.terms.toNat + y.terms.toNat
  let tooMany := 65535 < total
  let newly := (if high then [Cause.windowHigh] else []) ++ (if differ then [Cause.align] else [])
    ++ (if tooMany then [Cause.count] else [])
  let (a, w) := if differ then (if x.w.toInt < y.w.toInt then (x.a, x.w) else (y.a, y.w))
    else (x.a + y.a, x.w)
  (⟨a, w, BitVec.ofNat 16 (min total 65535), causeJoinAll ([x.cause, y.cause] ++ newly)⟩, newly)

/-- Convert a drained sum to one narrow element: the poisoned pattern of R82, or R89 to R91 after
the check of R77. -/
def wideToElem (f : Fmt) (rnd : Rnd) (r : Nat) (x : Wide) : Nat :=
  let y := (drainCheck x).1
  if y.cause = .none then elemBits f rnd r (wideVal y) else poisonBits f

/-! ### BF16 passes (R83) -/

/-- The product of two BF16 elements rounded to FP32 with RNE (R83). -/
def bf16Prod (a b : FVal) : BitVec 32 := fp32Bits .rne (valMul a b)

/-- Partials combine left to right, each step an FP32 addition under RNE (R83). -/
def bf16Combine (ps : List (BitVec 32)) : BitVec 32 :=
  match ps with
  | [] => 0
  | p :: t => t.foldl (fun acc x => fp32Add .rne acc x) p

/-! ### The counter-based generator (R94, R95) -/

/-- One round of the generator block. -/
def rngRound (k : Nat → BitVec 32) (x : BitVec 32 × BitVec 32 × BitVec 32 × BitVec 32) (i : Nat) :
    BitVec 32 × BitVec 32 × BitVec 32 × BitVec 32 :=
  let (x0, x1, x2, x3) := x
  let x0 := x0 + x1 + k (i % 4)
  let x3 := (x3 ^^^ x0).rotateLeft 16
  let x2 := x2 + x3 + BitVec.ofNat 32 i
  let x1 := (x1 ^^^ x2).rotateLeft 12
  let x0 := x0 + x1
  let x3 := (x3 ^^^ x0).rotateLeft 8
  let x2 := x2 + x3
  let x1 := (x1 ^^^ x2).rotateLeft 7
  (x0, x1, x2, x3)

/-- Word `w` of a 128-bit key (R94). -/
def keyWord (key : BitVec 128) (w : Nat) : BitVec 32 := key.extractLsb' (32 * w) 32

/-- A draw at position `p` of stream `id` under `key` (R94). -/
def rngDraw (key : BitVec 128) (id : BitVec 32) (p : BitVec 64) : BitVec 32 :=
  let b := p >>> 2
  let k := keyWord key
  let x := (List.range 10).foldl (rngRound k)
    (b.extractLsb' 0 32, b.extractLsb' 32 32, id, 0x6A4E5D21)
  match p.toNat % 4 with
  | 0 => x.1 ^^^ k 0
  | 1 => x.2.1 ^^^ k 1
  | 2 => x.2.2.1 ^^^ k 2
  | _ => x.2.2.2 ^^^ k 3

/-- The uniform FP32 value in [0, 1) of a draw (R95). -/
def rngUnit (d : BitVec 32) : FVal := .fin false (d.toNat / 256) (-24)

/-- The uniform FP32 value in (0, 1] of a draw (R95). -/
def rngUnitPos (d : BitVec 32) : FVal := .fin false (d.toNat / 256 + 1) (-24)

end Sys2Proof.Machine
end

