-- ==== Sys2Proof/Machine/Map.lean ====
section
/-! DEFINITION. Sparse maps: the one way State keeps registers, tiles, memories and tables.

A map is read with a default for the keys it does not list. `mapSet` keeps the canonical form:
keys strictly rising, and no listed value equal to the default, so that equal maps are equal data. -/

namespace Sys2Proof.Machine

/-- The value a map lists at key `k`, if it lists one. -/
def mapFind {α : Type} (m : SMap α) (k : Nat) : Option α :=
  match m with
  | [] => none
  | (k', v) :: t => if k' = k then some v else mapFind t k

/-- The value at key `k`: the listed one, or the default `d`. -/
def mapGet {α : Type} (d : α) (m : SMap α) (k : Nat) : α :=
  (mapFind m k).getD d

/-- List `v` at key `k`, in the place the order of keys gives it. -/
def mapPut {α : Type} (m : SMap α) (k : Nat) (v : α) : SMap α :=
  match m with
  | [] => [(k, v)]
  | (k', v') :: t =>
    if k < k' then (k, v) :: (k', v') :: t
    else if k' = k then (k, v) :: t
    else (k', v') :: mapPut t k v

/-- Drop what the map lists at key `k`. -/
def mapDel {α : Type} (m : SMap α) (k : Nat) : SMap α :=
  m.filter (fun p => p.1 != k)

/-- Write `v` at key `k` of a map whose default is `d`. -/
def mapSet {α : Type} [DecidableEq α] (d : α) (m : SMap α) (k : Nat) (v : α) : SMap α :=
  if v = d then mapDel m k else mapPut m k v

/-- Drop every entry whose key satisfies `p`: those places read as the default again. -/
def mapClear {α : Type} (m : SMap α) (p : Nat → Bool) : SMap α :=
  m.filter (fun e => !p e.1)

/-- Change every listed value of a map whose default is `d`. -/
def mapMap {α : Type} [DecidableEq α] (d : α) (m : SMap α) (f : α → α) : SMap α :=
  (m.map fun e => (e.1, f e.2)).filter fun e => decide (e.2 ≠ d)

/-- The keys of a map rise strictly. -/
def mapSorted {α : Type} (m : SMap α) : Bool :=
  match m with
  | [] => true
  | [_] => true
  | (k, _) :: (k', v') :: t => k < k' && mapSorted ((k', v') :: t)

/-- The canonical form of a map with default `d`. -/
def mapWf {α : Type} [DecidableEq α] (d : α) (m : SMap α) : Bool :=
  mapSorted m && m.all (fun e => e.2 != d)

end Sys2Proof.Machine
end

