-- ==== Sys2Proof/Machine/RegMap.lean ====
section
/-! DEFINITION. The register map (R33, R521): the offset of every register of space 3, and for each
its access code, its reset value and the bits a write of it can change (R14, R15).

One table per window of R33; a table row is a group of registers.
The reset value of a register for which the manual names a source and no number is 0 (DESIGN CHOICE,
log 2). -/

namespace Sys2Proof.Machine

/-- The access codes of R14. -/
inductive Access where
  | rw | ro | wo | w1c | rc | sh
deriving DecidableEq, Repr

/-- A group of registers of one window: offsets `base` plus a multiple of each stride of `dims` below
its count, the larger strides first. -/
structure RegGroup where
  base : Nat
  dims : List (Nat × Nat)
  access : Access
  reset : BitVec 32
  /-- bits a write can set (RW) or clear (W1C) -/
  mask : BitVec 32
  /-- the lower half of a 64-bit quantity, whose upper half is the next register (R34) -/
  lo : Bool
deriving DecidableEq, Repr

/-- Base of the window of logical tile `t` (R33). -/
def tileBase (t : Nat) : Nat := 0x40000000 + 0x100000 * t
/-- Base of the window of region `n` (R33, R366). -/
def regionBase (n : Nat) : Nat := 0x01000000 + 0x10000 * n
/-- Base of the window of engine `n` (R33, R262). -/
def agpBase (n : Nat) : Nat := 0x000D0000 + 0x1000 * n
/-- Base of the window of HBM controller `s` (R33, R263). -/
def hbmBase (s : Nat) : Nat := 0x00100000 + 0x10000 * s
/-- Base of the window of DDR controller `k` (R33, R264). -/
def ddrBase (k : Nat) : Nat := 0x00180000 + 0x10000 * k

/-! ### Offsets of the FRM window -/

/-- R66: start and stop of arming. -/
def FRM_CTRL : Nat := 0x0
/-- R66: state of the frame controller. -/
def FRM_STATE : Nat := 0x4
/-- R66: global mode bits (R65). -/
def FRM_MODE : Nat := 0x8
/-- R66: frame period in ns. -/
def FRM_PERIOD : Nat := 0xC
/-- R66: first entry of the sequence walk. -/
def FRM_SEQ_START : Nat := 0x10
/-- R66: ring sampling interval when idle, in ns. -/
def FRM_SUBTICK : Nat := 0x14
/-- R66: commit request (R63). -/
def FRM_COMMIT : Nat := 0x18
/-- R66: outcome of the last commit request. -/
def FRM_COMMIT_STATUS : Nat := 0x1C
/-- R66: register offset of the first violation. -/
def FRM_COMMIT_ERR : Nat := 0x20
/-- R66: tick count for AT_COUNT, bits 31:0. -/
def FRM_COMMIT_AT_LO : Nat := 0x24
/-- R66: tick count for AT_COUNT, bits 63:32. -/
def FRM_COMMIT_AT_HI : Nat := 0x28
/-- R66: tick count at which arming starts, bits 31:0. -/
def FRM_START_TICK_LO : Nat := 0x2C
/-- R66: tick count at which arming starts, bits 63:32. -/
def FRM_START_TICK_HI : Nat := 0x30
/-- R66: current tick count, bits 31:0. -/
def FRM_TICK_LO : Nat := 0x34
/-- R66: current tick count, bits 63:32. -/
def FRM_TICK_HI : Nat := 0x38
/-- R66: current sequence entry and frames remaining. -/
def FRM_SEQ_POS : Nat := 0x3C
/-- R66: event flags. -/
def FRM_STATUS : Nat := 0x40
/-- R66: code of the last arming refusal. -/
def FRM_ARM_CODE : Nat := 0x44
/-- R66: slack of the last closed frame, ns. -/
def FRM_SLACK_LAST : Nat := 0x48
/-- R66: lowest slack since last read, ns. -/
def FRM_SLACK_MIN : Nat := 0x4C
/-- R66: stretch charge of the critical region, ns. -/
def FRM_CHG_STRETCH : Nat := 0x50
/-- R66: hold charge of the critical region, ns. -/
def FRM_CHG_HOLD : Nat := 0x54
/-- R66: throttle charge of the critical region, ns. -/
def FRM_CHG_THROTTLE : Nat := 0x58
/-- R66: critical region of the last closed frame. -/
def FRM_CRIT_REGION : Nat := 0x5C
/-- R66: overruns since last read. -/
def FRM_OVR_COUNT : Nat := 0x60
/-- R66: ticks allowed in holdover (R47). -/
def FRM_HOLDOVER_LIMIT : Nat := 0x64
/-- R66: sequence table entry n. -/
def FRM_SEQ (n : Nat) : Nat := 0x100 + 0x4 * n
/-- R66: declared cycles C. -/
def FRM_PROG_CYCLES (p : Nat) : Nat := 0x1000 + 0x40 * p
/-- R66: slack reserve R in cycles. -/
def FRM_PROG_RESERVE (p : Nat) : Nat := 0x1004 + 0x40 * p
/-- R66: f_floor, flags, validity. -/
def FRM_PROG_CFG (p : Nat) : Nat := 0x1008 + 0x40 * p
/-- R66: entry bundle address. -/
def FRM_PROG_ENTRY (p : Nat) : Nat := 0x100C + 0x40 * p
/-- R66: active-tile mask; word w bit b is logical tile 32w + b. -/
def FRM_MASK (p w : Nat) : Nat := 0x8000 + 0x80 * p + 0x4 * w
/-- R66: used-tile mask, same layout. -/
def FRM_USED (p w : Nat) : Nat := 0xA000 + 0x80 * p + 0x4 * w
/-- R421: program slots 0 to 31 that start batches. -/
def FRM_WBATCH_LO : Nat := 0xC000
/-- R421: program slots 32 to 63. -/
def FRM_WBATCH_HI : Nat := 0xC004
/-- R421: batch count, bits 31:0. -/
def FRM_WBATCH_COUNT_LO : Nat := 0xC008
/-- R421: bits 63:32. -/
def FRM_WBATCH_COUNT_HI : Nat := 0xC00C
/-- R421: releases and late requests. -/
def FRM_WEVENT : Nat := 0xC010
/-- R421: A_j, bits 31:0. -/
def FRM_WPAIR_A_LO (j : Nat) : Nat := 0xC100 + 0x20 * j
/-- R421: A_j, bits 46:32, and its space. -/
def FRM_WPAIR_A_HI (j : Nat) : Nat := 0xC104 + 0x20 * j
/-- R421: B_j, bits 31:0. -/
def FRM_WPAIR_B_LO (j : Nat) : Nat := 0xC108 + 0x20 * j
/-- R421: B_j, bits 46:32, and its space. -/
def FRM_WPAIR_B_HI (j : Nat) : Nat := 0xC10C + 0x20 * j
/-- R421: SIZE in 64 KiB units; 0 disables. -/
def FRM_WPAIR_SIZE (j : Nat) : Nat := 0xC110 + 0x20 * j
/-- R421: switch request (R415). -/
def FRM_WPAIR_SWITCH (j : Nat) : Nat := 0xC114 + 0x20 * j
/-- R421: first batch of the new copy, bits 31:0. -/
def FRM_WPAIR_FROM_LO (j : Nat) : Nat := 0xC118 + 0x20 * j
/-- R421: bits 63:32. -/
def FRM_WPAIR_FROM_HI (j : Nat) : Nat := 0xC11C + 0x20 * j
/-- R421: latch and use of pair j. -/
def FRM_WPAIR_STATUS (j : Nat) : Nat := 0xC200 + 0x4 * j

/-! ### Offsets of the CLK window -/

/-- R364: policy mode and fixed frequency. -/
def CLK_DVFS_CTRL : Nat := 0x10000
/-- R364: target slack margin, ns. -/
def CLK_DVFS_MARGIN : Nat := 0x10004
/-- R364: host ceiling, MHz. -/
def CLK_FMAX : Nat := 0x10008
/-- R364: rise and fall limits per tick. -/
def CLK_DVFS_STEP : Nat := 0x1000C
/-- R364: frequency of the current frame and F_VOLT. -/
def CLK_FREQ : Nat := 0x10010
/-- R364: reached and target VCORE. -/
def CLK_VCORE : Nat := 0x10014
/-- R364: crossing margin, ns (R353). -/
def CLK_XMARGIN : Nat := 0x10018
/-- R364: droop threshold and hold limit. -/
def CLK_DROOP_CFG : Nat := 0x1001C
/-- R364: throttle thresholds and drop. -/
def CLK_THROT_CFG : Nat := 0x10020
/-- R364: throttle level and hottest region. -/
def CLK_THROT_STATUS : Nat := 0x10024
/-- R364: ns run throttled since last read. -/
def CLK_THROT_NS : Nat := 0x10028
/-- R364: summary of region events. -/
def CLK_EVENT : Nat := 0x1002C
/-- R364: crossing calibration result. -/
def CLK_XCAL : Nat := 0x10030
/-- R364: VCORE required at 1,600 + 25k MHz. -/
def CLK_VF (k : Nat) : Nat := 0x10100 + 0x4 * k

/-! ### Offsets of the PWR window -/

/-- R510: rails in regulation. -/
def PWR_STATUS : Nat := 0x20000
/-- R510: P52V, mV. -/
def PWR_IN_MV : Nat := 0x20004
/-- R510: P52V current, units of 10 mA. -/
def PWR_IN_CA : Nat := 0x20008
/-- R510: input power, W, 1 ms average. -/
def PWR_IN_W : Nat := 0x2000C
/-- R510: input power, W, 1 s average. -/
def PWR_AVG_W : Nat := 0x20010
/-- R510: highest 1 ms average since last read, W. -/
def PWR_PEAK_W : Nat := 0x20014
/-- R510: energy since main power-good, J, bits 31:0. -/
def PWR_ENERGY_LO : Nat := 0x20018
/-- R510: the same, bits 63:32. -/
def PWR_ENERGY_HI : Nat := 0x2001C
/-- R510: last trip code. -/
def PWR_TRIP_LAST : Nat := 0x20020
/-- R510: power events. -/
def PWR_EVENT : Nat := 0x20024
/-- R510: voltage of rail k of R495, mV. -/
def PWR_RAIL (k : Nat) : Nat := 0x20100 + 0x4 * k

/-! ### Offsets of the SYN window -/

/-- R285: value of device semaphore n. -/
def SYN_DSEM (n : Nat) : Nat := 0x30000 + 0x4 * n
/-- R285: signal a device semaphore. -/
def SYN_DSIG : Nat := 0x30400
/-- R285: device semaphore events. -/
def SYN_DEVENT : Nat := 0x30404
/-- R285: last saturated device semaphore. -/
def SYN_DSAT : Nat := 0x30408

/-! ### Offsets of the MSG window -/

/-- R285: module epoch (R271). -/
def MSG_MOD_EPOCH : Nat := 0x40000
/-- R285: dropped local signals since last read (R272). -/
def MSG_SIG_DROP : Nat := 0x40004
/-- R285: answers with code c given by this module since last read. -/
def MSG_NACK_SENT (c : Nat) : Nat := 0x40010 + 0x4 * c

/-! ### Offsets of the FAB window -/

/-- R320: flock and member. -/
def FAB_IDENT : Nat := 0x50000
/-- R320: forwarding. -/
def FAB_CTRL : Nat := 0x50004
/-- R320: link and route summary. -/
def FAB_STATUS : Nat := 0x50008
/-- R320: flocks in the hall. -/
def FAB_FLOCKS : Nat := 0x5000C
/-- R320: ranks in the rank table. -/
def FAB_RANKS : Nat := 0x50010
/-- R320: own rank. -/
def FAB_OWN_RANK : Nat := 0x50014
/-- R320: grace for scheduled transfers, ns. -/
def FAB_GRACE : Nat := 0x50018
/-- R320: best-effort timeout, µs. -/
def FAB_BE_TIMEOUT : Nat := 0x5001C
/-- R320: return every transfer to its primary at the next tick. -/
def FAB_TWIN_CLEAR : Nat := 0x50020
/-- R320: transfers on their twin route. -/
def FAB_TWIN_COUNT : Nat := 0x50024
/-- R320: last transfer switched to its twin. -/
def FAB_TWIN_LAST : Nat := 0x50028
/-- R320: fabric events. -/
def FAB_EVENT : Nat := 0x5002C
/-- R320: packets discarded since last read. -/
def FAB_DISCARD : Nat := 0x50030
/-- R320: scheduled timeouts since last read. -/
def FAB_TIMEOUTS : Nat := 0x50034
/-- R320: route notices received since last read. -/
def FAB_NOTICES : Nat := 0x50038
/-- R320: exclusion set entry n. -/
def FAB_EXCL (n : Nat) : Nat := 0x50100 + 0x4 * n
/-- R320: link configuration. -/
def FAB_LINK_CFG (l : Nat) : Nat := 0x51000 + 0x20 * l
/-- R320: link reset. -/
def FAB_LINK_CTRL (l : Nat) : Nat := 0x51004 + 0x20 * l
/-- R320: state, width and lanes. -/
def FAB_LINK_STATUS (l : Nat) : Nat := 0x51008 + 0x20 * l
/-- R320: identity presented by the peer. -/
def FAB_LINK_PEER (l : Nat) : Nat := 0x5100C + 0x20 * l
/-- R320: replay round trip. -/
def FAB_LINK_RTT (l : Nat) : Nat := 0x51010 + 0x20 * l
/-- R320: corrected FEC symbols since last read. -/
def FAB_LINK_FEC_CORR (l : Nat) : Nat := 0x51014 + 0x20 * l
/-- R320: replays since last read. -/
def FAB_LINK_RETRY (l : Nat) : Nat := 0x51018 + 0x20 * l
/-- R320: transitions to DOWN since last read. -/
def FAB_LINK_DOWNS (l : Nat) : Nat := 0x5101C + 0x20 * l
/-- R320: rank table entry r. -/
def FAB_RANK (r : Nat) : Nat := 0x54000 + 0x4 * r
/-- R345: BASE, bits 31:0. -/
def FAB_WIN_BASE_LO (w : Nat) : Nat := 0x58000 + 0x20 * w
/-- R345: BASE, bits 46:32, and SPACE. -/
def FAB_WIN_BASE_HI (w : Nat) : Nat := 0x58004 + 0x20 * w
/-- R345: SIZE, bits 31:0. -/
def FAB_WIN_SIZE_LO (w : Nat) : Nat := 0x58008 + 0x20 * w
/-- R345: SIZE, bits 46:32. -/
def FAB_WIN_SIZE_HI (w : Nat) : Nat := 0x5800C + 0x20 * w
/-- R345: permitted rank range. -/
def FAB_WIN_RANKS (w : Nat) : Nat := 0x58010 + 0x20 * w
/-- R345: rights, notify action and epoch. -/
def FAB_WIN_CFG (w : Nat) : Nat := 0x58014 + 0x20 * w
/-- R345: notify target. -/
def FAB_WIN_NOTIFY (w : Nat) : Nat := 0x58018 + 0x20 * w
/-- R345: scheduled entries in use. -/
def FAB_TID_SCHED : Nat := 0x58800
/-- R345: best-effort entries in use. -/
def FAB_TID_BE : Nat := 0x58804
/-- R345: requests that waited for an entry since last read. -/
def FAB_TID_WAIT : Nat := 0x58808
/-- R345: remote accesses refused under R323 since last read. -/
def FAB_WIN_DENY : Nat := 0x5880C
/-- R345: last refused access. -/
def FAB_WIN_DENY_LAST : Nat := 0x58810
/-- R345: refused notify messages since last read. -/
def FAB_NOTIFY_NACK : Nat := 0x58814
/-- R490: stage, role and hops. -/
def FAB_HALL_STATUS : Nat := 0x50200
/-- R490: re-election (R479). -/
def FAB_HALL_CTRL : Nat := 0x50204
/-- R490: tick events. -/
def FAB_HALL_EVENT : Nat := 0x50208
/-- R490: members present (R472). -/
def FAB_FLOCK_PRESENT : Nat := 0x5020C
/-- R490: bellwether followed. -/
def FAB_BELL : Nat := 0x50210
/-- R490: its serial, bits 31:0. -/
def FAB_BELL_SERIAL_LO : Nat := 0x50214
/-- R490: its serial, bits 63:32. -/
def FAB_BELL_SERIAL_HI : Nat := 0x50218
/-- R490: deputy. -/
def FAB_DEPUTY : Nat := 0x5021C
/-- R490: last tick correction. -/
def FAB_TICK_ERR : Nat := 0x50220
/-- R490: calibrated delay of link l. -/
def FAB_TDLY (l : Nat) : Nat := 0x50300 + 0x4 * l

/-! ### Offsets of the COL window -/

/-- R346: slices busy. -/
def COL_STATUS : Nat := 0x60000
/-- R346: engine events. -/
def COL_EVENT : Nat := 0x60004
/-- R346: COL_SHORT events since last read. -/
def COL_SHORT_COUNT : Nat := 0x60008
/-- R346: last missing contribution. -/
def COL_SHORT_LAST : Nat := 0x6000C
/-- R346: descriptors completed since last read. -/
def COL_DONE_COUNT : Nat := 0x60010
/-- R346: descriptor d, word w. -/
def COL_DESC (d w : Nat) : Nat := 0x61000 + 0x40 * d + 0x4 * w
/-- R419: shadow descriptor s, word w. -/
def COL_SHD (s w : Nat) : Nat := 0x62000 + 0x20 * s + 0x4 * w
/-- R419: newest complete area of s. -/
def COL_SHD_STATE (s : Nat) : Nat := 0x62800 + 0x4 * s
/-- R419: shadow events. -/
def COL_SHD_EVENT : Nat := 0x62900
/-- R419: last incomplete shadow. -/
def COL_SHD_LAST : Nat := 0x62904

/-! ### Offsets of the HLK window -/

/-- R444: ownership token. -/
def HLK_OWN : Nat := 0x70000
/-- R444: claim or release (R430). -/
def HLK_CLAIM : Nat := 0x70004
/-- R444: lease, µs; 0 disables. -/
def HLK_LEASE_US : Nat := 0x70008
/-- R444: lease renewal. -/
def HLK_RENEW : Nat := 0x7000C
/-- R444: link-down time before takeover, µs. -/
def HLK_TAKEOVER_US : Nat := 0x70010
/-- R444: last ownership change. -/
def HLK_OWN_LAST : Nat := 0x70014
/-- R444: ring address, bits 31:0. -/
def HLK_RING_BASE_LO : Nat := 0x70020
/-- R444: ring address, bits 63:32. -/
def HLK_RING_BASE_HI : Nat := 0x70024
/-- R444: descriptors. -/
def HLK_RING_SIZE : Nat := 0x70028
/-- R444: enable and disable. -/
def HLK_RING_CTRL : Nat := 0x7002C
/-- R444: ring state and last code. -/
def HLK_RING_STATUS : Nat := 0x70030
/-- R444: CONS. -/
def HLK_RING_CONS : Nat := 0x70034
/-- R444: host address, bits 31:0. -/
def HLK_CPL_BASE_LO : Nat := 0x70040
/-- R444: host address, bits 63:32. -/
def HLK_CPL_BASE_HI : Nat := 0x70044
/-- R444: records. -/
def HLK_CPL_SIZE : Nat := 0x70048
/-- R444: enable and disable. -/
def HLK_CPL_CTRL : Nat := 0x7004C
/-- R444: host consumer SEQNO. -/
def HLK_CPL_CONS : Nat := 0x70050
/-- R444: next SEQNO. -/
def HLK_CPL_SEQ : Nat := 0x70054
/-- R444: records lost since last read. -/
def HLK_CPL_LOST : Nat := 0x70058
/-- R444: completion ring state. -/
def HLK_CPL_STATUS : Nat := 0x7005C
/-- R444: host link events. -/
def HLK_EVENT : Nat := 0x70060
/-- R444: port configuration. -/
def HLK_PORT_CFG (p : Nat) : Nat := 0x70100 + 0x20 * p
/-- R444: port reset. -/
def HLK_PORT_CTRL (p : Nat) : Nat := 0x70104 + 0x20 * p
/-- R444: state, width and lanes. -/
def HLK_PORT_STATUS (p : Nat) : Nat := 0x70108 + 0x20 * p
/-- R444: corrected FEC symbols since last read. -/
def HLK_PORT_FEC_CORR (p : Nat) : Nat := 0x7010C + 0x20 * p
/-- R444: replays since last read. -/
def HLK_PORT_RETRY (p : Nat) : Nat := 0x70110 + 0x20 * p
/-- R444: transitions to DOWN since last read. -/
def HLK_PORT_DOWNS (p : Nat) : Nat := 0x70114 + 0x20 * p

/-! ### Offsets of the DMC window -/

/-- R30: stepping, grade and unit counts. -/
def DMC_IDENT : Nat := 0x80000
/-- R30: used physical rows 0 to 31. -/
def DMC_ROWMAP_LO : Nat := 0x80004
/-- R30: used physical rows 32 to 35. -/
def DMC_ROWMAP_HI : Nat := 0x80008
/-- R230: fabric address of the image, bits 31:0. -/
def DMC_LOAD_ADDR_LO : Nat := 0x80100
/-- R230: fabric address of the image, bits 63:32. -/
def DMC_LOAD_ADDR_HI : Nat := 0x80104
/-- R230: image length in bytes. -/
def DMC_LOAD_LEN : Nat := 0x80108
/-- R230: start and abort of a load. -/
def DMC_LOAD_CTRL : Nat := 0x8010C
/-- R230: state, result and last rejected start. -/
def DMC_LOAD_STATUS : Nat := 0x80110
/-- R230: detail of the result (R224). -/
def DMC_LOAD_DETAIL : Nat := 0x80114
/-- R230: image bytes read in the current pass. -/
def DMC_LOAD_PROGRESS : Nat := 0x80118
/-- R230: bundle range and latency table of slot p. -/
def DMC_SLOT (p : Nat) : Nat := 0x80200 + 0x4 * p
/-- R287: context address, bits 31:0. -/
def DMC_CTX_ADDR_LO : Nat := 0x80300
/-- R287: context address, bits 63:32. -/
def DMC_CTX_ADDR_HI : Nat := 0x80304
/-- R287: context length in bytes. -/
def DMC_CTX_LEN : Nat := 0x80308
/-- R287: context operation. -/
def DMC_CTX_CTRL : Nat := 0x8030C
/-- R287: state and result. -/
def DMC_CTX_STATUS : Nat := 0x80310
/-- R287: detail of the result (R283). -/
def DMC_CTX_DETAIL : Nat := 0x80314
/-- R287: dump address, bits 31:0. -/
def DMC_DUMP_ADDR_LO : Nat := 0x80320
/-- R287: dump address, bits 63:32. -/
def DMC_DUMP_ADDR_HI : Nat := 0x80324
/-- R287: dump request. -/
def DMC_DUMP_CTRL : Nat := 0x80328
/-- R287: state and result. -/
def DMC_DUMP_STATUS : Nat := 0x8032C
/-- R287: page shown in DMC_DUMP_BUF. -/
def DMC_DUMP_PAGE : Nat := 0x80330
/-- R287: 32 KiB page of the buffered dump. -/
def DMC_DUMP_BUF (w : Nat) : Nat := 0x88000 + 0x4 * w
/-- R420: fabric address of area 0, bits 31:0. -/
def DMC_SHR_SRC0_LO : Nat := 0x80400
/-- R420: bits 63:32. -/
def DMC_SHR_SRC0_HI : Nat := 0x80404
/-- R420: fabric address of area 1, bits 31:0. -/
def DMC_SHR_SRC1_LO : Nat := 0x80408
/-- R420: bits 63:32. -/
def DMC_SHR_SRC1_HI : Nat := 0x8040C
/-- R420: local destination, bits 31:0. -/
def DMC_SHR_DST_LO : Nat := 0x80410
/-- R420: bits 63:32. -/
def DMC_SHR_DST_HI : Nat := 0x80414
/-- R420: largest LEN accepted, bytes. -/
def DMC_SHR_MAXLEN : Nat := 0x80418
/-- R420: start. -/
def DMC_SHR_CTRL : Nat := 0x8041C
/-- R420: state, result and area. -/
def DMC_SHR_STATUS : Nat := 0x80420
/-- R420: detail of R408. -/
def DMC_SHR_DETAIL : Nat := 0x80424
/-- R420: TICK of the record used, bits 31:0. -/
def DMC_SHR_TICK_LO : Nat := 0x80428
/-- R420: bits 63:32. -/
def DMC_SHR_TICK_HI : Nat := 0x8042C
/-- R468: boot stage and result of the device management core. -/
def DMC_BOOT : Nat := 0x80010
/-- R468: SVN of the running DEV_FW. -/
def DMC_BOOT_SVN : Nat := 0x80014
/-- R489: warm or job reset request. -/
def DMC_RESET : Nat := 0x80020
/-- R489: reset in progress and last kind. -/
def DMC_RESET_STATUS : Nat := 0x80024
/-- R489: tile-row reset request, by logical row. -/
def DMC_ROWRST : Nat := 0x80028
/-- R489: logical rows in reset. -/
def DMC_ROWRST_STATUS : Nat := 0x8002C
/-- R489: physical rows 0 to 31 that failed self-test. -/
def DMC_ROWTEST_LO : Nat := 0x80030
/-- R489: physical rows 32 to 35 that failed self-test. -/
def DMC_ROWTEST_HI : Nat := 0x80034
/-- R489: conditions that forbid arming (R482). -/
def DMC_BRING : Nat := 0x80038

/-! ### Offsets of the MMC window -/

/-- R469: controller and power state. -/
def MMC_STATE : Nat := 0x90000
/-- R469: side-band actions (R452). -/
def MMC_CTRL : Nat := 0x90004
/-- R469: flock and member. -/
def MMC_SLOT : Nat := 0x90008
/-- R469: side-band address and endpoint ID. -/
def MMC_SB : Nat := 0x9000C
/-- R469: watchdog resets since cold power-on, saturating. -/
def MMC_WDT_RESETS : Nat := 0x90010
/-- R469: management events. -/
def MMC_EVENT : Nat := 0x90014
/-- R469: result of the last record commit. -/
def MMC_CFG_STATUS : Nat := 0x90018
/-- R469: effective site settings. -/
def MMC_SITE : Nat := 0x9001C
/-- R469: effective row exclusion, rows 0 to 31. -/
def MMC_ROW_EXCL_LO : Nat := 0x90020
/-- R469: effective row exclusion, rows 32 to 35. -/
def MMC_ROW_EXCL_HI : Nat := 0x90024

/-! ### Offsets of the SEC window -/

/-- R470: secure element, PUF and LMS state. -/
def SEC_STATUS : Nat := 0xA0000
/-- R470: MMC_FW counter. -/
def SEC_CTR_MMC_FW : Nat := 0xA0004
/-- R470: DEV_FW counter. -/
def SEC_CTR_DEV_FW : Nat := 0xA0008
/-- R470: CFG_FACTORY counter. -/
def SEC_CTR_CFG_FACTORY : Nat := 0xA000C
/-- R470: CFG_SITE counter. -/
def SEC_CTR_CFG_SITE : Nat := 0xA0010
/-- R470: next HSS index q. -/
def SEC_LMS_NEXT : Nat := 0xA0014
/-- R470: signed responses since last read. -/
def SEC_ATTEST_COUNT : Nat := 0xA0018
/-- R470: SHA-384 of the DeviceID public key, bits 32w + 31 to 32w. -/
def SEC_DEVID_HASH (w : Nat) : Nat := 0xA0020 + 0x4 * w

/-! ### Offsets of the GOS window -/

/-- R395: self-test request. -/
def GOS_CTRL : Nat := 0xB0000
/-- R395: safe-state policy. -/
def GOS_CFG : Nat := 0xB0004
/-- R395: safe state and self-test. -/
def GOS_STATUS : Nat := 0xB0008
/-- R395: verdict of the last closed frame. -/
def GOS_VERDICT : Nat := 0xB000C
/-- R395: tick count that opened that frame, bits 31:0. -/
def GOS_VTICK_LO : Nat := 0xB0010
/-- R395: the same, bits 63:32. -/
def GOS_VTICK_HI : Nat := 0xB0014
/-- R395: events of that frame per class. -/
def GOS_VCOUNTS : Nat := 0xB0018
/-- R395: cycle and detail of FIRST_KIND. -/
def GOS_FIRST_DETAIL : Nat := 0xB001C
/-- R395: comparisons of that frame. -/
def GOS_PAIRS : Nat := 0xB0020
/-- R395: last mismatching tap. -/
def GOS_MISMATCH_LAST : Nat := 0xB0024
/-- R395: failed frames since last read. -/
def GOS_CNT_FAILED : Nat := 0xB0028
/-- R395: suspect frames since last read. -/
def GOS_CNT_SUSPECT : Nat := 0xB002C
/-- R395: corrected frames since last read. -/
def GOS_CNT_CORR : Nat := 0xB0030
/-- R395: last GOS_VERDICT. -/
def GOS_REC_VERDICT : Nat := 0xB0100
/-- R395: its tick count, bits 31:0. -/
def GOS_REC_TICK_LO : Nat := 0xB0104
/-- R395: its tick count, bits 63:32. -/
def GOS_REC_TICK_HI : Nat := 0xB0108
/-- R395: last safe-state cause. -/
def GOS_REC_SAFE : Nat := 0xB010C
/-- R395: first hard event since cold power-on. -/
def GOS_REC_FAULT : Nat := 0xB0110
/-- R395: last protection trip. -/
def GOS_REC_PWR : Nat := 0xB0114
/-- R395: failed frames since cold power-on, saturating. -/
def GOS_REC_FAILS : Nat := 0xB0118

/-! ### Offsets of the DBG window -/

/-- R200: validity and kind of the recorded report. -/
def DBG_HZ_STATUS : Nat := 0xC0100
/-- R200: logical tile of the recorded report. -/
def DBG_HZ_TILE : Nat := 0xC0104
/-- R200: cycle of the recorded report. -/
def DBG_HZ_CYCLE : Nat := 0xC0108
/-- R200: bundle address of the recorded report. -/
def DBG_HZ_PC : Nat := 0xC010C
/-- R200: tick count of the recorded report, bits 31:0. -/
def DBG_HZ_TICK_LO : Nat := 0xC0110
/-- R200: tick count of the recorded report, bits 63:32. -/
def DBG_HZ_TICK_HI : Nat := 0xC0114
/-- R200: reports since last read. -/
def DBG_HZ_COUNT : Nat := 0xC0118
/-- R202: physical tile and target. -/
def DBG_PT_SEL : Nat := 0xC0200
/-- R202: address within the target. -/
def DBG_PT_ADDR : Nat := 0xC0204
/-- R202: data word; each read or write performs one access to the target. -/
def DBG_PT_DATA : Nat := 0xC0208
/-- R202: result of the last access and position of the selected tile. -/
def DBG_PT_STATUS : Nat := 0xC020C

/-! ### Offsets of the AGP window -/

/-- R262: start, stop, resume. -/
def AGP_CTRL (n : Nat) : Nat := agpBase n + 0x0
/-- R262: state, fault and pc. -/
def AGP_STATUS (n : Nat) : Nat := agpBase n + 0x4
/-- R262: start instruction. -/
def AGP_BOOT (n : Nat) : Nat := agpBase n + 0x8
/-- R262: faulting instruction. -/
def AGP_FAULT_PC (n : Nat) : Nat := agpBase n + 0xC
/-- R262: faulting address, bits 31:0. -/
def AGP_FAULT_ADDR_LO (n : Nat) : Nat := agpBase n + 0x10
/-- R262: faulting address, bits 63:32. -/
def AGP_FAULT_ADDR_HI (n : Nat) : Nat := agpBase n + 0x14
/-- R262: lines written poisoned since last read. -/
def AGP_POISON (n : Nat) : Nat := agpBase n + 0x18
/-- R262: lines moved since last read. -/
def AGP_LINES (n : Nat) : Nat := agpBase n + 0x1C
/-- R262: ar, bits 31:0. -/
def AGP_A_LO (n r : Nat) : Nat := agpBase n + 0x100 + 0x8 * r
/-- R262: ar, bits 63:32. -/
def AGP_A_HI (n r : Nat) : Nat := agpBase n + 0x104 + 0x8 * r
/-- R262: cr. -/
def AGP_C (n r : Nat) : Nat := agpBase n + 0x140 + 0x4 * r
/-- R262: instruction i, bits 31:0. -/
def AGP_PROG_LO (n i : Nat) : Nat := agpBase n + 0x800 + 0x8 * i
/-- R262: instruction i, bits 63:32. -/
def AGP_PROG_HI (n i : Nat) : Nat := agpBase n + 0x804 + 0x8 * i

/-! ### Offsets of the HBM window -/

/-- R263: state of stack s. -/
def HBM_STATUS (s : Nat) : Nat := hbmBase s + 0x0
/-- R263: window period in cycles. -/
def HBM_REF_PERIOD (s : Nat) : Nat := hbmBase s + 0x4
/-- R263: window length in cycles. -/
def HBM_REF_LEN (s : Nat) : Nat := hbmBase s + 0x8
/-- R263: first window cycle. -/
def HBM_REF_PHASE (s : Nat) : Nat := hbmBase s + 0xC
/-- R263: corrected lines since last read. -/
def HBM_ECC_CORR (s : Nat) : Nat := hbmBase s + 0x10
/-- R263: uncorrectable lines since last read. -/
def HBM_ECC_UNC (s : Nat) : Nat := hbmBase s + 0x14
/-- R263: space-1 offset of the last uncorrectable line, bits 31:0. -/
def HBM_UNC_ADDR_LO (s : Nat) : Nat := hbmBase s + 0x18
/-- R263: the same, bits 46:32. -/
def HBM_UNC_ADDR_HI (s : Nat) : Nat := hbmBase s + 0x1C
/-- R263: forced refreshes since last read. -/
def HBM_REF_FORCED (s : Nat) : Nat := hbmBase s + 0x20

/-! ### Offsets of the DDR window -/

/-- R264: state of sites 2k and 2k + 1. -/
def DDR_STATUS (k : Nat) : Nat := ddrBase k + 0x0
/-- R264: window period in cycles. -/
def DDR_REF_PERIOD (k : Nat) : Nat := ddrBase k + 0x4
/-- R264: window length in cycles. -/
def DDR_REF_LEN (k : Nat) : Nat := ddrBase k + 0x8
/-- R264: first window cycle. -/
def DDR_REF_PHASE (k : Nat) : Nat := ddrBase k + 0xC
/-- R264: corrected lines since last read. -/
def DDR_ECC_CORR (k : Nat) : Nat := ddrBase k + 0x10
/-- R264: uncorrectable lines since last read. -/
def DDR_ECC_UNC (k : Nat) : Nat := ddrBase k + 0x14
/-- R264: space-2 offset of the last uncorrectable line, bits 31:0. -/
def DDR_UNC_ADDR_LO (k : Nat) : Nat := ddrBase k + 0x18
/-- R264: the same, bits 46:32. -/
def DDR_UNC_ADDR_HI (k : Nat) : Nat := ddrBase k + 0x1C
/-- R264: usable bytes of space 2, bits 31:0. -/
def DDR_USABLE_LO (k : Nat) : Nat := ddrBase k + 0x20
/-- R264: usable bytes of space 2, bits 46:32. -/
def DDR_USABLE_HI (k : Nat) : Nat := ddrBase k + 0x24

/-! ### Offsets of the REGION window -/

/-- R366: state of the region clock. -/
def CLK_R_STATUS (n : Nat) : Nat := regionBase n + 0x0
/-- R366: monitor, slip, droop and calibration events. -/
def CLK_R_EVENT (n : Nat) : Nat := regionBase n + 0x4
/-- R366: stretches since last read. -/
def CLK_R_STRETCHES (n : Nat) : Nat := regionBase n + 0x8
/-- R366: stretch charge since last read, ps. -/
def CLK_R_STRETCH_PS (n : Nat) : Nat := regionBase n + 0xC
/-- R366: hold charge since last read, ps. -/
def CLK_R_HOLD_PS (n : Nat) : Nat := regionBase n + 0x10
/-- R366: crossing slips since last read. -/
def CLK_R_SLIPS (n : Nat) : Nat := regionBase n + 0x14
/-- R366: last crossing slip. -/
def CLK_R_SLIP_LAST (n : Nat) : Nat := regionBase n + 0x18
/-- R366: calibration of the region's receiving crossings. -/
def CLK_R_XLAT (n : Nat) : Nat := regionBase n + 0x1C
/-- R366: largest deviation of an ordinary period since last read. -/
def CLK_R_MON_WORST (n : Nat) : Nat := regionBase n + 0x20
/-- R366: junction temperature. -/
def CLK_R_TEMP (n : Nat) : Nat := regionBase n + 0x24
/-- R397: classes seen since last clear. -/
def GOS_L_EVENT (n : Nat) : Nat := regionBase n + 0x8000
/-- R397: first hard event of the last frame. -/
def GOS_L_FIRST (n : Nat) : Nat := regionBase n + 0x8004
/-- R397: corrected events since last read. -/
def GOS_L_CORR (n : Nat) : Nat := regionBase n + 0x8008
/-- R397: suspect events since last read. -/
def GOS_L_SUSPECT (n : Nat) : Nat := regionBase n + 0x800C
/-- R397: hard events since last read. -/
def GOS_L_HARD (n : Nat) : Nat := regionBase n + 0x8010
/-- R512: tile sites gated under R22. -/
def PWR_R_GATED (n : Nat) : Nat := regionBase n + 0x4000
/-- R512: VCORE measured in the region. -/
def PWR_R_VCORE (n : Nat) : Nat := regionBase n + 0x4004
/-- R512: lowest VCORE since last read. -/
def PWR_R_VMIN (n : Nat) : Nat := regionBase n + 0x4008

/-! ### Offsets of the TILE window -/

/-- R100: word w of seed slot s; key word k[w]. -/
def VEC_RNG_SEED (t s w : Nat) : Nat := tileBase t + 0x5800 + 0x10 * s + 0x4 * w
/-- R100: binding and source of stream n. -/
def VEC_RNG_CFG (t n : Nat) : Nat := tileBase t + 0x5900 + 0x20 * n
/-- R100: stream identifier of stream n. -/
def VEC_RNG_ID (t n : Nat) : Nat := tileBase t + 0x5904 + 0x20 * n
/-- R100: base position POS, bits 31:0. -/
def VEC_RNG_POS_LO (t n : Nat) : Nat := tileBase t + 0x5908 + 0x20 * n
/-- R100: base position POS, bits 63:32. -/
def VEC_RNG_POS_HI (t n : Nat) : Nat := tileBase t + 0x590C + 0x20 * n
/-- R100: current position, bits 31:0. -/
def VEC_RNG_CUR_LO (t n : Nat) : Nat := tileBase t + 0x5910 + 0x20 * n
/-- R100: current position, bits 63:32. -/
def VEC_RNG_CUR_HI (t n : Nat) : Nat := tileBase t + 0x5914 + 0x20 * n
/-- R122: lag and resident block of array a. -/
def MXA_STATUS (t a : Nat) : Nat := tileBase t + 0x1000 + 0x1000 * a
/-- R122: causes and events raised in array a. -/
def MXA_EVENT (t a : Nat) : Nat := tileBase t + 0x1004 + 0x1000 * a
/-- R122: checksum faults since last read. -/
def MXA_CHK_FAILS (t a : Nat) : Nat := tileBase t + 0x1008 + 0x1000 * a
/-- R122: elastic overflows since last read. -/
def MXA_OVF_COUNT (t a : Nat) : Nat := tileBase t + 0x100C + 0x1000 * a
/-- R122: pass in progress (array 0 window only). -/
def MXA_UNIT (t : Nat) : Nat := tileBase t + 0x1010
/-- R122: accumulator j in the layout of R78: w = 0 to 2 hold A, w = 3 holds bits 127:96. -/
def MXA_ACC (t a j w : Nat) : Nat := tileBase t + 0x1100 + 0x1000 * a + 0x10 * j + 0x4 * w
/-- R122: checksum register C, bits 32w + 31 to 32w; bits 127:104 read 0. -/
def MXA_CHK (t a w : Nat) : Nat := tileBase t + 0x1300 + 0x1000 * a + 0x4 * w
/-- R122: pass descriptor d, word w (R109). -/
def MXA_DESC (t d w : Nat) : Nat := tileBase t + 0x1400 + 0x10 * d + 0x4 * w
/-- R145: queue state and instruction in issue. -/
def VEC_STATUS (t : Nat) : Nat := tileBase t + 0x5000
/-- R145: causes and events raised in the engine. -/
def VEC_EVENT (t : Nat) : Nat := tileBase t + 0x5004
/-- R145: corrected errors in tile registers and operand cache since last read. -/
def VEC_ECC_CORR (t : Nat) : Nat := tileBase t + 0x5008
/-- R145: uncorrectable errors since last read. -/
def VEC_ECC_UNC (t : Nat) : Nat := tileBase t + 0x500C
/-- R145: raw bits of scan carry n; for LINREC the value h. -/
def VEC_CARRY (t n : Nat) : Nat := tileBase t + 0x5100 + 0x4 * n
/-- R167: start, stop, resume and idle dispatch. -/
def MUL_CTRL (t : Nat) : Nat := tileBase t + 0x6000
/-- R167: state, fault code and inbox depth. -/
def MUL_STATUS (t : Nat) : Nat := tileBase t + 0x6004
/-- R167: start address, in instructions. -/
def MUL_BOOT (t : Nat) : Nat := tileBase t + 0x6008
/-- R167: current pc, as a byte address. -/
def MUL_PC (t : Nat) : Nat := tileBase t + 0x600C
/-- R167: byte address of the faulting instruction or fetch. -/
def MUL_FAULT_PC (t : Nat) : Nat := tileBase t + 0x6010
/-- R167: missed check points since last read. -/
def MUL_LATE_COUNT (t : Nat) : Nat := tileBase t + 0x6014
/-- R167: lowest check-point margin since last read, in cycles. -/
def MUL_MARGIN_MIN (t : Nat) : Nat := tileBase t + 0x6018
/-- R167: inbox messages discarded since last read. -/
def MUL_DISCARD (t : Nat) : Nat := tileBase t + 0x601C
/-- R167: corrected errors in instruction and data memory since last read. -/
def MUL_ECC_CORR (t : Nat) : Nat := tileBase t + 0x6020
/-- R167: tag prefix and mask of handler entry n. -/
def MUL_HMATCH (t n : Nat) : Nat := tileBase t + 0x6100 + 0x8 * n
/-- R167: handler address and enable of entry n. -/
def MUL_HADDR (t n : Nat) : Nat := tileBase t + 0x6104 + 0x8 * n
/-- R167: instruction memory. -/
def MUL_IMEM (t w : Nat) : Nat := tileBase t + 0x10000 + 0x4 * w
/-- R167: data memory. -/
def MUL_DMEM (t w : Nat) : Nat := tileBase t + 0x14000 + 0x4 * w
/-- R198: native latency table identifier (R193). -/
def TIL_LATID (t : Nat) : Nat := tileBase t + 0x0
/-- R198: families pinned to A1 latencies (R194). -/
def TIL_LATPIN (t : Nat) : Nat := tileBase t + 0x4
/-- R198: address of the bundle issued in the current cycle. -/
def TIL_PC (t : Nat) : Nat := tileBase t + 0x8
/-- R198: schedule cycle of the current frame. -/
def TIL_CYCLE (t : Nat) : Nat := tileBase t + 0xC
/-- R198: loop counters k0 and k1. -/
def TIL_K01 (t : Nat) : Nat := tileBase t + 0x10
/-- R198: loop counters k2 and k3. -/
def TIL_K23 (t : Nat) : Nat := tileBase t + 0x14
/-- R198: comparators and active repeat blocks. -/
def TIL_CTLSTATE (t : Nat) : Nat := tileBase t + 0x18
/-- R198: corrected instruction-memory errors since last read. -/
def TIL_IECC_CORR (t : Nat) : Nat := tileBase t + 0x1C
/-- R198: uncorrectable instruction-memory errors since last read. -/
def TIL_IECC_UNC (t : Nat) : Nat := tileBase t + 0x20
/-- R198: bundle and instruction-memory events. -/
def TIL_EVENT (t : Nat) : Nat := tileBase t + 0x24
/-- R198: instruction memory (R190). -/
def TIL_IMEM (t w : Nat) : Nat := tileBase t + 0x20000 + 0x4 * w
/-- R260: scrub and write-back state. -/
def SPD_STATUS (t : Nat) : Nat := tileBase t + 0x7000
/-- R260: scrub request (R237). -/
def SPD_SCRUB (t : Nat) : Nat := tileBase t + 0x7004
/-- R260: corrected words since last read. -/
def SPD_ECC_CORR (t : Nat) : Nat := tileBase t + 0x7008
/-- R260: uncorrectable words since last read. -/
def SPD_ECC_UNC (t : Nat) : Nat := tileBase t + 0x700C
/-- R260: dropped write-backs since last read. -/
def SPD_WB_DROP (t : Nat) : Nat := tileBase t + 0x7010
/-- R260: last uncorrectable line. -/
def SPD_UNC_LINE (t : Nat) : Nat := tileBase t + 0x7014
/-- R260: scratchpad events. -/
def SPD_EVENT (t : Nat) : Nat := tileBase t + 0x7018
/-- R261: state of channel c. -/
def STR_STATUS (t c : Nat) : Nat := tileBase t + 0x8000 + 0x4 * c
/-- R261: faults and poison per channel. -/
def STR_EVENT (t : Nat) : Nat := tileBase t + 0x8010
/-- R261: cursor, bits 31:0. -/
def STR_CUR_LO (t c : Nat) : Nat := tileBase t + 0x8020 + 0x8 * c
/-- R261: cursor, bits 63:32. -/
def STR_CUR_HI (t c : Nat) : Nat := tileBase t + 0x8024 + 0x8 * c
/-- R261: first fault of the last faulting run. -/
def STR_FAULT (t c : Nat) : Nat := tileBase t + 0x8040 + 0x4 * c
/-- R261: descriptor d of channel c, word w (R239). -/
def STR_DESC (t c d w : Nat) : Nat := tileBase t + 0x30000 + 0x400 * c + 0x20 * d + 0x4 * w
/-- R286: tile epoch (R271). -/
def MSG_EPOCH (t : Nat) : Nat := tileBase t + 0x9000
/-- R286: messages awaiting an answer. -/
def MSG_STATUS (t : Nat) : Nat := tileBase t + 0x9004
/-- R286: last negative acknowledgement received. -/
def MSG_NACK_LAST (t : Nat) : Nat := tileBase t + 0x9008
/-- R286: negative acknowledgements received since last read. -/
def MSG_NACK_COUNT (t : Nat) : Nat := tileBase t + 0x900C
/-- R286: message events. -/
def MSG_EVENT (t : Nat) : Nat := tileBase t + 0x9010
/-- R286: landing port q (R273, R275). -/
def MSG_LAND_CFG (t q : Nat) : Nat := tileBase t + 0x9020 + 0x4 * q
/-- R286: write index of landing port q. -/
def MSG_LAND_WR (t q : Nat) : Nat := tileBase t + 0x9030 + 0x4 * q
/-- R286: close landing ports at once. -/
def MSG_LAND_CLOSE (t : Nat) : Nat := tileBase t + 0x9040
/-- R286: template m, word w (R279). -/
def MSG_TPL (t m w : Nat) : Nat := tileBase t + 0x9200 + 0x10 * m + 0x4 * w
/-- R286: value of semaphore n. -/
def SYN_SEM (t n : Nat) : Nat := tileBase t + 0xA000 + 0x4 * n
/-- R286: fence counter f. -/
def SYN_FENCE (t f : Nat) : Nat := tileBase t + 0xA080 + 0x4 * f
/-- R286: signal a tile semaphore. -/
def SYN_SIG (t : Nat) : Nat := tileBase t + 0xA090
/-- R286: semaphore events. -/
def SYN_EVENT (t : Nat) : Nat := tileBase t + 0xA094
/-- R286: last saturated semaphore. -/
def SYN_SAT (t : Nat) : Nat := tileBase t + 0xA098
/-- R398: tap t, word w. -/
def GOS_TAP (t t' w : Nat) : Nat := tileBase t + 0xB000 + 0x10 * t' + 0x4 * w
/-- R398: digest of tap t at its last closing tick, bits 32w + 31 to 32w. -/
def GOS_TAP_DIG (t t' w : Nat) : Nat := tileBase t + 0xB100 + 0x10 * t' + 0x4 * w

/-- Registers of the FRM window, part 1. -/
def frmRegs0 : List RegGroup := [
  ⟨0x0, [], .rw, 0x0, 0x1, false⟩,
  ⟨0x4, [], .ro, 0x0, 0x0, false⟩,
  ⟨0x8, [], .sh, 0x2, 0xFFFFFFFF, false⟩,
  ⟨0xC, [], .sh, 0x0, 0xFFFFFFFF, false⟩,
  ⟨0x10, [], .sh, 0x0, 0xFFFFFFFF, false⟩,
  ⟨0x14, [], .sh, 0x0, 0xFFFFFFFF, false⟩,
  ⟨0x18, [], .wo, 0x0, 0x0, false⟩,
  ⟨0x1C, [], .ro, 0x0, 0x0, false⟩,
  ⟨0x20, [], .ro, 0x0, 0x0, false⟩,
  ⟨0x24, [], .rw, 0x0, 0xFFFFFFFF, true⟩,
  ⟨0x28, [], .rw, 0x0, 0xFFFFFFFF, false⟩,
  ⟨0x2C, [], .rw, 0x0, 0xFFFFFFFF, true⟩,
  ⟨0x30, [], .rw, 0x0, 0xFFFFFFFF, false⟩,
  ⟨0x34, [], .ro, 0x0, 0x0, true⟩,
  ⟨0x38, [], .ro, 0x0, 0x0, false⟩,
  ⟨0x3C, [], .ro, 0x0, 0x0, false⟩,
  ⟨0x40, [], .w1c, 0x0, 0x3F, false⟩,
  ⟨0x44, [], .ro, 0x0, 0x0, false⟩,
  ⟨0x48, [], .ro, 0x0, 0x0, false⟩,
  ⟨0x4C, [], .rc, 0xFFFFFFFF, 0x0, false⟩,
  ⟨0x50, [], .ro, 0x0, 0x0, false⟩,
  ⟨0x54, [], .ro, 0x0, 0x0, false⟩,
  ⟨0x58, [], .ro, 0x0, 0x0, false⟩,
  ⟨0x5C, [], .ro, 0x0, 0x0, false⟩]
/-- Registers of the FRM window, part 2. -/
def frmRegs1 : List RegGroup := [
  ⟨0x60, [], .rc, 0x0, 0x0, false⟩,
  ⟨0x64, [], .sh, 0x10, 0xFFFFFFFF, false⟩,
  ⟨0x100, [(0x4, 256)], .sh, 0x0, 0xFFFFFFFF, false⟩,
  ⟨0x1000, [(0x40, 64)], .sh, 0x0, 0xFFFFFFFF, false⟩,
  ⟨0x1004, [(0x40, 64)], .sh, 0x0, 0xFFFFFFFF, false⟩,
  ⟨0x1008, [(0x40, 64)], .sh, 0x0, 0xFFFFFFFF, false⟩,
  ⟨0x100C, [(0x40, 64)], .sh, 0x0, 0xFFFFFFFF, false⟩,
  ⟨0x8000, [(0x80, 64), (0x4, 32)], .sh, 0x0, 0xFFFFFFFF, false⟩,
  ⟨0xA000, [(0x80, 64), (0x4, 32)], .sh, 0x0, 0xFFFFFFFF, false⟩,
  ⟨0xC000, [], .sh, 0x0, 0xFFFFFFFF, true⟩,
  ⟨0xC004, [], .sh, 0x0, 0xFFFFFFFF, false⟩,
  ⟨0xC008, [], .ro, 0x0, 0x0, true⟩,
  ⟨0xC00C, [], .ro, 0x0, 0x0, false⟩,
  ⟨0xC010, [], .w1c, 0x0, 0xF0F, false⟩,
  ⟨0xC100, [(0x20, 4)], .sh, 0x0, 0xFFFFFFFF, true⟩,
  ⟨0xC104, [(0x20, 4)], .sh, 0x0, 0xFFFFFFFF, false⟩,
  ⟨0xC108, [(0x20, 4)], .sh, 0x0, 0xFFFFFFFF, true⟩,
  ⟨0xC10C, [(0x20, 4)], .sh, 0x0, 0xFFFFFFFF, false⟩,
  ⟨0xC110, [(0x20, 4)], .sh, 0x0, 0xFFFFFFFF, false⟩,
  ⟨0xC114, [(0x20, 4)], .wo, 0x0, 0x0, false⟩,
  ⟨0xC118, [(0x20, 4)], .rw, 0x0, 0xFFFFFFFF, true⟩,
  ⟨0xC11C, [(0x20, 4)], .rw, 0x0, 0xFFFFFFFF, false⟩,
  ⟨0xC200, [(0x4, 4)], .ro, 0x0, 0x0, false⟩]
/-- Registers of the FRM window. -/
def frmRegs : List RegGroup := frmRegs0 ++ frmRegs1

/-- Registers of the CLK window. -/
def clkRegs : List RegGroup := [
  ⟨0x10000, [], .sh, 0x0, 0xFFFFFFFF, false⟩,
  ⟨0x10004, [], .sh, 0x3E8, 0xFFFFFFFF, false⟩,
  ⟨0x10008, [], .sh, 0xAF0, 0xFFFFFFFF, false⟩,
  ⟨0x1000C, [], .sh, 0x1900C8, 0xFFFFFFFF, false⟩,
  ⟨0x10010, [], .ro, 0x0, 0x0, false⟩,
  ⟨0x10014, [], .ro, 0x0, 0x0, false⟩,
  ⟨0x10018, [], .sh, 0x4, 0xFFFFFFFF, false⟩,
  ⟨0x1001C, [], .sh, 0x641E, 0xFFFFFFFF, false⟩,
  ⟨0x10020, [], .sh, 0x12C5645F, 0xFFFFFFFF, false⟩,
  ⟨0x10024, [], .ro, 0x0, 0x0, false⟩,
  ⟨0x10028, [], .rc, 0x0, 0x0, false⟩,
  ⟨0x1002C, [], .w1c, 0x0, 0xF, false⟩,
  ⟨0x10030, [], .ro, 0x0, 0x0, false⟩,
  ⟨0x10100, [(0x4, 49)], .ro, 0x0, 0x0, false⟩]

/-- Registers of the PWR window. -/
def pwrRegs : List RegGroup := [
  ⟨0x20000, [], .ro, 0x0, 0x0, false⟩,
  ⟨0x20004, [], .ro, 0x0, 0x0, false⟩,
  ⟨0x20008, [], .ro, 0x0, 0x0, false⟩,
  ⟨0x2000C, [], .ro, 0x0, 0x0, false⟩,
  ⟨0x20010, [], .ro, 0x0, 0x0, false⟩,
  ⟨0x20014, [], .rc, 0x0, 0x0, false⟩,
  ⟨0x20018, [], .ro, 0x0, 0x0, true⟩,
  ⟨0x2001C, [], .ro, 0x0, 0x0, false⟩,
  ⟨0x20020, [], .ro, 0x0, 0x0, false⟩,
  ⟨0x20024, [], .w1c, 0x0, 0x7, false⟩,
  ⟨0x20100, [(0x4, 12)], .ro, 0x0, 0x0, false⟩]

/-- Registers of the SYN window. -/
def synRegs : List RegGroup := [
  ⟨0x30000, [(0x4, 256)], .ro, 0x0, 0x0, false⟩,
  ⟨0x30400, [], .wo, 0x0, 0x0, false⟩,
  ⟨0x30404, [], .w1c, 0x0, 0x1, false⟩,
  ⟨0x30408, [], .ro, 0x0, 0x0, false⟩]

/-- Registers of the MSG window. -/
def msgRegs : List RegGroup := [
  ⟨0x40000, [], .ro, 0x1, 0x0, false⟩,
  ⟨0x40004, [], .rc, 0x0, 0x0, false⟩,
  ⟨0x40014, [(0x4, 6)], .rc, 0x0, 0x0, false⟩]

/-- Registers of the FAB window, part 1. -/
def fabRegs0 : List RegGroup := [
  ⟨0x50000, [], .ro, 0x0, 0x0, false⟩,
  ⟨0x50004, [], .rw, 0x1, 0x1, false⟩,
  ⟨0x50008, [], .ro, 0x0, 0x0, false⟩,
  ⟨0x5000C, [], .sh, 0x1, 0xFFFFFFFF, false⟩,
  ⟨0x50010, [], .sh, 0x0, 0xFFFFFFFF, false⟩,
  ⟨0x50014, [], .sh, 0x1FFF, 0xFFFFFFFF, false⟩,
  ⟨0x50018, [], .sh, 0x1F4, 0xFFFFFFFF, false⟩,
  ⟨0x5001C, [], .sh, 0x64, 0xFFFFFFFF, false⟩,
  ⟨0x50020, [], .wo, 0x0, 0x0, false⟩,
  ⟨0x50024, [], .ro, 0x0, 0x0, false⟩,
  ⟨0x50028, [], .ro, 0x0, 0x0, false⟩,
  ⟨0x5002C, [], .w1c, 0x0, 0xFF, false⟩,
  ⟨0x50030, [], .rc, 0x0, 0x0, false⟩,
  ⟨0x50034, [], .rc, 0x0, 0x0, false⟩,
  ⟨0x50038, [], .rc, 0x0, 0x0, false⟩,
  ⟨0x50100, [(0x4, 64)], .rw, 0x0, 0x80001FFF, false⟩,
  ⟨0x51000, [(0x20, 32)], .sh, 0x9403, 0xFFFFFFFF, false⟩,
  ⟨0x51004, [(0x20, 32)], .wo, 0x0, 0x0, false⟩,
  ⟨0x51008, [(0x20, 32)], .ro, 0x0, 0x0, false⟩,
  ⟨0x5100C, [(0x20, 32)], .ro, 0x0, 0x0, false⟩,
  ⟨0x51010, [(0x20, 32)], .ro, 0x0, 0x0, false⟩,
  ⟨0x51014, [(0x20, 32)], .rc, 0x0, 0x0, false⟩,
  ⟨0x51018, [(0x20, 32)], .rc, 0x0, 0x0, false⟩,
  ⟨0x5101C, [(0x20, 32)], .rc, 0x0, 0x0, false⟩]
/-- Registers of the FAB window, part 2. -/
def fabRegs1 : List RegGroup := [
  ⟨0x54000, [(0x4, 4096)], .sh, 0x0, 0xFFFFFFFF, false⟩,
  ⟨0x58000, [(0x20, 64)], .sh, 0x0, 0xFFFFFFFF, true⟩,
  ⟨0x58004, [(0x20, 64)], .sh, 0x0, 0xFFFFFFFF, false⟩,
  ⟨0x58008, [(0x20, 64)], .sh, 0x0, 0xFFFFFFFF, true⟩,
  ⟨0x5800C, [(0x20, 64)], .sh, 0x0, 0xFFFFFFFF, false⟩,
  ⟨0x58010, [(0x20, 64)], .sh, 0x0, 0xFFFFFFFF, false⟩,
  ⟨0x58014, [(0x20, 64)], .sh, 0x0, 0xFFFFFFFF, false⟩,
  ⟨0x58018, [(0x20, 64)], .sh, 0x0, 0xFFFFFFFF, false⟩,
  ⟨0x58800, [], .ro, 0x0, 0x0, false⟩,
  ⟨0x58804, [], .ro, 0x0, 0x0, false⟩,
  ⟨0x58808, [], .rc, 0x0, 0x0, false⟩,
  ⟨0x5880C, [], .rc, 0x0, 0x0, false⟩,
  ⟨0x58810, [], .ro, 0x0, 0x0, false⟩,
  ⟨0x58814, [], .rc, 0x0, 0x0, false⟩,
  ⟨0x50200, [], .ro, 0x0, 0x0, false⟩,
  ⟨0x50204, [], .wo, 0x0, 0x0, false⟩,
  ⟨0x50208, [], .w1c, 0x0, 0x7, false⟩,
  ⟨0x5020C, [], .ro, 0x0, 0x0, false⟩,
  ⟨0x50210, [], .ro, 0x0, 0x0, false⟩,
  ⟨0x50214, [], .ro, 0x0, 0x0, true⟩,
  ⟨0x50218, [], .ro, 0x0, 0x0, false⟩,
  ⟨0x5021C, [], .ro, 0x0, 0x0, false⟩,
  ⟨0x50220, [], .ro, 0x0, 0x0, false⟩,
  ⟨0x50300, [(0x4, 32)], .ro, 0x0, 0x0, false⟩]
/-- Registers of the FAB window. -/
def fabRegs : List RegGroup := fabRegs0 ++ fabRegs1

/-- Registers of the COL window. -/
def colRegs : List RegGroup := [
  ⟨0x60000, [], .ro, 0x0, 0x0, false⟩,
  ⟨0x60004, [], .w1c, 0x0, 0x7, false⟩,
  ⟨0x60008, [], .rc, 0x0, 0x0, false⟩,
  ⟨0x6000C, [], .ro, 0x0, 0x0, false⟩,
  ⟨0x60010, [], .rc, 0x0, 0x0, false⟩,
  ⟨0x61000, [(0x40, 64), (0x4, 16)], .sh, 0x0, 0xFFFFFFFF, false⟩,
  ⟨0x62000, [(0x20, 64), (0x4, 8)], .sh, 0x0, 0xFFFFFFFF, false⟩,
  ⟨0x62800, [(0x4, 64)], .ro, 0x0, 0x0, false⟩,
  ⟨0x62900, [], .w1c, 0x0, 0x3, false⟩,
  ⟨0x62904, [], .ro, 0x0, 0x0, false⟩]

/-- Registers of the HLK window, part 1. -/
def hlkRegs0 : List RegGroup := [
  ⟨0x70000, [], .ro, 0x0, 0x0, false⟩,
  ⟨0x70004, [], .wo, 0x0, 0x0, false⟩,
  ⟨0x70008, [], .rw, 0x0, 0xFFFFF, false⟩,
  ⟨0x7000C, [], .wo, 0x0, 0x0, false⟩,
  ⟨0x70010, [], .rw, 0x64, 0xFFFF, false⟩,
  ⟨0x70014, [], .ro, 0x0, 0x0, false⟩,
  ⟨0x70020, [], .rw, 0x0, 0xFFFFFFFF, true⟩,
  ⟨0x70024, [], .rw, 0x0, 0xFFFFFFFF, false⟩,
  ⟨0x70028, [], .rw, 0x0, 0xFFFF, false⟩,
  ⟨0x7002C, [], .wo, 0x0, 0x0, false⟩,
  ⟨0x70030, [], .ro, 0x0, 0x0, false⟩,
  ⟨0x70034, [], .ro, 0x0, 0x0, false⟩,
  ⟨0x70040, [], .rw, 0x0, 0xFFFFFFFF, true⟩,
  ⟨0x70044, [], .rw, 0x0, 0xFFFFFFFF, false⟩,
  ⟨0x70048, [], .rw, 0x0, 0xFFFF, false⟩,
  ⟨0x7004C, [], .wo, 0x0, 0x0, false⟩,
  ⟨0x70050, [], .rw, 0x0, 0xFFFFFFFF, false⟩,
  ⟨0x70054, [], .ro, 0x0, 0x0, false⟩,
  ⟨0x70058, [], .rc, 0x0, 0x0, false⟩,
  ⟨0x7005C, [], .ro, 0x0, 0x0, false⟩,
  ⟨0x70060, [], .w1c, 0x0, 0x3F, false⟩,
  ⟨0x70100, [(0x20, 2)], .sh, 0x9403, 0xFFFFFFFF, false⟩,
  ⟨0x70104, [(0x20, 2)], .wo, 0x0, 0x0, false⟩,
  ⟨0x70108, [(0x20, 2)], .ro, 0x0, 0x0, false⟩]
/-- Registers of the HLK window, part 2. -/
def hlkRegs1 : List RegGroup := [
  ⟨0x7010C, [(0x20, 2)], .rc, 0x0, 0x0, false⟩,
  ⟨0x70110, [(0x20, 2)], .rc, 0x0, 0x0, false⟩,
  ⟨0x70114, [(0x20, 2)], .rc, 0x0, 0x0, false⟩]
/-- Registers of the HLK window. -/
def hlkRegs : List RegGroup := hlkRegs0 ++ hlkRegs1

/-- Registers of the DMC window, part 1. -/
def dmcRegs0 : List RegGroup := [
  ⟨0x80000, [], .ro, 0x0, 0x0, false⟩,
  ⟨0x80004, [], .ro, 0x0, 0x0, true⟩,
  ⟨0x80008, [], .ro, 0x0, 0x0, false⟩,
  ⟨0x80100, [], .rw, 0x0, 0xFFFFFFFF, true⟩,
  ⟨0x80104, [], .rw, 0x0, 0xFFFFFFFF, false⟩,
  ⟨0x80108, [], .rw, 0x0, 0xFFFFFFFF, false⟩,
  ⟨0x8010C, [], .wo, 0x0, 0x0, false⟩,
  ⟨0x80110, [], .ro, 0x0, 0x0, false⟩,
  ⟨0x80114, [], .ro, 0x0, 0x0, false⟩,
  ⟨0x80118, [], .ro, 0x0, 0x0, false⟩,
  ⟨0x80200, [(0x4, 64)], .ro, 0x0, 0x0, false⟩,
  ⟨0x80300, [], .rw, 0x0, 0xFFFFFFFF, true⟩,
  ⟨0x80304, [], .rw, 0x0, 0xFFFFFFFF, false⟩,
  ⟨0x80308, [], .rw, 0x0, 0xFFFFFFFF, false⟩,
  ⟨0x8030C, [], .wo, 0x0, 0x0, false⟩,
  ⟨0x80310, [], .ro, 0x0, 0x0, false⟩,
  ⟨0x80314, [], .ro, 0x0, 0x0, false⟩,
  ⟨0x80320, [], .rw, 0x0, 0xFFFFFFFF, true⟩,
  ⟨0x80324, [], .rw, 0x0, 0xFFFFFFFF, false⟩,
  ⟨0x80328, [], .wo, 0x0, 0x0, false⟩,
  ⟨0x8032C, [], .ro, 0x0, 0x0, false⟩,
  ⟨0x80330, [], .rw, 0x0, 0x7, false⟩,
  ⟨0x88000, [(0x4, 8192)], .ro, 0x0, 0x0, false⟩,
  ⟨0x80400, [], .rw, 0x0, 0xFFFFFFFF, true⟩]
/-- Registers of the DMC window, part 2. -/
def dmcRegs1 : List RegGroup := [
  ⟨0x80404, [], .rw, 0x0, 0xFFFFFFFF, false⟩,
  ⟨0x80408, [], .rw, 0x0, 0xFFFFFFFF, true⟩,
  ⟨0x8040C, [], .rw, 0x0, 0xFFFFFFFF, false⟩,
  ⟨0x80410, [], .rw, 0x0, 0xFFFFFFFF, true⟩,
  ⟨0x80414, [], .rw, 0x0, 0xFFFFFFFF, false⟩,
  ⟨0x80418, [], .rw, 0x0, 0xFFFFFFFF, false⟩,
  ⟨0x8041C, [], .wo, 0x0, 0x0, false⟩,
  ⟨0x80420, [], .ro, 0x0, 0x0, false⟩,
  ⟨0x80424, [], .ro, 0x0, 0x0, false⟩,
  ⟨0x80428, [], .ro, 0x0, 0x0, true⟩,
  ⟨0x8042C, [], .ro, 0x0, 0x0, false⟩,
  ⟨0x80010, [], .ro, 0x0, 0x0, false⟩,
  ⟨0x80014, [], .ro, 0x0, 0x0, false⟩,
  ⟨0x80020, [], .wo, 0x0, 0x0, false⟩,
  ⟨0x80024, [], .ro, 0x0, 0x0, false⟩,
  ⟨0x80028, [], .wo, 0x0, 0x0, false⟩,
  ⟨0x8002C, [], .ro, 0x0, 0x0, false⟩,
  ⟨0x80030, [], .ro, 0x0, 0x0, true⟩,
  ⟨0x80034, [], .ro, 0x0, 0x0, false⟩,
  ⟨0x80038, [], .ro, 0x0, 0x0, false⟩]
/-- Registers of the DMC window. -/
def dmcRegs : List RegGroup := dmcRegs0 ++ dmcRegs1

/-- Registers of the MMC window. -/
def mmcRegs : List RegGroup := [
  ⟨0x90000, [], .ro, 0x0, 0x0, false⟩,
  ⟨0x90004, [], .wo, 0x0, 0x0, false⟩,
  ⟨0x90008, [], .ro, 0x0, 0x0, false⟩,
  ⟨0x9000C, [], .ro, 0x0, 0x0, false⟩,
  ⟨0x90010, [], .ro, 0x0, 0x0, false⟩,
  ⟨0x90014, [], .w1c, 0x0, 0xF, false⟩,
  ⟨0x90018, [], .ro, 0x0, 0x0, false⟩,
  ⟨0x9001C, [], .ro, 0x0, 0x0, false⟩,
  ⟨0x90020, [], .ro, 0x0, 0x0, true⟩,
  ⟨0x90024, [], .ro, 0x0, 0x0, false⟩]

/-- Registers of the SEC window. -/
def secRegs : List RegGroup := [
  ⟨0xA0000, [], .ro, 0x0, 0x0, false⟩,
  ⟨0xA0004, [], .ro, 0x0, 0x0, false⟩,
  ⟨0xA0008, [], .ro, 0x0, 0x0, false⟩,
  ⟨0xA000C, [], .ro, 0x0, 0x0, false⟩,
  ⟨0xA0010, [], .ro, 0x0, 0x0, false⟩,
  ⟨0xA0014, [], .ro, 0x0, 0x0, false⟩,
  ⟨0xA0018, [], .rc, 0x0, 0x0, false⟩,
  ⟨0xA0020, [(0x4, 12)], .ro, 0x0, 0x0, false⟩]

/-- Registers of the GOS window. -/
def gosRegs : List RegGroup := [
  ⟨0xB0000, [], .wo, 0x0, 0x0, false⟩,
  ⟨0xB0004, [], .sh, 0x0, 0xFFFFFFFF, false⟩,
  ⟨0xB0008, [], .ro, 0x0, 0x0, false⟩,
  ⟨0xB000C, [], .ro, 0x0, 0x0, false⟩,
  ⟨0xB0010, [], .ro, 0x0, 0x0, true⟩,
  ⟨0xB0014, [], .ro, 0x0, 0x0, false⟩,
  ⟨0xB0018, [], .ro, 0x0, 0x0, false⟩,
  ⟨0xB001C, [], .ro, 0x0, 0x0, false⟩,
  ⟨0xB0020, [], .ro, 0x0, 0x0, false⟩,
  ⟨0xB0024, [], .ro, 0x0, 0x0, false⟩,
  ⟨0xB0028, [], .rc, 0x0, 0x0, false⟩,
  ⟨0xB002C, [], .rc, 0x0, 0x0, false⟩,
  ⟨0xB0030, [], .rc, 0x0, 0x0, false⟩,
  ⟨0xB0100, [], .ro, 0x0, 0x0, false⟩,
  ⟨0xB0104, [], .ro, 0x0, 0x0, true⟩,
  ⟨0xB0108, [], .ro, 0x0, 0x0, false⟩,
  ⟨0xB010C, [], .ro, 0x0, 0x0, false⟩,
  ⟨0xB0110, [], .ro, 0x0, 0x0, false⟩,
  ⟨0xB0114, [], .ro, 0x0, 0x0, false⟩,
  ⟨0xB0118, [], .ro, 0x0, 0x0, false⟩]

/-- Registers of the DBG window. -/
def dbgRegs : List RegGroup := [
  ⟨0xC0100, [], .w1c, 0x0, 0x1, false⟩,
  ⟨0xC0104, [], .ro, 0x0, 0x0, false⟩,
  ⟨0xC0108, [], .ro, 0x0, 0x0, false⟩,
  ⟨0xC010C, [], .ro, 0x0, 0x0, false⟩,
  ⟨0xC0110, [], .ro, 0x0, 0x0, true⟩,
  ⟨0xC0114, [], .ro, 0x0, 0x0, false⟩,
  ⟨0xC0118, [], .rc, 0x0, 0x0, false⟩,
  ⟨0xC0200, [], .rw, 0x0, 0x131F3F, false⟩,
  ⟨0xC0204, [], .rw, 0x0, 0xFFFFF, false⟩,
  ⟨0xC0208, [], .rw, 0x0, 0xFFFFFFFF, false⟩,
  ⟨0xC020C, [], .ro, 0x0, 0x0, false⟩]

/-- Registers of the AGP window. -/
def agpRegs : List RegGroup := [
  ⟨0x0, [], .wo, 0x0, 0x0, false⟩,
  ⟨0x4, [], .ro, 0x0, 0x0, false⟩,
  ⟨0x8, [], .rw, 0x0, 0xFF, false⟩,
  ⟨0xC, [], .ro, 0x0, 0x0, false⟩,
  ⟨0x10, [], .ro, 0x0, 0x0, true⟩,
  ⟨0x14, [], .ro, 0x0, 0x0, false⟩,
  ⟨0x18, [], .rc, 0x0, 0x0, false⟩,
  ⟨0x1C, [], .rc, 0x0, 0x0, false⟩,
  ⟨0x100, [(0x8, 8)], .rw, 0x0, 0xFFFFFFFF, true⟩,
  ⟨0x104, [(0x8, 8)], .rw, 0x0, 0xFFFFFFFF, false⟩,
  ⟨0x140, [(0x4, 4)], .rw, 0x0, 0xFFFFFFFF, false⟩,
  ⟨0x800, [(0x8, 256)], .rw, 0x0, 0xFFFFFFFF, true⟩,
  ⟨0x804, [(0x8, 256)], .rw, 0x0, 0xFFFFFFFF, false⟩]

/-- Registers of the HBM window. -/
def hbmRegs : List RegGroup := [
  ⟨0x0, [], .ro, 0x0, 0x0, false⟩,
  ⟨0x4, [], .sh, 0x1388, 0xFFFFFFFF, false⟩,
  ⟨0x8, [], .sh, 0x78, 0xFFFFFFFF, false⟩,
  ⟨0xC, [], .sh, 0x0, 0xFFFFFFFF, false⟩,
  ⟨0x10, [], .rc, 0x0, 0x0, false⟩,
  ⟨0x14, [], .rc, 0x0, 0x0, false⟩,
  ⟨0x18, [], .ro, 0x0, 0x0, true⟩,
  ⟨0x1C, [], .ro, 0x0, 0x0, false⟩,
  ⟨0x20, [], .rc, 0x0, 0x0, false⟩]

/-- Registers of the DDR window. -/
def ddrRegs : List RegGroup := [
  ⟨0x0, [], .ro, 0x0, 0x0, false⟩,
  ⟨0x4, [], .sh, 0xBB8, 0xFFFFFFFF, false⟩,
  ⟨0x8, [], .sh, 0x190, 0xFFFFFFFF, false⟩,
  ⟨0xC, [], .sh, 0x0, 0xFFFFFFFF, false⟩,
  ⟨0x10, [], .rc, 0x0, 0x0, false⟩,
  ⟨0x14, [], .rc, 0x0, 0x0, false⟩,
  ⟨0x18, [], .ro, 0x0, 0x0, true⟩,
  ⟨0x1C, [], .ro, 0x0, 0x0, false⟩,
  ⟨0x20, [], .ro, 0x0, 0x0, true⟩,
  ⟨0x24, [], .ro, 0x0, 0x0, false⟩]

/-- Registers of the REGION window. -/
def regionRegs : List RegGroup := [
  ⟨0x0, [], .ro, 0x0, 0x0, false⟩,
  ⟨0x4, [], .w1c, 0x0, 0x7F, false⟩,
  ⟨0x8, [], .rc, 0x0, 0x0, false⟩,
  ⟨0xC, [], .rc, 0x0, 0x0, false⟩,
  ⟨0x10, [], .rc, 0x0, 0x0, false⟩,
  ⟨0x14, [], .rc, 0x0, 0x0, false⟩,
  ⟨0x18, [], .ro, 0x0, 0x0, false⟩,
  ⟨0x1C, [], .ro, 0x0, 0x0, false⟩,
  ⟨0x20, [], .rc, 0x0, 0x0, false⟩,
  ⟨0x24, [], .ro, 0x0, 0x0, false⟩,
  ⟨0x8000, [], .w1c, 0x0, 0x7, false⟩,
  ⟨0x8004, [], .ro, 0x0, 0x0, false⟩,
  ⟨0x8008, [], .rc, 0x0, 0x0, false⟩,
  ⟨0x800C, [], .rc, 0x0, 0x0, false⟩,
  ⟨0x8010, [], .rc, 0x0, 0x0, false⟩,
  ⟨0x4000, [], .ro, 0x0, 0x0, false⟩,
  ⟨0x4004, [], .ro, 0x0, 0x0, false⟩,
  ⟨0x4008, [], .rc, 0xFFFF, 0x0, false⟩]

/-- Registers of the TILE window, part 1. -/
def tileRegs0 : List RegGroup := [
  ⟨0x5800, [(0x10, 4), (0x4, 4)], .sh, 0x0, 0xFFFFFFFF, false⟩,
  ⟨0x5900, [(0x20, 8)], .sh, 0x0, 0xFFFFFFFF, false⟩,
  ⟨0x5904, [(0x20, 8)], .sh, 0x0, 0xFFFFFFFF, false⟩,
  ⟨0x5908, [(0x20, 8)], .sh, 0x0, 0xFFFFFFFF, true⟩,
  ⟨0x590C, [(0x20, 8)], .sh, 0x0, 0xFFFFFFFF, false⟩,
  ⟨0x5910, [(0x20, 8)], .ro, 0x0, 0x0, true⟩,
  ⟨0x5914, [(0x20, 8)], .ro, 0x0, 0x0, false⟩,
  ⟨0x1000, [(0x1000, 4)], .ro, 0x0, 0x0, false⟩,
  ⟨0x1004, [(0x1000, 4)], .w1c, 0x0, 0x1FF, false⟩,
  ⟨0x1008, [(0x1000, 4)], .rc, 0x0, 0x0, false⟩,
  ⟨0x100C, [(0x1000, 4)], .rc, 0x0, 0x0, false⟩,
  ⟨0x1010, [], .ro, 0x0, 0x0, false⟩,
  ⟨0x1100, [(0x1000, 4), (0x10, 32), (0x4, 4)], .ro, 0x0, 0x0, false⟩,
  ⟨0x1300, [(0x1000, 4), (0x4, 4)], .ro, 0x0, 0x0, false⟩,
  ⟨0x1400, [(0x10, 64), (0x4, 4)], .sh, 0x0, 0xFFFFFFFF, false⟩,
  ⟨0x5000, [], .ro, 0x0, 0x0, false⟩,
  ⟨0x5004, [], .w1c, 0x0, 0xFF, false⟩,
  ⟨0x5008, [], .rc, 0x0, 0x0, false⟩,
  ⟨0x500C, [], .rc, 0x0, 0x0, false⟩,
  ⟨0x5100, [(0x4, 64)], .ro, 0x0, 0x0, false⟩,
  ⟨0x6000, [], .rw, 0x0, 0x8, false⟩,
  ⟨0x6004, [], .ro, 0x0, 0x0, false⟩,
  ⟨0x6008, [], .rw, 0x0, 0xFFF, false⟩,
  ⟨0x600C, [], .ro, 0x0, 0x0, false⟩]
/-- Registers of the TILE window, part 2. -/
def tileRegs1 : List RegGroup := [
  ⟨0x6010, [], .ro, 0x0, 0x0, false⟩,
  ⟨0x6014, [], .rc, 0x0, 0x0, false⟩,
  ⟨0x6018, [], .rc, 0xFFFFFFFF, 0x0, false⟩,
  ⟨0x601C, [], .rc, 0x0, 0x0, false⟩,
  ⟨0x6020, [], .rc, 0x0, 0x0, false⟩,
  ⟨0x6100, [(0x8, 16)], .sh, 0x0, 0xFFFFFFFF, false⟩,
  ⟨0x6104, [(0x8, 16)], .sh, 0x0, 0xFFFFFFFF, false⟩,
  ⟨0x10000, [(0x4, 4096)], .rw, 0x0, 0xFFFFFFFF, false⟩,
  ⟨0x14000, [(0x4, 2048)], .rw, 0x0, 0xFFFFFFFF, false⟩,
  ⟨0x0, [], .ro, 0x0, 0x0, false⟩,
  ⟨0x4, [], .sh, 0x0, 0xFFFFFFFF, false⟩,
  ⟨0x8, [], .ro, 0x0, 0x0, false⟩,
  ⟨0xC, [], .ro, 0x0, 0x0, false⟩,
  ⟨0x10, [], .ro, 0x0, 0x0, false⟩,
  ⟨0x14, [], .ro, 0x0, 0x0, false⟩,
  ⟨0x18, [], .ro, 0x0, 0x0, false⟩,
  ⟨0x1C, [], .rc, 0x0, 0x0, false⟩,
  ⟨0x20, [], .rc, 0x0, 0x0, false⟩,
  ⟨0x24, [], .w1c, 0x0, 0x3, false⟩,
  ⟨0x20000, [(0x4, 16384)], .rw, 0x0, 0xFFFFFFFF, false⟩,
  ⟨0x7000, [], .ro, 0x0, 0x0, false⟩,
  ⟨0x7004, [], .wo, 0x0, 0x0, false⟩,
  ⟨0x7008, [], .rc, 0x0, 0x0, false⟩,
  ⟨0x700C, [], .rc, 0x0, 0x0, false⟩]
/-- Registers of the TILE window, part 3. -/
def tileRegs2 : List RegGroup := [
  ⟨0x7010, [], .rc, 0x0, 0x0, false⟩,
  ⟨0x7014, [], .ro, 0x0, 0x0, false⟩,
  ⟨0x7018, [], .w1c, 0x0, 0x3, false⟩,
  ⟨0x8000, [(0x4, 4)], .ro, 0x0, 0x0, false⟩,
  ⟨0x8010, [], .w1c, 0x0, 0xFF, false⟩,
  ⟨0x8020, [(0x8, 4)], .ro, 0x0, 0x0, true⟩,
  ⟨0x8024, [(0x8, 4)], .ro, 0x0, 0x0, false⟩,
  ⟨0x8040, [(0x4, 4)], .ro, 0x0, 0x0, false⟩,
  ⟨0x30000, [(0x400, 4), (0x20, 32), (0x4, 8)], .sh, 0x0, 0xFFFFFFFF, false⟩,
  ⟨0x9000, [], .ro, 0x1, 0x0, false⟩,
  ⟨0x9004, [], .ro, 0x0, 0x0, false⟩,
  ⟨0x9008, [], .ro, 0x0, 0x0, false⟩,
  ⟨0x900C, [], .rc, 0x0, 0x0, false⟩,
  ⟨0x9010, [], .w1c, 0x0, 0x3, false⟩,
  ⟨0x9020, [(0x4, 4)], .sh, 0x0, 0xFFFFFFFF, false⟩,
  ⟨0x9030, [(0x4, 4)], .ro, 0x0, 0x0, false⟩,
  ⟨0x9040, [], .wo, 0x0, 0x0, false⟩,
  ⟨0x9200, [(0x10, 32), (0x4, 4)], .sh, 0x0, 0xFFFFFFFF, false⟩,
  ⟨0xA000, [(0x4, 32)], .ro, 0x0, 0x0, false⟩,
  ⟨0xA080, [(0x4, 4)], .ro, 0x0, 0x0, false⟩,
  ⟨0xA090, [], .wo, 0x0, 0x0, false⟩,
  ⟨0xA094, [], .w1c, 0x0, 0x1, false⟩,
  ⟨0xA098, [], .ro, 0x0, 0x0, false⟩,
  ⟨0xB000, [(0x10, 4), (0x4, 4)], .sh, 0x0, 0xFFFFFFFF, false⟩]
/-- Registers of the TILE window, part 4. -/
def tileRegs3 : List RegGroup := [
  ⟨0xB100, [(0x10, 4), (0x4, 4)], .ro, 0x0, 0x0, false⟩]
/-- Registers of the TILE window. -/
def tileRegs : List RegGroup := tileRegs0 ++ tileRegs1 ++ tileRegs2 ++ tileRegs3

/-- Whether a distance from a group's base is a sum of its strides, each below its count. -/
def inDims (dims : List (Nat × Nat)) (x : Nat) : Bool :=
  match dims with
  | [] => x == 0
  | (st, n) :: t => decide (x / st < n) && inDims t (x % st)

/-- Whether offset `o` of a window is a register of group `g`. -/
def regGroupHas (g : RegGroup) (o : Nat) : Bool := decide (g.base ≤ o) && inDims g.dims (o - g.base)

/-- The table and window-relative offset of a register-space offset (R33). A tile window is found
for every logical tile 0 to 1023. -/
def regWindow (off : Nat) : List RegGroup × Nat :=
  if off < 0x10000 then (frmRegs, off)
  else if off < 0x20000 then (clkRegs, off)
  else if off < 0x30000 then (pwrRegs, off)
  else if off < 0x40000 then (synRegs, off)
  else if off < 0x50000 then (msgRegs, off)
  else if off < 0x60000 then (fabRegs, off)
  else if off < 0x70000 then (colRegs, off)
  else if off < 0x80000 then (hlkRegs, off)
  else if off < 0x90000 then (dmcRegs, off)
  else if off < 0xA0000 then (mmcRegs, off)
  else if off < 0xB0000 then (secRegs, off)
  else if off < 0xC0000 then (gosRegs, off)
  else if off < 0xD0000 then (dbgRegs, off)
  else if off < 0xE0000 then (agpRegs, (off - 0xD0000) % 0x1000)
  else if off < 0x100000 then ([], off)
  else if off < 0x180000 then (hbmRegs, off % 0x10000)
  else if off < 0x1A0000 then (ddrRegs, off % 0x10000)
  else if off < 0x1000000 then ([], off)
  else if off < 0x13E0000 then (regionRegs, off % 0x10000)
  else if off < 0x40000000 then ([], off)
  else if off < 0x80000000 then (tileRegs, off % 0x100000)
  else ([], off)

/-- The register group that owns an offset, none where the offset is unassigned (R33). -/
def regGroupOf (off : Nat) : Option RegGroup :=
  let (tbl, o) := regWindow off
  if off % 4 = 0 then tbl.find? (fun g => regGroupHas g o) else none

/-- Whether the register at an offset is the lower half of a 64-bit quantity (R34). -/
def regIsLo (off : Nat) : Bool :=
  match regGroupOf off with
  | some g => g.lo
  | none => false

/-- The reset value of the register at an offset (the Reset columns of the register tables). -/
def regReset (off : Nat) : BitVec 32 :=
  match regGroupOf off with
  | some g => g.reset
  | none => 0

end Sys2Proof.Machine
end

