-- ==== Sys2Proof/Machine/State.lean ====
section
/-! DEFINITION. The state of the module, all of it plain data, and the state after reset.

Registers of space 3 have one home, `regs` (committed values) with `shadow` (SH values written and
not yet committed); what has no register of its own, or more structure than a register shows, is a
typed field. -/

namespace Sys2Proof.Machine

/-- Why a step can stop with a fault. -/
inductive Fault where
  /-- Raised by every command that names a logical tile at or above DMC_IDENT.TILES: the part has no
  such tile (R33). Safe: no effect is claimed. -/
  | noSuchTile (tile : Nat)
deriving DecidableEq, Repr

/-- Why a command is refused. -/
inductive Refusal where
  /-- Raised by an arm of `exec` whose command has no meaning yet. Safe: no effect is claimed. -/
  | notModelled (mnemonic : String)
deriving DecidableEq, Repr

/-- A pending commit request (R63). -/
inductive CommitReq where
  | atNextTick
  | atCount (count : BitVec 64)
deriving DecidableEq, Repr

/-- The frame controller's state that no register holds whole (R43 to R67). -/
structure Frame where
  /-- pending commit request -/
  commitReq : Option CommitReq
  /-- program slot of the armed frame, none in an idle or refused frame -/
  armed : Option Nat
  /-- cycle 0 of the armed frame has been released (R55 step 7) -/
  released : Bool
  /-- the sequence walk has started since RUN was set (R50, R61) -/
  walking : Bool
  /-- arming starts at the tick of this count; none: at the next tick (R61) -/
  startAt : Option (BitVec 64)
  /-- the drain of an overrun is in progress (R58) -/
  draining : Bool
  /-- the module is in the safe state, with the cause of R390 -/
  safe : Option Nat
  /-- SAFE_REQ was written: enter the safe state at the next tick (R67) -/
  safeReq : Bool
  /-- ticks in a row produced in holdover; none outside holdover (R46, R47) -/
  holdover : Option Nat
  /-- a tick is due from a tick packet or from holdover on a module that is not the bellwether: the
  period the packet carried, none in holdover (R44, R45) -/
  tickDue : Option (Option Nat)
  /-- the open frame was refused under R54, with its code -/
  refused : Option Nat
  /-- the open frame opened in holdover (R47) -/
  openedHoldover : Bool
  /-- the open frame was stopped by entry into the safe state (R391) -/
  stopped : Bool
  /-- the tick count has been acquired (R477) -/
  acquired : Bool
  /-- weight pairs a copy of which was released in the open frame, one bit each (R416) -/
  released4 : BitVec 4
  /-- program slot that the sequence selected for the open frame -/
  slot : Nat
  /-- events were carried into the open frame (R372) -/
  carriedIn : Bool
  /-- tick packet to follow at the tick that is due (R476) -/
  parent : Option TickParent
  /-- HANDOVER of the packet followed last; 0 when none (R479) -/
  handover : BitVec 64
deriving DecidableEq, Repr

/-- What the factory, the records, the strapping and the standby side fix before the module runs:
it changes with no command but those that write records, flash or counters. -/
structure Part where
  /-- 1 A1, 2 B0 (R4) -/
  stepping : Nat
  serial : BitVec 64
deriving DecidableEq, Repr

/-- The state of the module. -/
structure State where
  /-- commands waiting, first in first out -/
  pending : List Instr
  /-- uses of free values so far (the model's own: see Config.freeBits) -/
  freeCount : Nat
  /-- 128-bit words drawn from the entropy source so far (R99, R281) -/
  entropyCount : Nat
  part : Part
  /-- registers of space 3 by offset; a register not listed holds its reset value -/
  regs : SMap (BitVec 32)
  /-- status and value that the last register access of its own command answered (the model's record) -/
  regAnswer : Nat × BitVec 32
  /-- SH registers written since the last commit (R14, R62) -/
  shadow : SMap (BitVec 32)
  /-- _HI halves latched by a read of _LO: key 2^32 × master + offset of the _HI register (R34) -/
  hiLatch : SMap (BitVec 32)
  /-- spaces 0, 1 and 2 (R39, R41) -/
  spad : List Host.Cell
  hbm : List Host.Cell
  ddr : List Host.Cell
  /-- poison marks of scratchpad lines, by offset / 64 (R236) -/
  spadMark : SMap Cause
  /-- lines of spaces 1 and 2 that hold the poison pattern, by offset / 64 (R253, R258) -/
  hbmPoison : SMap Bool
  ddrPoison : SMap Bool
  /-- latent errors: 8-byte words of space 0, lines of spaces 1 and 2 -/
  spadErr : SMap EccErr
  hbmErr : SMap EccErr
  ddrErr : SMap EccErr
  tiles : SMap Tile
  /-- weight rows in flight on row streams (R247) -/
  rowWords : List RowWord
  frame : Frame
  /-- route entries in force, and those an image load has written for the next commit (R221, R320) -/
  routes : List Route
  routesNext : Option (List Route)
  /-- transfers that use their twin route: program slot and transfer number; and those that switch at
  the next tick (R315) -/
  twins : List (Nat × Nat)
  twinsNext : List (Nat × Nat)
  /-- FAB_TWIN_CLEAR was written: the next tick returns every transfer to its primary (R315) -/
  twinClear : Bool
  /-- transaction entries in use, and best-effort requests that wait for one (R329, R330) -/
  entries : List NetEntry
  reqWait : List NetEntry
  /-- packets that have left the module, oldest first: link and packet (the model's own record of what
  the fabric is given) -/
  sent : List (Nat × Packet)
  /-- messages and answers in flight on the die (R269) -/
  flight : List Flight
  answers : List MsgAnswer
  power : Power
  mgmt : Mgmt
  tap : Tap
  /-- lowest and second-lowest bellwether candidates known, and the time at which the view last changed (R473); an
  election among the modules as they stand is under way (R479) -/
  cands : List Cand
  viewAt : Nat
  electing : Bool
  clk : Clk
  /-- region clocks (R347) -/
  regions : SMap ClkRegion
  /-- regions without tiles in which the program of the open frame has had scheduled work, with one more
  than the cycle of the last (R57) -/
  work : SMap Nat
  /-- refresh windows open in the frame: controller (stacks 0 to 7, 8 for DDR5) and first cycle (R256) -/
  refresh : SMap Nat
  fab : Fab
  /-- address-generator engines 0 to 15 (R248) -/
  agp : SMap Agp
  /-- running collective descriptors, and those that have started in the open frame (R332) -/
  colls : SMap ColRun
  colStarted : List Nat
  /-- weight pairs (R412) -/
  wpairs : SMap WPair
  /-- SEL of the shadow restore in progress (R407) -/
  shr : Option Nat
  /-- the image load in progress (R222) -/
  load : Option Load
  /-- DIGEST of the image that each program slot was loaded from, by slot (R465) -/
  slotDigest : SMap (List (BitVec 8))
  /-- the context operation accepted and not ended: 1 save, 2 restore (R280) -/
  ctxOp : Nat
  /-- tick count at which the context operation started, and the state each Mule had before the save stopped
  it, by its code (R166, R281) -/
  ctxTick : BitVec 64
  ctxMules : SMap Nat
  /-- the key that wraps stream keys, and the nonce that names it (R281) -/
  ctxKey : BitVec 256
  bootNonce : BitVec 64
  /-- the key and the nonce have been drawn since main power-good (R281, R456) -/
  ctxDrawn : Bool
  /-- the dump held in the core's own buffer (R284) -/
  dumpBuf : List (BitVec 8)
  /-- signals on their way to device semaphores: semaphore and increment (R276) -/
  dsigs : List (Nat × Nat)
  /-- microseconds that have passed: one for each step on an empty queue (the model's own, log 1) -/
  us : Nat
  hlk : Hlk
  /-- tick flits sent at the last tick, by link (R476), and digest items sent at it (R382) (the model's record) -/
  tickFlits : List (Nat × TickPacket)
  items : List DigestItem
  /-- job reset: 0 none, 1 pending, 2 in progress; rows whose tile-row reset is pending; warm reset in progress
  (R485, R486) -/
  rstJob : Nat
  rstRows : BitVec 32
  rstWarm : Bool
  /-- the closed frame that awaits its verdict -/
  closed : Option Closed
  /-- Goose events of the open frame, in the order raised, and events carried into it (R372) -/
  events : List GEvent
  carried : List GEvent
deriving DecidableEq, Repr

/-- The hub's clocking after cold power-on: the first frame's predecessor ran at 1,600 MHz (R358). -/
def Clk.reset : Clk := ⟨1600, 0, 1600, 0, ⟨0, 1⟩, ⟨0, 1⟩, 0, ⟨0, 1⟩, ⟨0, 1⟩⟩

/-- The frame controller after cold power-on: no frame armed, the tick count not acquired. -/
def Frame.reset : Frame :=
  { commitReq := none, armed := none, released := false, walking := false, startAt := none,
    draining := false, safe := none, safeReq := false, holdover := none, tickDue := none,
    refused := none, openedHoldover := false, stopped := false, acquired := false, released4 := 0, slot := 0,
    carriedIn := false, parent := none, handover := 0 }

/-- The host link after reset: no owner, both rings disabled, neither port UP. -/
def Hlk.reset : Hlk := ⟨0, 0, [], none, 0, 0, 0, 0, [(0, 0), (1, 0)], []⟩

/-- Power after the return of the inputs: everything is off. -/
def Power.reset : Power := ⟨false, false, false, false, false, false, 0, 0, .off, none, 0, 0⟩

/-- The management side before P12V_SB is good, with an empty flash and secure element. -/
def Mgmt.reset : Mgmt :=
  { stage := 0, down := false, flash := [], selected := [], inForce := [], keys := [], counters := [], revoked := 0, lmsNext := 0,
    dev := 0, lmsBuilt := 0,
    spdm := ⟨0, [], none, []⟩, sensors := [], flock := 0, member := 0, slotOk := false, sent := [] }

/-- The machine after cold power-on. -/
def State.reset : State :=
  { pending := [], freeCount := 0, entropyCount := 0,
    part := { stepping := 2, serial := 0 }, regs := [(DMC_IDENT, 2)], regAnswer := (0, 0),
    shadow := [], hiLatch := [], spad := [], hbm := [], ddr := [], spadMark := [],
    hbmPoison := [], ddrPoison := [], spadErr := [], hbmErr := [], ddrErr := [], tiles := [],
    rowWords := [], frame := Frame.reset, routes := [], routesNext := none, twins := [],
    twinsNext := [], twinClear := false, entries := [], reqWait := [], sent := [], flight := [],
    answers := [], agp := [], power := Power.reset, mgmt := Mgmt.reset, tap := ⟨.bypass, [], [], none⟩,
    cands := [], viewAt := 0, electing := false, fab := ⟨[], [], [], [], [], [], 0⟩, clk := Clk.reset,
    regions := [], work := [], refresh := [],
    colls := [], colStarted := [], wpairs := [], shr := none, load := none, slotDigest := [], ctxOp := 0, ctxTick := 0, ctxMules := [],
    ctxKey := 0, bootNonce := 0, ctxDrawn := false, dumpBuf := [], us := 0, hlk := Hlk.reset, closed := none, tickFlits := [], items := [],
    rstJob := 0, rstRows := 0, rstWarm := false, dsigs := [], events := [], carried := [] }

end Sys2Proof.Machine
end

