-- ==== Sys2Proof/Machine/Ops.lean ====
section
/-! DEFINITION. The shared operations over State: registers, events, free values, the memories of
spaces 0 to 2, tiles and their scratchpad slices, semaphores and hazards. -/

namespace Sys2Proof.Machine

/-! ### Bit fields -/

/-- Bits `lo + w − 1` to `lo` of a word, as a number. -/
def fld (v : BitVec 32) (lo w : Nat) : Nat := (v.toNat / 2 ^ lo) % 2 ^ w

/-- One bit of a word. -/
def bit (v : BitVec 32) (i : Nat) : Bool := fld v i 1 == 1

/-- A word with bits `lo + w − 1` to `lo` replaced by `x`. -/
def setFld (v : BitVec 32) (lo w x : Nat) : BitVec 32 :=
  BitVec.ofNat 32 (v.toNat - fld v lo w * 2 ^ lo + (x % 2 ^ w) * 2 ^ lo)

/-- A Bool as bit `i` of a word. -/
def bitAt (b : Bool) (i : Nat) : BitVec 32 := if b then BitVec.ofNat 32 (2 ^ i) else 0

/-- A number from the low `n` bits taken as two's complement. -/
def signed (n x : Nat) : Int :=
  if x % 2 ^ n < 2 ^ (n - 1) then (x % 2 ^ n : Nat) else (x % 2 ^ n : Nat) - (2 ^ n : Nat)

/-- The little-endian number that a list of bytes spells (R10). -/
def leNat (bs : List (BitVec 8)) : Nat :=
  match bs with
  | [] => 0
  | b :: t => b.toNat + 256 * leNat t

/-- The `n` little-endian bytes of a number (R10). -/
def leBytes (n x : Nat) : List (BitVec 8) :=
  match n with
  | 0 => []
  | n + 1 => BitVec.ofNat 8 x :: leBytes n (x / 256)

/-! ### Registers -/

/-- The committed value of the register at an offset. -/
def State.reg (s : State) (off : Nat) : BitVec 32 := mapGet (regReset off) s.regs off

/-- Write the committed value of the register at an offset. -/
def State.setReg (s : State) (off : Nat) (v : BitVec 32) : State :=
  { s with regs := mapSet (regReset off) s.regs off v }

/-- Set bits of a register. -/
def State.orReg (s : State) (off : Nat) (v : BitVec 32) : State := s.setReg off (s.reg off ||| v)

/-- Write a field of a register. -/
def State.setRegFld (s : State) (off lo w x : Nat) : State := s.setReg off (setFld (s.reg off) lo w x)

/-- Add to a counter register; a counter stays at its largest value (DESIGN CHOICE, log 5). -/
def State.addReg (s : State) (off n : Nat) : State :=
  s.setReg off (BitVec.ofNat 32 (min ((s.reg off).toNat + n) (2 ^ 32 - 1)))

/-- Add 1 to a counter register. -/
def State.incReg (s : State) (off : Nat) : State := s.addReg off 1

/-- The 64-bit value of two consecutive registers (R34). -/
def State.reg64 (s : State) (lo : Nat) : BitVec 64 := (s.reg (lo + 4)) ++ (s.reg lo)

/-- Write a 64-bit value to two consecutive registers. -/
def State.setReg64 (s : State) (lo : Nat) (v : BitVec 64) : State :=
  (s.setReg lo (v.setWidth 32)).setReg (lo + 4) ((v >>> 32).setWidth 32)

/-- What software reads of an SH register: the value last written, committed or not (R14). -/
def State.shReg (s : State) (off : Nat) : BitVec 32 := (mapFind s.shadow off).getD (s.reg off)

/-- Drop the listed values of every register whose offset satisfies `p`: they hold their reset
values again. -/
def State.clearRegs (s : State) (p : Nat → Bool) : State := { s with regs := mapClear s.regs p }

/-! ### Free values -/

/-- The next free value (R8): its bits, and the state with the use counted. (DESIGN CHOICE, log 4) -/
def State.free (s : State) : Nat × State :=
  (Config.freeBits s.freeCount, { s with freeCount := s.freeCount + 1 })

/-! ### The shape of the part -/

/-- Active tiles: DMC_IDENT.TILES (R4). -/
def State.tileCount (s : State) : Nat := fld (s.reg DMC_IDENT) 8 11

/-- Used physical rows, one bit each (R30). -/
def State.rowMap (s : State) : Nat :=
  (s.reg DMC_ROWMAP_LO).toNat + fld (s.reg DMC_ROWMAP_HI) 0 4 * 2 ^ 32

/-- The used physical rows in ascending order (R27). -/
def State.usedRows (s : State) : List Nat :=
  (List.range 36).filter fun n => (s.rowMap / 2 ^ n) % 2 == 1

/-- The physical row of a logical row (R27). -/
def State.physRow (s : State) (lrow : Nat) : Nat := s.usedRows.getD lrow lrow

/-- The region of a physical tile (R31). -/
def regionOfPhys (row col : Nat) : Nat := 4 * (row / 3) + col / 8

/-- The region of a logical tile (R27, R31). -/
def State.tileRegion (s : State) (t : Nat) : Nat := regionOfPhys (s.physRow (t / 32)) (t % 32)

/-- Δt between two tiles: 12 + 8 × column distance + 10 × logical-row distance (R244, R269). -/
def tileDelta (t u : Nat) : Nat :=
  12 + 8 * (max (t % 32) (u % 32) - min (t % 32) (u % 32))
    + 10 * (max (t / 32) (u / 32) - min (t / 32) (u / 32))

/-! ### Tiles -/

def ctlReset : Ctl := ⟨0, [], [], [], [], false, 0⟩

def arrayReset : MxArray := ⟨[], [], [], [], false, 0, none, [], [], false⟩

def elemReset : Elem := ⟨0, .none⟩

def vecReset : Vec := ⟨[], [], [], [], none, [], [], none, []⟩

def rngReset : Rng := ⟨0, none⟩

def chanReset : Channel := ⟨0, 0, 0, 0, none, 0⟩

def muleReset : Mule :=
  ⟨[], 0, .halted, 0, 0, false, false, none, none, false, [], [], [], [], []⟩

/-- A tile as it stands after cold power-on. -/
def tileReset : Tile :=
  { ctl := ctlReset, imem := [], imemErr := [], staging := [], arrays := [], passes := [],
    unitDesc := 0, vec := vecReset, rng := [], chans := [], rowIn := [], mule := muleReset,
    msgSerial := 0, outstanding := [], held := [], fences := [], landings := [], sigs := [], landOpen := [],
    semRose := [], writeBacks := [], scrub := [], scrubBusy := false, taps := [], gated := false,
    inReset := false, portUse := [], broken := false, hazardSeen := false }

/-- The hidden state of a logical tile. -/
def State.tile (s : State) (t : Nat) : Tile := mapGet tileReset s.tiles t

/-- Replace the hidden state of a logical tile. -/
def State.setTile (s : State) (t : Nat) (x : Tile) : State :=
  { s with tiles := mapSet tileReset s.tiles t x }

/-- Change the hidden state of a logical tile. -/
def State.modTile (s : State) (t : Nat) (f : Tile → Tile) : State := s.setTile t (f (s.tile t))

/-- The current schedule cycle of a tile. -/
def State.cycle (s : State) (t : Nat) : Nat := (s.tile t).ctl.cycle

/-- Declared cycles C of the armed program (R48); 0 where none is armed. -/
def State.armedC (s : State) : Nat :=
  match s.frame.armed with
  | some p => (s.reg (FRM_PROG_CYCLES p)).toNat
  | none => 0

/-- Bit `t` of the 32-word tile mask that starts at an offset (R66). -/
def State.maskBit (s : State) (base t : Nat) : Bool := bit (s.reg (base + 4 * (t / 32))) (t % 32)

/-- Whether a tile is in the used-tile mask of the armed program. -/
def State.tileUsed (s : State) (t : Nat) : Bool :=
  match s.frame.armed with
  | some p => s.maskBit (FRM_USED p 0) t
  | none => false

/-- Whether a tile runs bundles of the open frame: cycle 0 has been released and the tile is used
(R170). -/
def State.tileRuns (s : State) (t : Nat) : Bool :=
  s.frame.released && s.tileUsed t && !(s.tile t).gated && !(s.tile t).inReset

/-- Whether a tile still has a bundle to issue in this frame (R170). -/
def State.tileIssues (s : State) (t : Nat) : Bool :=
  s.tileRuns t && decide (s.cycle t < s.armedC)

/-- Whether an event of a tile's scheduled units with due cycle `due` has come: in its cycle, or once
the last bundle has issued. -/
def State.dueNow (s : State) (t due : Nat) : Bool :=
  decide (due ≤ s.cycle t) || decide (s.armedC ≤ s.cycle t)

/-- Run a tile's command, or fault where the part has no such tile (R33). (DEDUCED, log 33) -/
def State.onTile (s : State) (t : Nat) (f : State → State) : Host.Outcome State Fault Refusal :=
  if t < s.tileCount then .next (f s) else .fault (.noSuchTile t)

/-! ### Goose events (R370 to R372) -/

/-- The code of an event kind (R371). -/
def evCode : EvKind → Nat
  | .check => 0x01 | .elastic => 0x02 | .poison => 0x03 | .eccUnc => 0x04 | .eccCorr => 0x05
  | .linkReplay => 0x06 | .colShort => 0x07 | .uncovered => 0x08 | .holdover => 0x09
  | .pairMissing => 0x0A | .muleLate => 0x10 | .muleFault => 0x11 | .badBundle => 0x12
  | .imemEcc => 0x13 | .hazard => 0x14 | .stream => 0x15 | .msgNack => 0x16 | .semSat => 0x17
  | .fabTimeout => 0x18 | .crossSlip => 0x19 | .clkDroop => 0x1A | .clkMon => 0x1B
  | .overrun => 0x1C | .armRefused => 0x1D | .pairMismatch => 0x1E | .colLockstep => 0x1F
  | .localSilent => 0x20 | .tickWatch => 0x21 | .safeStop => 0x22 | .pwrTrip => 0x30
  | .selftestFail => 0x31

/-- The class of an event kind (R371). -/
def evClass : EvKind → EvClass
  | .poison => .suspect | .pairMissing => .suspect
  | .eccCorr => .corrected | .linkReplay => .corrected | .colShort => .corrected
  | .uncovered => .conditional | .holdover => .conditional
  | .pwrTrip => .recordOnly | .selftestFail => .recordOnly
  | _ => .hard

/-- The record of the first hard event since cold power-on (R395, R396 GOS_REC_FAULT). -/
def recordFault (s : State) (e : GEvent) : State :=
  if bit (s.reg GOS_REC_FAULT) 31 then s
  else s.setReg GOS_REC_FAULT (BitVec.ofNat 32 (evCode e.kind + e.region * 2 ^ 8 + 2 ^ 31))

/-- Count an event in the local Goose of its region (R370, R397). -/
def localCount (s : State) (e : GEvent) : State :=
  match evClass e.kind with
  | .corrected => (s.orReg (GOS_L_EVENT e.region) 1).incReg (GOS_L_CORR e.region)
  | .suspect => (s.orReg (GOS_L_EVENT e.region) 2).incReg (GOS_L_SUSPECT e.region)
  | .hard => recordFault ((s.orReg (GOS_L_EVENT e.region) 4).incReg (GOS_L_HARD e.region)) e
  | .conditional => s
  | .recordOnly => recordFault s e

/-- Raise an event of the open frame (R372). -/
def State.raiseFrame (s : State) (e : GEvent) : State := { localCount s e with events := s.events ++ [e] }

/-- Raise an event of the closed frame, while its verdict is not formed (R372, R373). -/
def State.raiseClosed (s : State) (e : GEvent) : State :=
  { localCount s e with closed := s.closed.map fun c => { c with events := c.events ++ [e] } }

/-- Raise an event: the local Goose counts it, and the open frame holds it; during the drain of an overrun it
belongs to the frame that overran (R370, R372). -/
def State.raise (s : State) (e : GEvent) : State :=
  if s.frame.draining then
    { localCount s e with
      closed := s.closed.map fun c => if c.overrun then { c with events := c.events ++ [e] } else c }
  else s.raiseFrame e

/-- Raise an event of a tile in its current cycle. -/
def State.raiseTile (s : State) (t : Nat) (k : EvKind) (detail : Nat) : State :=
  s.raise ⟨k, s.tileRegion t, t, s.cycle t, detail⟩

/-- Raise an event of a region that has no tile (R516). -/
def State.raiseRegion (s : State) (r : Nat) (k : EvKind) (detail : Nat) : State :=
  s.raise ⟨k, r, 0, 0, detail⟩

/-- The kind of the event a newly set poison cause raises (R371). -/
def causeKind : Cause → EvKind
  | .check => .check
  | .ecc => .eccUnc
  | _ => .poison

/-- Raise the event of a newly set poison cause of a tile's unit (R82, R371). -/
def State.raiseCause (s : State) (t : Nat) (c : Cause) : State :=
  if c = .none then s else s.raiseTile t (causeKind c) (causeCode c)

/-! ### Hazards (R8, R196, R197) -/

/-- The code of a hazard (R196). -/
def hazardCode : Hazard → Nat
  | .readPending => 1 | .writeCollide => 2 | .bankConflict => 3 | .slotOverlap => 4
  | .queue => 5 | .format => 6 | .flow => 7

/-- What the hazard detector does with a report of tile `t` (R196, R197). -/
def hazardReport (s : State) (t : Nat) (h : Hazard) : State :=
  if bit (s.reg FRM_MODE) 2 then
    let s := s.incReg DBG_HZ_COUNT
    if (s.tile t).hazardSeen then s
    else
      let s1 := (s.modTile t fun x => { x with hazardSeen := true }).raiseTile t .hazard (hazardCode h)
      if bit (s.reg DBG_HZ_STATUS) 0 then s1
      else
        let s2 := (s1.setReg DBG_HZ_STATUS (BitVec.ofNat 32 (1 + hazardCode h * 16))).setReg DBG_HZ_TILE
          (BitVec.ofNat 32 t)
        let s3 := (s2.setReg DBG_HZ_CYCLE (BitVec.ofNat 32 (s.cycle t))).setReg DBG_HZ_PC
          ((s.tile t).ctl.pc.setWidth 32)
        s3.setReg64 DBG_HZ_TICK_LO (s.reg64 FRM_TICK_LO)
  else s

/-- A report that breaks no promise beyond the report: READ_PENDING and WRITE_COLLIDE, whose results
R132 defines. -/
def State.hazard (s : State) (t : Nat) (h : Hazard) : State := hazardReport s t h

/-- A broken scheduling promise: the report, and from here on in this frame what the tile's scheduled
units produce is undefined (R8). (DEDUCED, log 11) -/
def State.breakPromise (s : State) (t : Nat) (h : Hazard) : State :=
  (hazardReport s t h).modTile t fun x => { x with broken := true }

/-- A value that a tile's scheduled unit produces: itself, or a free value once the tile has broken a
promise in this frame (R8). -/
def State.produce (s : State) (t : Nat) (v : Nat) : Nat × State :=
  if (s.tile t).broken then s.free else (v, s)

/-- Take the general port (`feed` clear) or the feed port of a bank in a cycle (R233): a second
general access, or a third feed read, breaks the bank rule. (DEDUCED, log 114) -/
def State.takePort (s : State) (t cyc bank : Nat) (feed : Bool) : State :=
  let key := 32 * cyc + bank + (if feed then 16 else 0)
  let n := mapGet 0 (s.tile t).portUse key
  let s := s.modTile t fun x => { x with portUse := mapSet 0 x.portUse key (n + 1) }
  if (if feed then 2 else 1) ≤ n then s.breakPromise t .bankConflict else s

/-- Take the general port of every bank whose lines an access of `len` bytes at `off` touches. -/
def State.takePorts (s : State) (t cyc off len : Nat) : State :=
  if len = 0 then s
  else
    let l0 := off / 64
    let l1 := (off + len - 1) / 64
    (List.range (l1 - l0 + 1)).foldl (fun s i => s.takePort t cyc ((l0 + i) % 16) false) s

/-! ### Memory (R39, R41) -/

/-- What a byte that nothing has written reads as (DESIGN CHOICE, log 3). -/
def memDefault : BitVec 8 := 0

/-- One byte of a memory. -/
def memGet (m : List Host.Cell) (a : Nat) : BitVec 8 := mapGet memDefault m a

/-- Write one byte of a memory, keeping its canonical form. -/
def memSet (m : List Host.Cell) (a : Nat) (b : BitVec 8) : List Host.Cell := mapSet memDefault m a b

/-- `n` bytes of a memory from an address. -/
def memRead (m : List Host.Cell) (a : Nat) (n : Nat) : List (BitVec 8) :=
  (List.range n).map fun i => memGet m (a + i)

/-- Write bytes to a memory from an address. -/
def memWrite (m : List Host.Cell) (a : Nat) (bs : List (BitVec 8)) : List Host.Cell :=
  match bs with
  | [] => m
  | b :: t => memWrite (memSet m a b) (a + 1) t

/-- The canonical form of a memory: addresses strictly rising, no byte listed that reads as the
default. -/
def Memory.wf (m : List Host.Cell) : Bool := mapWf memDefault m

/-! ### The generator block over line words (R379) -/

/-- The four words of a generator block (R94). -/
def rngBlock (key : BitVec 128) (id : BitVec 32) (b : BitVec 62) : List (BitVec 32) :=
  (List.range 4).map fun i => rngDraw key id ((b.setWidth 64 <<< 2) ||| BitVec.ofNat 64 i)

/-- The hash of a line of a tap (R379): line index, the 64 bytes of the line, its mark. -/
def lineHash (o : Nat) (line : List (BitVec 8)) (mark : Nat) : BitVec 128 :=
  let x0 : List (BitVec 32) := [BitVec.ofNat 32 o, BitVec.ofNat 32 mark, 0x4E5A6F6F, 0]
  let x := (List.range 4).foldl (fun x i =>
    let g := fun n => x.getD n (0 : BitVec 32)
    let key := BitVec.ofNat 128 (leNat ((line.drop (16 * i)).take 16))
    let b : BitVec 62 := BitVec.ofNat 62 (((g 1).toNat % 2 ^ 30) * 2 ^ 32 + (g 0).toNat)
    let y := rngBlock key (g 2 ^^^ g 3) b
    let h := fun n => y.getD n (0 : BitVec 32)
    [h 0 ^^^ g 3, h 1 ^^^ g 2, h 2 ^^^ g 1, h 3 ^^^ g 0]) x0
  BitVec.ofNat 128 (x.foldr (fun w acc => w.toNat + 2 ^ 32 * acc) 0)

/-! ### Scratchpad slices (R232 to R237) -/

/-- Bytes of a slice. -/
def sliceBytes : Nat := 0x100000

/-- Offset in space 0 of a byte of a tile's slice (R41); addresses wrap within the slice. -/
def spadOff (t off : Nat) : Nat := t * sliceBytes + off % sliceBytes

/-- The 4-bit poison mark of a line: POISON and cause (R236). -/
def markBits (c : Cause) : Nat := if c = .none then 0 else 8 + causeCode c

/-- Queue a write-back of a corrected word; the fifth at a bank drops the oldest (R235). -/
def queueWriteBack (s : State) (t word : Nat) : State :=
  let bank := (word / 8) % 16
  let q := (s.tile t).writeBacks
  let mine := q.filter fun w => (w / 8) % 16 == bank
  if 4 ≤ mine.length then
    let s := (s.modTile t fun x => { x with writeBacks := q.erase (mine.headD 0) ++ [word] })
    (s.incReg (SPD_WB_DROP t)).orReg (SPD_EVENT t) 2
  else s.modTile t fun x => { x with writeBacks := q ++ [word] }

/-- What a slice read returns: bytes, the cause each byte carries, and whether a word was corrected. -/
structure SpadData where
  bytes : List (BitVec 8)
  causes : List Cause
  corrected : Bool
deriving DecidableEq, Repr

/-- The errors of one 8-byte word of a slice met by a read (R235): counters, events, marks and
write-backs; the cause a new uncorrectable error gives. -/
def spadWordErr (s : State) (t word : Nat) : State × Cause × Bool :=
  let g := t * (sliceBytes / 8) + word
  let line := t * (sliceBytes / 64) + word / 8
  match mapFind s.spadErr g with
  | none => (s, .none, false)
  | some .single =>
    (queueWriteBack ((s.incReg (SPD_ECC_CORR t)).raiseTile t .eccCorr 0) t word, .none, true)
  | some .double =>
    if mapGet Cause.none s.spadMark line = .none then
      let s := { s with spadMark := mapSet Cause.none s.spadMark line .ecc }
      let s := (s.incReg (SPD_ECC_UNC t)).setReg (SPD_UNC_LINE t)
        (BitVec.ofNat 32 ((word / 8 % 16384) * 64 + 2 ^ 31))
      ((s.orReg (SPD_EVENT t) 1).raiseTile t .eccUnc 7, .ecc, false)
    else (s, .none, false)

/-- Read bytes of a tile's slice (R235, R236). -/
def State.spadRead (s : State) (t off n : Nat) : State × SpadData :=
  let off := off % sliceBytes
  let words := if n = 0 then [] else
    (List.range ((off + n - 1) / 8 - off / 8 + 1)).map fun i => (off / 8 + i) % (sliceBytes / 8)
  let marks0 := s.spadMark
  let (s, unc, corr) := words.foldl (fun (acc : State × List Nat × Bool) w =>
    let (s, c, k) := spadWordErr acc.1 t w
    (s, (if c = .none then acc.2.1 else w :: acc.2.1), acc.2.2 || k)) (s, [], false)
  let cause := fun i =>
    let o := (off + i) % sliceBytes
    let m := mapGet Cause.none marks0 (t * (sliceBytes / 64) + o / 64)
    if m = .none then (if unc.contains (o / 8) then Cause.ecc else .none) else m
  (s, ⟨(List.range n).map fun i => memGet s.spad (spadOff t (off + i)),
    (List.range n).map cause, corr⟩)

/-- Add a written line to the running digests of the tile's active taps (R379). -/
def tapLine (s : State) (t line : Nat) : State :=
  match s.frame.armed with
  | none => s
  | some p =>
    (List.range 4).foldl (fun s k =>
      let w0 := s.reg (GOS_TAP t k 0)
      let w1 := s.reg (GOS_TAP t k 1)
      let base := fld w1 0 14
      if fld w0 6 2 ≠ 0 ∧ fld w0 0 6 = p ∧ base ≤ line ∧ line < base + fld w1 16 15 then
        let bytes := memRead s.spad (t * sliceBytes + line * 64) 64
        let mark := markBits (mapGet Cause.none s.spadMark (t * (sliceBytes / 64) + line))
        let h := lineHash (line - base) bytes mark
        s.modTile t fun x => { x with taps := mapSet 0 x.taps k (mapGet 0 x.taps k + h) }
      else s) s

/-- The part of a write that falls in one line: bytes, mark, errors, write-backs, digest (R235, R236,
R379). `cause` is the cause of the poisoned elements the write carries, none where it carries none. -/
def spadWriteLine (s : State) (t off : Nat) (bs : List (BitVec 8)) (cause : Cause) : State :=
  let line := off / 64
  let gl := t * (sliceBytes / 64) + line
  let n := bs.length
  let words := (List.range 8).map fun i => 8 * line + i
  let whole := words.filter fun w => decide (off ≤ 8 * w) && decide (8 * w + 8 ≤ off + n)
  let old := mapGet Cause.none s.spadMark gl
  let mark := if n = 64 then cause else causeJoin old cause
  let s := { s with
    spad := memWrite s.spad (t * sliceBytes + off) bs
    spadMark := mapSet Cause.none s.spadMark gl mark
    spadErr := whole.foldl (fun m w => mapDel m (t * (sliceBytes / 8) + w)) s.spadErr }
  let s := s.modTile t fun x =>
    { x with writeBacks := x.writeBacks.filter fun w => !whole.contains w }
  tapLine s t line

/-- Write bytes to a tile's slice, line by line; byte `i` carries poison cause `cs[i]`, none beyond the
list (R232, R236). -/
def State.spadWrite (s : State) (t off : Nat) (bs : List (BitVec 8)) (cs : List Cause) : State :=
  let off := off % sliceBytes
  if bs.isEmpty then s
  else
    let l0 := off / 64
    let l1 := (off + bs.length - 1) / 64
    (List.range (l1 - l0 + 1)).foldl (fun s i =>
      let a := max off ((l0 + i) * 64)
      let b := min (off + bs.length) ((l0 + i + 1) * 64)
      spadWriteLine s t (a % sliceBytes) ((bs.drop (a - off)).take (b - a))
        (causeJoinAll ((cs.drop (a - off)).take (b - a)))) s

/-- Write bytes that a scheduled unit produces: free bytes once the tile has broken a promise in this
frame (R8). -/
def State.spadProduce (s : State) (t off : Nat) (bs : List (BitVec 8)) (cs : List Cause) : State :=
  let (v, s) := s.produce t (leNat bs)
  s.spadWrite t off (leBytes bs.length v) cs

/-! ### Semaphores (R155, R156, R272, R276) -/

/-- The value of a tile semaphore. -/
def State.sem (s : State) (t n : Nat) : Nat := fld (s.reg (SYN_SEM t n)) 0 16

/-- Give a tile semaphore a value. -/
def State.setSem (s : State) (t n v : Nat) : State := s.setReg (SYN_SEM t n) (BitVec.ofNat 32 v)

/-- Add an increment to a tile semaphore, saturating at 65,535 (R276); the tile notes the cycle in
which it rises from 0 (R156). -/
def State.signalSem (s : State) (t n inc : Nat) : State :=
  let v := s.sem t n
  let s1 := s.setSem t n (min (v + inc) 65535)
  let s2 := if v = 0 ∧ 0 < inc then
      s1.modTile t fun x => { x with semRose := mapPut x.semRose n x.ctl.cycle }
    else s1
  if 65535 < v + inc then
    ((s2.orReg (SYN_EVENT t) 1).setReg (SYN_SAT t) (BitVec.ofNat 32 n)).raiseTile t .semSat n
  else s2

/-- Take 1 from a tile semaphore that is at least 1. -/
def State.takeSem (s : State) (t n : Nat) : State := s.setSem t n (s.sem t n - 1)

/-- The value of a device semaphore. -/
def State.dsem (s : State) (n : Nat) : Nat := fld (s.reg (SYN_DSEM n)) 0 16

/-- Give a device semaphore a value. -/
def State.setDsem (s : State) (n v : Nat) : State := s.setReg (SYN_DSEM n) (BitVec.ofNat 32 v)

/-- Add an increment to a device semaphore, saturating at 65,535 (R276). -/
def State.signalDsem (s : State) (n inc : Nat) : State :=
  let v := s.dsem n
  let s1 := s.setDsem n (min (v + inc) 65535)
  if 65535 < v + inc then
    ((s1.orReg SYN_DEVENT 1).setReg SYN_DSAT (BitVec.ofNat 32 n)).raiseRegion 61 .semSat n
  else s1

end Sys2Proof.Machine
end

