-- ==== Sys2Proof/Machine/Control.lean ====
section
/-! DEFINITION. The control slot (R171, R172, R177 to R180): loop counters, repeat blocks, jumps,
comparators and END, as effects on a tile's control state. -/

namespace Sys2Proof.Machine

/-- Loop counter k. -/
def ctlK (c : Ctl) (k : Nat) : BitVec 16 := mapGet 0 c.k k

/-- Iteration index j. -/
def ctlJ (c : Ctl) (k : Nat) : BitVec 16 := mapGet 0 c.j k

/-- Comparator q. -/
def ctlQ (c : Ctl) (q : Nat) : Bool := mapGet false c.q q

/-- Set loop counter k. -/
def ctlSetK (c : Ctl) (k : Nat) (v : BitVec 16) : Ctl := { c with k := mapSet 0 c.k k v }

/-- Set iteration index j. -/
def ctlSetJ (c : Ctl) (k : Nat) (v : BitVec 16) : Ctl := { c with j := mapSet 0 c.j k v }

/-- Whether a repeat block on counter k is active. -/
def ctlActive (c : Ctl) (k : Nat) : Bool := c.reps.any fun b => b.counter == k

/-- Whether the bundle at the pc is the last of an active body. -/
def ctlAtBodyEnd (c : Ctl) : Bool := c.reps.any fun b => b.last == c.pc.toNat

/-- KSET: k = IMM16, j = 0 (R178, R177). -/
def ctlKset (c : Ctl) (k : Nat) (imm : BitVec 16) : Ctl := ctlSetJ (ctlSetK c k imm) k 0

/-- REP at the pc (R179): open a repeat block, or skip the body. -/
def ctlRep (c : Ctl) (k len : Nat) : Ctl :=
  let a := c.pc.toNat
  let c := ctlSetJ c k 0
  if ctlK c k = 0 ∨ len = 0 then
    { ctlSetK c k 0 with pc := BitVec.ofNat 11 (a + len + 1) }
  else { c with reps := ⟨k, a + 1, a + len⟩ :: c.reps, pc := BitVec.ofNat 11 (a + 1) }

/-- The end of an iteration of every block whose body ends at address `a`, innermost first
(R179, R180). -/
def ctlIterEnd (reps : List RepBlock) (a : Nat) (c : Ctl) : Ctl :=
  match reps with
  | [] => { c with reps := [] }
  | b :: rest =>
    if b.last = a then
      let c := ctlSetJ (ctlSetK c b.counter (ctlK c b.counter - 1)) b.counter
        (ctlJ c b.counter + 1)
      if ctlK c b.counter = 0 then
        ctlIterEnd rest a { c with pc := BitVec.ofNat 11 (b.last + 1) }
      else { c with reps := b :: rest, pc := BitVec.ofNat 11 b.first }
    else { c with reps := b :: rest }

/-- QCMP: q_Q = (k_K REL IMM16), unsigned (R178). -/
def ctlQcmp (c : Ctl) (q k rel : Nat) (imm : BitVec 16) : Ctl :=
  let v := ctlK c k
  let r := match rel with
    | 0 => v == imm
    | 1 => v != imm
    | 2 => decide (v.toNat < imm.toNat)
    | _ => decide (imm.toNat ≤ v.toNat)
  { c with q := mapSet false c.q q r }

/-- Whether a taken jump to `target` leaves the innermost active body, or sits in the last bundle of
an active body (R180). -/
def ctlJumpBreaks (c : Ctl) (target : Nat) : Bool :=
  match c.reps with
  | [] => false
  | b :: _ => !(decide (b.first ≤ target) && decide (target ≤ b.last))

/-- END: empty bundles from here on, the blocks abandoned (R178, R180). -/
def ctlEnd (c : Ctl) : Ctl := { c with ended := true, reps := [] }

/-- A tile's control state at cycle 0 of a frame (R171). -/
def ctlStart (entry : BitVec 11) : Ctl := { ctlReset with pc := entry }

/-- Change the control state of a tile. -/
def State.modCtl (s : State) (t : Nat) (f : Ctl → Ctl) : State :=
  s.modTile t fun x => { x with ctl := f x.ctl }

/-- A violation of R180: the report, and a pc that is undefined from here on. -/
def flowBreak (s : State) (t : Nat) : State :=
  let (v, s) := (s.breakPromise t .flow).free
  s.modCtl t fun c => { c with pc := BitVec.ofNat 11 v }

/-- KSET on a tile; on a counter whose block is active it breaks a promise (R180). -/
def kset (s : State) (t k : Nat) (imm : BitVec 16) : State :=
  let s1 := s.modCtl t fun c => ctlKset c k imm
  if ctlActive (s.tile t).ctl k then flowBreak s1 t else s1

/-- REP on a tile, with the promises of R180. -/
def rep (s : State) (t k len : Nat) : State :=
  let c := (s.tile t).ctl
  let s1 := s.modCtl t fun c => ctlRep c k len
  let opens := ctlK c k ≠ 0 ∧ len ≠ 0
  if ctlActive c k ∨ ctlAtBodyEnd c ∨ (opens ∧ 2047 < c.pc.toNat + len) then flowBreak s1 t else s1

/-- A jump that is taken. -/
def jump (s : State) (t : Nat) (target : BitVec 11) : State :=
  let c := (s.tile t).ctl
  let s1 := s.modCtl t fun c => { c with pc := target }
  if ctlJumpBreaks c target.toNat then flowBreak s1 t else s1

/-- JMP (R178). A jump in the last bundle of an active body breaks a promise (R180). -/
def jmp (s : State) (t : Nat) (target : BitVec 11) : State :=
  let s1 := jump s t target
  if ctlAtBodyEnd (s.tile t).ctl then flowBreak s1 t else s1

/-- JQ (R178): jumps when comparator q is set, else the next bundle follows. -/
def jq (s : State) (t q : Nat) (target : BitVec 11) : State :=
  let c := (s.tile t).ctl
  let s1 := if ctlQ c q then jump s t target else s.modCtl t fun c => { c with pc := c.pc + 1 }
  if ctlAtBodyEnd c then flowBreak s1 t else s1

/-- QCMP on a tile. -/
def qcmp (s : State) (t q k rel : Nat) (imm : BitVec 16) : State :=
  s.modCtl t fun c => ctlQcmp c q k rel imm

/-- END on a tile. -/
def endProgram (s : State) (t : Nat) : State := s.modCtl t ctlEnd

/-- The end of an iteration of the repeat blocks whose body ends at the current bundle. -/
def repIterationEnd (s : State) (t : Nat) : State :=
  s.modCtl t fun c => ctlIterEnd c.reps c.pc.toNat c

/-- A tile's command that acts in a bundle of its own: it acts while the tile has a bundle to issue
(R170). -/
def onIssue (s : State) (t : Nat) (f : State → State) : Host.Outcome State Fault Refusal :=
  s.onTile t fun s => if s.tileIssues t then f s else s

/-- A malformed bundle (R175). (DEDUCED, log 31) -/
def badBundle (s : State) (t : Nat) : State :=
  (s.orReg (TIL_EVENT t) 1).raiseTile t .badBundle 0

/-- A slot's operation as a command: reserved field values act as in a malformed bundle (R175). (DEDUCED, log 119) -/
def onSlot (s : State) (t : Nat) (bad : Bool) (f : State → State) : Host.Outcome State Fault Refusal :=
  onIssue s t fun s => if bad then badBundle s t else f s

/-- The reserved values of an IND field (R177). -/
def indReserved (ind : BitVec 3) : Bool := decide (1 ≤ ind.toNat) && decide (ind.toNat ≤ 3)

/-- KSET (R178). -/
def execKset (t : Nat) (k : BitVec 2) (imm : BitVec 16) (s : State) : Host.Outcome State Fault Refusal :=
  onIssue s t fun s => kset s t k.toNat imm

/-- REP (R179). -/
def execRep (t : Nat) (k : BitVec 2) (len : BitVec 10) (s : State) : Host.Outcome State Fault Refusal :=
  onIssue s t fun s => rep s t k.toNat len.toNat

/-- REP_ITERATION_END (R179, R180). -/
def execRepIterationEnd (t : Nat) (s : State) : Host.Outcome State Fault Refusal :=
  onIssue s t fun s => repIterationEnd s t

/-- JMP (R178). -/
def execJmp (t : Nat) (target : BitVec 11) (s : State) : Host.Outcome State Fault Refusal :=
  onIssue s t fun s => jmp s t target

/-- JQ (R178). -/
def execJq (t : Nat) (q : BitVec 2) (target : BitVec 11) (s : State) : Host.Outcome State Fault Refusal :=
  onIssue s t fun s => jq s t q.toNat target

/-- QCMP (R178). -/
def execQcmp (t : Nat) (q k rel : BitVec 2) (imm : BitVec 16) (s : State) :
    Host.Outcome State Fault Refusal :=
  onIssue s t fun s => qcmp s t q.toNat k.toNat rel.toNat imm

/-- END (R178). -/
def execEnd (t : Nat) (s : State) : Host.Outcome State Fault Refusal :=
  onIssue s t fun s => endProgram s t

end Sys2Proof.Machine
end

