-- ==== Sys2Proof/Machine/Operands.lean ====
section
/-! DEFINITION. Operand forms the units share: generator draws (R94 to R99), fields of pass and
stream descriptors (R109, R239), stepping latencies (R112, R133, R192, R194). -/

namespace Sys2Proof.Machine

/-! ### Latencies -/

/-- The A1 and B0 latencies of a family and its pin bit (R192). -/
structure Latency where
  a1 : Nat
  b0 : Nat
  pin : Option Nat
deriving DecidableEq, Repr

/-- The latency of a family on a tile: the A1 value on an A1 module or where the committed TIL_LATPIN
pins the family (R194). -/
def State.latency (s : State) (t : Nat) (l : Latency) : Nat :=
  if fld (s.reg DMC_IDENT) 0 4 = 1 then l.a1
  else match l.pin with
    | some b => if bit (s.reg (TIL_LATPIN t)) b then l.a1 else l.b0
    | none => l.b0

/-- MXA_DRAIN_N (R112, R192). -/
def latDrainN : Latency := ⟨12, 9, some 0⟩

/-- The latency of a vector operation by its VOP, axis and kind (R133, R192): `axis` is the AXIS
field of VRED and VSCAN. -/
def vecLatency (vop axis : Nat) : Latency :=
  if vop ≤ 0x0B then ⟨4, 4, none⟩
  else if vop ≤ 0x1A then ⟨2, 2, none⟩
  else match vop with
    | 0x20 => ⟨3, 3, none⟩
    | 0x21 => ⟨9, 7, some 1⟩ | 0x22 => ⟨9, 7, some 1⟩
    | 0x23 => ⟨10, 8, some 2⟩ | 0x24 => ⟨10, 8, some 2⟩
    | 0x25 => ⟨8, 6, some 3⟩ | 0x26 => ⟨8, 6, some 3⟩
    | 0x27 => ⟨12, 10, some 4⟩
    | 0x28 => ⟨11, 9, some 5⟩ | 0x29 => ⟨11, 9, some 5⟩
    | 0x2A => ⟨13, 11, some 6⟩
    | 0x2B => ⟨12, 10, some 7⟩ | 0x2C => ⟨12, 10, some 7⟩
    | 0x30 => ⟨6, 6, none⟩ | 0x31 => ⟨6, 6, none⟩
    | 0x32 => ⟨34, 28, some 8⟩
    | 0x38 => if axis = 0 then ⟨22, 18, some 9⟩ else ⟨18, 15, some 10⟩
    | 0x39 => if axis = 0 then ⟨26, 24, some 11⟩
              else if axis = 1 then ⟨22, 20, some 12⟩ else ⟨44, 40, some 13⟩
    | 0x3A => ⟨48, 44, some 14⟩
    | 0x3C => ⟨24, 21, some 15⟩
    | 0x3D => ⟨10, 8, some 16⟩
    | 0x40 => ⟨2, 2, none⟩
    | 0x41 => ⟨5, 5, none⟩
    | 0x42 => ⟨12, 9, some 17⟩
    | 0x48 => ⟨6, 6, none⟩
    | 0x49 => ⟨5, 5, none⟩
    | _ => ⟨4, 4, none⟩

/-! ### Generator draws -/

/-- BIND of a stream (R96, R101): 0 FREE, 1 BOUND, 2 CHECKED. -/
def State.rngBind (s : State) (t n : Nat) : Nat := fld (s.reg (VEC_RNG_CFG t n)) 4 2

/-- A stream of a tile. -/
def State.rngOf (s : State) (t n : Nat) : Rng := mapGet rngReset (s.tile t).rng n

/-- The key of a stream: from the entropy source, or from its seed slot (R94, R96, R99). -/
def State.rngKey (s : State) (t n : Nat) : BitVec 128 :=
  let cfg := s.reg (VEC_RNG_CFG t n)
  let seed := fld cfg 0 2
  let slot := s.reg (VEC_RNG_SEED t seed 3) ++ s.reg (VEC_RNG_SEED t seed 2)
    ++ s.reg (VEC_RNG_SEED t seed 1) ++ s.reg (VEC_RNG_SEED t seed 0)
  if bit cfg 2 then ((s.rngOf t n).hwKey).getD slot else slot

/-- A channel of a tile. -/
def State.chan (s : State) (t c : Nat) : Channel := mapGet chanReset (s.tile t).chans c

/-- Replace a channel of a tile. -/
def State.setChan (s : State) (t c : Nat) (x : Channel) : State :=
  s.modTile t fun y => { y with chans := mapSet chanReset y.chans c x }

/-- The cursor base of the latest run issued on a channel in an earlier cycle (R238). -/
def State.cursorBase (s : State) (t c : Nat) : BitVec 64 :=
  let ch := s.chan t c
  if ch.baseCycle = s.cycle t then ch.basePrev else ch.base

/-- The draws that elements `e0` to `e0 + elems − 1` take, `n` each, from stream `k` (R96, R97): a FREE
or CHECKED stream from its position, which advances; a BOUND stream from the cursor `base` of its
channel; 0 where the stream is not enabled. -/
def State.draws (s : State) (t k : Nat) (base : BitVec 64) (e0 elems n : Nat) : List Nat × State :=
  let cfg := s.reg (VEC_RNG_CFG t k)
  let id := s.reg (VEC_RNG_ID t k)
  let key := s.rngKey t k
  if !bit cfg 31 then (List.replicate (elems * n) 0, s)
  else if fld cfg 4 2 = 1 then
    let pos := s.reg64 (VEC_RNG_POS_LO t k)
    let stride := fld cfg 8 8
    ((List.range (elems * n)).map fun i =>
      let c := base + BitVec.ofNat 64 (e0 + i / n)
      (rngDraw key id (pos + c * BitVec.ofNat 64 stride + BitVec.ofNat 64 (i % n))).toNat, s)
  else
    let r := s.rngOf t k
    let r' : Rng := { r with cur := r.cur + BitVec.ofNat 64 (elems * n) }
    ((List.range (elems * n)).map fun i => (rngDraw key id (r.cur + BitVec.ofNat 64 i)).toNat,
      s.modTile t fun x => { x with rng := mapSet rngReset x.rng k r' })

/-! ### Pass descriptors (R109) -/

/-- The four classes of R72. -/
inductive PassClass where
  | fp8 | mxfp4 | int8 | bf16
deriving DecidableEq, Repr

/-- The class of a pair of format codes, none where they form no class (R72). -/
def passClass (afmt wfmt : Nat) : Option PassClass :=
  if afmt ≤ 3 ∧ wfmt ≤ 3 then some .fp8
  else if afmt = 4 ∧ wfmt = 4 then some .mxfp4
  else if afmt = 5 ∧ wfmt = 5 then some .int8
  else if afmt = 6 ∧ wfmt = 6 then some .bf16
  else none

/-- Weight rows per step (R104). -/
def rowsPerStep : PassClass → Nat
  | .mxfp4 => 64
  | _ => 32

/-- Step spacing τ (R104). -/
def stepSpacing : PassClass → Nat
  | .bf16 => 2
  | _ => 1

/-- Block capacity in weight rows (R105). -/
def passCapacity : PassClass → Nat
  | .mxfp4 => 2048
  | _ => 1024

/-- Bytes of one weight row (R245). -/
def weightRowBytes : PassClass → Nat
  | .mxfp4 => 16
  | .bf16 => 64
  | _ => 32

/-- Bytes of one row of an activation block (R106). -/
def blockRowBytes : PassClass → Nat
  | .bf16 => 64
  | _ => 32

/-- Scale bytes of a block of format code `f` (R106). -/
def scaleBytes (f : Nat) : Nat :=
  match f with
  | 2 => 32 | 3 => 32 | 4 => 64 | _ => 0

def passWord (p : Pass) (i : Nat) : BitVec 32 := p.words.getD i 0

def passAfmt (p : Pass) : Nat := fld (passWord p 0) 0 4
def passWfmt (p : Pass) : Nat := fld (passWord p 0) 4 4
def passK (p : Pass) : Nat := fld (passWord p 0) 8 12
def passN (p : Pass) : Nat := fld (passWord p 0) 20 6
def passClear (p : Pass) : Bool := bit (passWord p 0) 26
def passKeep (p : Pass) : Bool := bit (passWord p 0) 27
def passAmask (p : Pass) : Nat := fld (passWord p 0) 28 4
def passWin (p : Pass) : BitVec 10 := BitVec.ofNat 10 (fld (passWord p 1) 0 10)
def passDrain (p : Pass) : Nat := fld (passWord p 1) 10 2
def passOfmt (p : Pass) : Nat := fld (passWord p 1) 12 4
def passRnd (p : Pass) : Rnd := (rndOfCode (fld (passWord p 1) 16 3)).getD .rne
def passRstream (p : Pass) : Nat := fld (passWord p 1) 19 3
def passDest (p : Pass) : Bool := bit (passWord p 1) 22
def passWsrc (p : Pass) : Bool := bit (passWord p 1) 23
def passWch (p : Pass) : Nat := fld (passWord p 1) 24 2
def passAccload (p : Pass) : Bool := bit (passWord p 1) 26

/-- The activation block address of array `a` (R109). -/
def passAddrA (p : Pass) (a : Nat) : Nat := fld (passWord p 2) 0 20 + 64 * a * fld (passWord p 2) 20 12

/-- The output address of array `a` (R109). -/
def passAddrO (p : Pass) (a : Nat) : Nat := fld (passWord p 3) 0 20 + 64 * a * fld (passWord p 3) 20 12

/-- The class of a pass; a pass with none breaks a promise at its start (R110). -/
def passCls (p : Pass) : PassClass := (passClass (passAfmt p) (passWfmt p)).getD .fp8

/-- Steps of a pass (R104); a pass of no weight rows occupies one issue cycle (R111). -/
def passSteps (p : Pass) : Nat := max 1 ((passK p + rowsPerStep (passCls p) - 1) / rowsPerStep (passCls p))

/-- The issue cycle of step `n` (R112). -/
def passIssue (p : Pass) (n : Nat) : Nat := p.issue0 + n * stepSpacing (passCls p)

/-- The cycle U of the last step (R112). -/
def passLastU (p : Pass) : Nat := passIssue p (passSteps p - 1) + 36

/-- The cycle V of a BF16 pass (R112). -/
def passV (p : Pass) : Nat := passIssue p (passSteps p - 1) + 69

/-- The arrays that run a pass. -/
def passArrays (p : Pass) : List Nat := (List.range 4).filter fun a => (passAmask p / 2 ^ a) % 2 == 1

/-- Bytes an output of `n` columns in format code `f` takes (R120). -/
def outputBytes (drain f n : Nat) : Nat :=
  if drain = 2 then 16 * n
  else match f with
    | 4 => (n + 1) / 2 + 1
    | 2 => n + 1
    | 3 => n + 1
    | 6 => 2 * n
    | 7 => 4 * n
    | 8 => 4 * n
    | _ => n

/-- Whether four descriptor words meet a condition of R110, and the word that first does. -/
def descBad (w : Nat → BitVec 32) : Option Nat :=
  let cls := passClass (fld (w 0) 0 4) (fld (w 0) 4 4)
  let k := fld (w 0) 8 12
  let n := fld (w 0) 20 6
  let amask := fld (w 0) 28 4
  let drain := fld (w 1) 10 2
  let ofmt := fld (w 1) 12 4
  let bf := cls == some .bf16
  let accload := bit (w 1) 26
  let keep := bit (w 0) 27
  let last := fun (base stride len : Nat) => (List.range 4).any fun a =>
    (amask / 2 ^ a) % 2 == 1 && decide (sliceBytes < base + 64 * a * stride + len)
  let blockLen := match cls with
    | some c => 32 * blockRowBytes c + scaleBytes (fld (w 0) 0 4)
    | none => 0
  let outLen := if accload then max 512 (if drain = 0 then 0 else outputBytes drain ofmt n)
    else if drain = 0 ∨ !bit (w 1) 22 then 0 else outputBytes drain ofmt n
  let bad0 := cls.isNone || (match cls with | some c => decide (passCapacity c < k) | none => false)
    || decide (32 < n) || (bit (w 0) 26 && accload)
  let bad1 := drain == 3 || decide (5 ≤ fld (w 1) 16 3) || (drain == 1 && decide (9 ≤ ofmt))
    || (drain == 2 && bf) || (!bit (w 1) 22 && drain == 1 && ofmt != 7)
    || (accload && bf) || fld (w 1) 27 5 != 0
  let bad2 := fld (w 2) 0 20 % 64 != 0
    || (!keep && last (fld (w 2) 0 20) (fld (w 2) 20 12) blockLen)
  let bad3 := fld (w 3) 0 20 % 64 != 0 || last (fld (w 3) 0 20) (fld (w 3) 20 12) outLen
  if bad0 then some 0 else if bad1 then some 1 else if bad2 then some 2 else if bad3 then some 3
  else none

/-! ### Reads of lines with a result pending (R132, R196) -/

/-- Whether a pending result writes a line that `len` bytes at `off` touch. -/
def landsSpad (off len : Nat) (p : Pending) : Bool :=
  match p.what with
  | .spad o bs _ => decide (o / 64 ≤ (off + len - 1) / 64) && decide (off / 64 ≤ (o + bs.length - 1) / 64)
  | _ => false

/-- Whether a drain that a pass will still write touches those lines. -/
def drainsSpad (off len : Nat) (p : Pass) : Bool :=
  p.copied && passDest p && !p.drained && (passDrain p == 1 || passDrain p == 2) && (passArrays p).any fun a =>
    let o := passAddrO p a
    let n := outputBytes (passDrain p) (passOfmt p) (passN p)
    decide (o / 64 ≤ (off + len - 1) / 64) && decide (off / 64 ≤ (o + n - 1) / 64)

/-- Report READ_PENDING where a slot reads lines with a result of the tile still pending. -/
def spadHazard (s : State) (t off len : Nat) : State :=
  if len = 0 then s
  else if (s.tile t).vec.pending.any (landsSpad off len) || (s.tile t).passes.any (drainsSpad off len) then
    s.hazard t .readPending
  else s

/-! ### Stream descriptors (R239) -/

def descMode (w : List (BitVec 32)) : Nat := fld (w.getD 0 0) 0 2
def descDir (w : List (BitVec 32)) : Bool := bit (w.getD 0 0) 2
def descBe (w : List (BitVec 32)) : Bool := bit (w.getD 0 0) 3
def descOrd (w : List (BitVec 32)) : Bool := bit (w.getD 0 0) 4
def descIfmt (w : List (BitVec 32)) : Bool := bit (w.getD 0 0) 5
def descRowdir (w : List (BitVec 32)) : Bool := bit (w.getD 0 0) 6
def descRestart (w : List (BitVec 32)) : Bool := bit (w.getD 0 0) 7
def descReach (w : List (BitVec 32)) : Nat := fld (w.getD 0 0) 8 5
def descXfer (w : List (BitVec 32)) : Nat := fld (w.getD 0 0) 16 16
def descLaddr (w : List (BitVec 32)) : Nat := fld (w.getD 1 0) 0 20
def descRsize (w : List (BitVec 32)) : Nat := fld (w.getD 2 0) 0 16
def descIdx (w : List (BitVec 32)) : Nat := fld (w.getD 2 0) 16 14 * 64
def descCount (w : List (BitVec 32)) : Nat := fld (w.getD 3 0) 0 24
def descFaddr (w : List (BitVec 32)) : Nat := (w.getD 4 0).toNat + 2 ^ 32 * (w.getD 5 0).toNat
def descFstride (w : List (BitVec 32)) : Nat := (w.getD 6 0).toNat
def descTrows (w : List (BitVec 32)) : Nat := (w.getD 7 0).toNat

/-- The committed words of descriptor `d` of channel `c` (R239). -/
def State.strDesc (s : State) (t c d : Nat) : List (BitVec 32) :=
  (List.range 8).map fun w => s.reg (STR_DESC t c d w)

end Sys2Proof.Machine
end

