-- ==== Sys2Proof/Machine/Matrix.lean ====
section
/-! DEFINITION. The matrix unit (R103 to R123): the start of a pass, its steps, the exact and BF16
accumulation, the checksum comparison and the drain. -/

namespace Sys2Proof.Machine

/-! ### Arrays and passes of a tile -/

/-- Array `a` of a tile. -/
def State.array (s : State) (t a : Nat) : MxArray := mapGet arrayReset (s.tile t).arrays a

/-- Replace array `a` of a tile. -/
def State.setArray (s : State) (t a : Nat) (x : MxArray) : State :=
  s.modTile t fun y => { y with arrays := mapSet arrayReset y.arrays a x }

/-- Replace the pass at place `i` of those in flight. -/
def State.setPass (s : State) (t i : Nat) (p : Pass) : State :=
  s.modTile t fun x => { x with passes := x.passes.set i p }

/-- A cleared accumulator that nothing has written. -/
def accReset : Wide := wideClear 0

/-- A corrected read reaches cell row `r` one cycle late, in cycle `x` (R114). -/
def lagRow (m : MxArray) (x r : Nat) : MxArray := { m with lateDue := m.lateDue ++ [(x, r)] }

/-- The greatest lag of an array's cell rows (R115). -/
def maxLag (m : MxArray) : Nat := m.lag.foldl (fun n e => max n e.2) 0

/-- Raise a newly set poison cause of an array: MXA_EVENT, and the Goose event once in the pass
(R82, R123). -/
def raiseArrayCause (s : State) (t a : Nat) (p : Pass) (c : Cause) : State × Pass :=
  if c = .none ∨ p.raised.contains (a, c) then (s, p)
  else ((s.orReg (MXA_EVENT t a) (BitVec.ofNat 32 (2 ^ (causeCode c - 1)))).raiseCause t c,
    { p with raised := p.raised ++ [(a, c)] })

/-! ### The activation block (R106 to R108) -/

/-- Elements of a row of bytes: two nibble pairs stay a byte, BF16 takes two bytes (R106). -/
def rowElems (cls : PassClass) (bs : List (BitVec 8)) : List Nat :=
  if cls = .bf16 then
    (List.range 32).map fun i => leNat ((bs.drop (2 * i)).take 2)
  else bs.map (·.toNat)

/-- Poison causes of the elements of a row of bytes, where `nibbles` says that a byte holds two: an element
carries the cause of the word it lies in (R82, R235). (DEDUCED, log 107) -/
def rowCauses (cls : PassClass) (nibbles : Bool) (cs : List Cause) : List Cause :=
  if cls = .bf16 then (List.range 32).map fun i => causeJoinAll ((cs.drop (2 * i)).take 2)
  else if nibbles then cs.flatMap fun c => [c, c]
  else cs

/-- Load the activation block of array `a` (R106, R107): the scale array, then the 32 rows, each at its
fixed cycle of the general port. -/
def loadBlock (s : State) (t a : Nat) (p : Pass) : State × Block :=
  let cls := passCls p
  let base := passAddrA p a
  let rb := blockRowBytes cls
  let sb := scaleBytes (passAfmt p)
  let (s, sc) := ((spadHazard s t (base + 32 * rb) sb).takePorts t (p.issue0 - 4) (base + 32 * rb) sb).spadRead t (base + 32 * rb) sb
  let b0 : Block := ⟨[], sc.bytes.map (·.toNat), [], sc.causes,
    (fmtOfCode (passAfmt p)).getD .e4m3⟩
  (List.range 32).foldl (fun (acc : State × Block) r =>
    let (s, b) := acc
    let (s, d) := ((spadHazard s t (base + r * rb) rb).takePorts t (p.issue0 + r - 3) (base + r * rb) rb).spadRead t (base + r * rb) rb
    let s := if d.corrected then s.setArray t a (lagRow (s.array t a) (p.issue0 + r) r) else s
    let es := rowElems cls d.bytes
    let cs := rowCauses cls false d.causes
    (s, { b with
      elems := (List.range 32).foldl (fun m c => mapSet 0 m (32 * r + c) (es.getD c 0)) b.elems
      causes := (List.range 32).foldl (fun m c => mapSet Cause.none m (32 * r + c) (cs.getD c .none))
        b.causes })) (s, b0)

/-- An empty block: +0 in every cell (R108). -/
def emptyBlock (f : Fmt) : Block := ⟨[], [], [], [], f⟩

/-- The activation of cell (r, t) that weight row `i` meets, with its carried cause (R104, R106). -/
def blockAct (b : Block) (step r i : Nat) : FVal × Cause :=
  let raw := mapGet 0 b.elems (32 * r + step)
  let raw := if b.fmt = .mxfp4 then (raw / 16 ^ (i % 2)) % 16 else raw
  let k := if b.fmt = .mxfp4 then 2 * step + r / 16 else step
  (blockVal b.fmt (b.scales.getD k 127) raw,
    causeJoin (mapGet Cause.none b.causes (32 * r + step)) (b.scaleCauses.getD k .none))

/-! ### The start of a pass (R109, R112, R246) -/

/-- Set the STREAM event of a channel's run with a fault code and its first failing element (R242). -/
def raiseStream (s : State) (t c code elem : Nat) : State :=
  ((s.setReg (STR_FAULT t c) (BitVec.ofNat 32 (code + elem * 256))).orReg (STR_EVENT t)
    (BitVec.ofNat 32 (2 ^ c))).raiseTile t .stream code

/-- Draw the rows of a pass from the FEED run of its channel (R246): the row position at the start
and the run's words where it can supply rows, and the FEED fault where it cannot. -/
def drawFeed (s : State) (t : Nat) (p : Pass) : State × Option Nat × Option (List (BitVec 32)) :=
  let ch := s.chan t (passWch p)
  let cls := passCls p
  let rows := if passK p = 0 then 0 else passSteps p * rowsPerStep cls
  match ch.run with
  | none => (if rows = 0 then s else raiseStream s t (passWch p) 3 0, none, none)
  | some r =>
    if descMode r.words ≠ 1 ∨ r.ended.isSome then
      (if rows = 0 then s else raiseStream s t (passWch p) 3 0, none, none)
    else
      let count := descCount r.words
      let bad := descRsize r.words ≠ weightRowBytes cls
      let fault := rows ≠ 0 && (bad || decide (count < r.done + rows))
      let elem := if bad then r.done else max r.done count
      let s1 := if fault && !r.faulted then raiseStream s t (passWch p) 3 elem else s
      let pos := r.done + rows
      let r' : StreamRun := { r with
        done := pos
        faulted := r.faulted || fault
        ended := if count ≤ pos then some (passIssue p (passSteps p - 1) + 28) else none }
      (s1.setChan t (passWch p) { ch with run := some r' }, some r.done,
        if bad then none else some r.words)

/-- The reset of an array's lags at the next pass with CLEAR after an elastic overflow (R116). -/
def clearLag (m : MxArray) : MxArray :=
  if m.overflowed then { m with lag := [], lateDue := [], overflowed := false } else m

/-- Start pass descriptor `d` of a tile in its current cycle (R109): latch the descriptor, draw the
weight rows, load the activation blocks. -/
def passStart (s : State) (t d : Nat) : State :=
  let x := s.cycle t
  let busy := (s.tile t).passes.any fun q =>
    decide (x < passIssue q (passSteps q - 1) + stepSpacing (passCls q))
  let s := if busy then s.breakPromise t .slotOverlap else s
  let words := (List.range 4).map fun w => s.reg (MXA_DESC t d w)
  let s := if (descBad fun i => words.getD i 0).isSome then
    s.modTile t fun y => { y with broken := true } else s
  let p : Pass :=
    { desc := d, words := words, issue0 := x, nextStep := 0, feedStart := none,
      feedDesc := none, blocks := [], waiting := [], updated := 0, overflow := [], raised := [],
      loaded := [], snap := [], snapBf := [], snapBfParts := [], snapChk := [], copied := false,
      compared := false, combined := false, drained := false }
  let (s, start, fd) := if passWsrc p then (s, none, none) else drawFeed s t p
  let p := { p with feedStart := start, feedDesc := fd }
  let s := if passClear p && passK p != 0 then
    (passArrays p).foldl (fun s a => s.setArray t a (clearLag (s.array t a))) s else s
  let fmt := (fmtOfCode (passAfmt p)).getD .e4m3
  let (s, blocks) := (passArrays p).foldl (fun (acc : State × SMap Block) a =>
    let (s, m) := acc
    if passKeep p then
      match (s.array t a).block with
      | none => (s, mapPut m a (emptyBlock fmt))
      | some b => (if b.fmt = fmt then s else s.breakPromise t .format, mapPut m a b)
    else
      let (s, b) := loadBlock s t a p
      (s.setArray t a { s.array t a with block := some b }, mapPut m a b)) (s, [])
  s.modTile t fun y => { y with passes := y.passes ++ [{ p with blocks := blocks }], unitDesc := d }

/-! ### Steps (R104, R114, R245, R247) -/

/-- The weight rows of a step as the unit receives them: raw elements (key 64 × row of the step +
column), scale bytes, carried causes by row, the cause of the scales, rows that came late. -/
def zeroRows : RowWord := ⟨0, 0, [], [], [], [], []⟩

/-- Read the weight rows of step `n` of a pass from its FEED run (R245, R246): rows beyond the run's
count are zeros with scale byte 127. -/
def feedRows (s : State) (t : Nat) (p : Pass) (n : Nat) : State × RowWord :=
  match p.feedStart, p.feedDesc with
  | some pos, some w =>
    let cls := passCls p
    let rps := rowsPerStep cls
    let count := descCount w
    let sb := scaleBytes (passWfmt p)
    let sa := descIdx w + sb * (pos / rps + n)
    let (s, sc) := ((spadHazard s t sa sb).takePorts t (passIssue p n - 4) sa sb).spadRead t sa sb
    let row0 : RowWord := ⟨0, 0, [], sc.bytes.map (·.toNat), [], sc.causes, []⟩
    (List.range rps).foldl (fun (acc : State × RowWord) i =>
      let (s, rw) := acc
      let g := pos + n * rps + i
      if count ≤ g then (s, rw)
      else
        let r := if cls = .mxfp4 then i / 2 else i
        let cyc := passIssue p n + r - 3
        let rd := fun (s : State) (off len : Nat) =>
          let s := if off % 32 = 0 ∨ len = 32 then s.takePort t cyc ((off / 64) % 16) true else s
          (spadHazard s t off len).spadRead t off len
        let (s, bytes, causes, late) :=
          if cls = .bf16 then
            let (s, d1) := rd s (descLaddr w + 32 * g) 32
            let (s, d2) := rd s (descLaddr w + 32 * (count + g)) 32
            (s, d1.bytes ++ d2.bytes, d1.causes ++ d2.causes, d1.corrected || d2.corrected)
          else
            let (s, d) := rd s (descLaddr w + g * descRsize w) (descRsize w)
            (s, d.bytes, d.causes, d.corrected)
        let es := if cls = .mxfp4 then bytes.flatMap fun b => [b.toNat % 16, b.toNat / 16]
          else rowElems cls bytes
        let cs := rowCauses cls (cls == .mxfp4) causes
        (s, { rw with
          elems := (List.range 32).foldl (fun m c => mapSet 0 m (64 * i + c) (es.getD c 0)) rw.elems
          causes := (List.range 32).foldl (fun m c => mapSet Cause.none m (64 * i + c) (cs.getD c .none)) rw.causes
          lateRows := if late then rw.lateRows ++ [r] else rw.lateRows })) (s, row0)
  | _, _ => (s, zeroRows)

/-- Place a step's rows on the row stream for the next REACH tiles of the logical row (R247). Runs that
overlap on a segment break a promise of the tile they meet at. -/
def sendRows (s : State) (t : Nat) (p : Pass) (n : Nat) (rw : RowWord) : State :=
  match p.feedDesc with
  | none => s
  | some w =>
    let words := (List.range (descReach w)).filterMap fun i =>
      let d := i + 1
      let col := t % 32
      let dest := if descRowdir w then (if d ≤ col then some (t - d) else none)
        else (if col + d < 32 then some (t + d) else none)
      dest.map fun u => { rw with dest := u, due := passIssue p n + 8 * d }
    let clash := words.filter fun x => s.rowWords.any fun y => y.dest == x.dest && y.due == x.due
    let s := clash.foldl (fun s x => s.modTile x.dest fun y => { y with broken := true }) s
    { s with rowWords := s.rowWords ++ words }

/-- The scale byte of column `j` in row `i` of a step (R106). -/
def weightScale (p : Pass) (i j : Nat) : Nat :=
  let r := if passCls p = .mxfp4 then i / 2 else i
  if passCls p = .mxfp4 then 2 * j + r / 16 else j

/-- The weight of column `j` in row `i` of a step: zero in a column the pass does not drain
(R86, R111), else the element with its block scale (R71, R106). -/
def weightVal (p : Pass) (rw : RowWord) (i j : Nat) : FVal :=
  if passN p ≤ j then .fin false 0 0
  else
    let fmt := (fmtOfCode (passWfmt p)).getD .e4m3
    blockVal fmt (rw.scales.getD (weightScale p i j) 127) (mapGet 0 rw.elems (64 * i + j))

/-- The cause that the weight of column `j` in row `i` of a step carries. -/
def weightCause (p : Pass) (rw : RowWord) (i j : Nat) : Cause :=
  if passN p ≤ j then .none
  else causeJoin (mapGet Cause.none rw.causes (64 * i + j)) (rw.scaleCauses.getD (weightScale p i j) .none)

/-- The products of one step in every active array (R75, R83, R104): rows at or above K are not
admitted (R111). (DEDUCED, log 42) -/
def stepProducts (p : Pass) (n : Nat) (rw : RowWord) : StepSums :=
  let cls := passCls p
  let rps := rowsPerStep cls
  let rows := (List.range rps).filter fun i => decide (n * rps + i < passK p)
  let base : StepSums := ⟨n, passIssue p n, [], [], [], []⟩
  (passArrays p).foldl (fun acc a =>
    let b := (mapFind p.blocks a).getD (emptyBlock .e4m3)
    let acts := rows.map fun i => (i, blockAct b n (if cls = .mxfp4 then i / 2 else i) i)
    (List.range 32).foldl (fun acc j =>
      let key := 32 * a + j
      let ps := acts.map fun e => (e.2.1, weightVal p rw e.1 j)
      let carried := causeJoinAll (acts.map fun e =>
        causeJoin e.2.2 (weightCause p rw e.1 j))
      { acc with
        terms := if cls = .bf16 then acc.terms else mapPut acc.terms key (ps.map fun e => valMul e.1 e.2)
        prods := if cls = .bf16 then mapPut acc.prods key (ps.map fun e => bf16Prod e.1 e.2) else acc.prods
        carried := mapSet Cause.none acc.carried key carried }) acc) base

/-- Issue the next step of the pass at place `i` (R104): read its weight rows, from the feed or from
the row stream, and form its products. -/
def passStepAt (s : State) (t i : Nat) (p : Pass) : State :=
  let n := p.nextStep
  let due := passIssue p n
  let (s, rw) :=
    if passK p = 0 then (s, zeroRows)
    else if passWsrc p then
      match (s.tile t).rowIn.find? (fun r => r.due == due) with
      | some r => (s.modTile t fun y => { y with rowIn := y.rowIn.erase r }, r)
      | none =>
        -- issued where no rows arrive: a broken promise, the rows undefined (R8, R247)
        let (v, s) := (s.modTile t fun y => { y with broken := true }).free
        (s, { zeroRows with elems :=
          (List.range 4096).foldl (fun m k => mapSet 0 m k (v / 2 ^ (16 * k) % 65536)) [] })
    else
      let (s, rw) := feedRows s t p n
      (sendRows s t p n rw, rw)
  let s := (passArrays p).foldl (fun s a =>
    rw.lateRows.eraseDups.foldl (fun s r => s.setArray t a (lagRow (s.array t a) (due + r) r)) s) s
  s.setPass t i { p with nextStep := n + 1, waiting := p.waiting ++ [stepProducts p n rw] }

/-- The first pass in flight that satisfies `f`, with its place. -/
def findPass (s : State) (t : Nat) (f : Pass → Bool) : Option (Nat × Pass) :=
  ((List.range (s.tile t).passes.length).zip (s.tile t).passes).find? fun e => f e.2

/-- PASS_STEP: the next step of a pass whose issue cycle has come. -/
def passStep (s : State) (t : Nat) : State :=
  match findPass s t (fun p => decide (p.nextStep < passSteps p) && s.dueNow t (passIssue p p.nextStep)) with
  | some (i, p) => passStepAt s t i p
  | none => s

/-! ### Accumulation (R74 to R83, R111, R113, R116) -/

/-- Read the 32 wide words that ACCLOAD starts each active array from (R111). -/
def accLoad (s : State) (t : Nat) (p : Pass) : State × Pass :=
  (passArrays p).foldl (fun (acc : State × Pass) a =>
    let (s, p) := acc
    let off := passAddrO p a
    let (s, d) := ((spadHazard s t off 512).takePorts t (p.issue0 + 32) off 512).spadRead t off 512
    (s, { p with loaded := (List.range 32).foldl (fun m j =>
      let w := wideOfBits (BitVec.ofNat 128 (leNat ((d.bytes.drop (16 * j)).take 16)))
      let c := causeJoinAll ((d.causes.drop (16 * j)).take 16)
      mapPut m (32 * a + j) { w with cause := causeJoin w.cause c }) p.loaded })) (s, p)

/-- Accumulator `j` of an array. -/
def accOf (m : MxArray) (j : Nat) : Wide := mapGet accReset m.acc j

/-- Replace accumulator `j` of an array. -/
def setAcc (m : MxArray) (j : Nat) (w : Wide) : MxArray := { m with acc := mapSet accReset m.acc j w }

/-- Start accumulator `j` of an array from its loaded word, added to a cleared one of the pass's window (R111): the
state, the pass with its raised causes, the array, and the sum of the loaded integers. -/
def loadColumn (t a : Nat) (acc : State × Pass × MxArray × Int) (j : Nat) : State × Pass × MxArray × Int :=
  let w := (mapFind acc.2.1.loaded (32 * a + j)).getD accReset
  let r := wideAdd w (wideClear (passWin acc.2.1))
  let q := r.2.foldl (fun (e : State × Pass) c => raiseArrayCause e.1 t a e.2 c) (acc.1, acc.2.1)
  (q.1, q.2, setAcc acc.2.2.1 j r.1, acc.2.2.2 + w.a.toInt)

/-- The start of an array's accumulators at the first update of a pass: CLEAR, ACCLOAD or neither
(R111, R113, R116). -/
def startAccs (s : State) (t a : Nat) (p : Pass) : State × Pass :=
  let m := s.array t a
  if passClear p then
    let m' : MxArray := { m with
      acc := (List.range 32).foldl (fun q j => mapSet accReset q j (wideClear (passWin p))) m.acc
      partials := [], bfCause := [], chk := 0 }
    (s.setArray t a m', p)
  else if passAccload p then
    let acc := (List.range 32).foldl (loadColumn t a) (s, p, m, 0)
    (acc.1.setArray t a { acc.2.2.1 with chk := BitVec.ofInt 104 acc.2.2.2 }, acc.2.1)
  else (s, p)

/-- Add a column's products of one step to its accumulator (R75, R76, R80): the accumulator, the sum of
the aligned terms, and the causes newly set. -/
def foldTerms (w : Wide) (terms : List FVal) : Wide × Int × List Cause :=
  terms.foldl (fun acc v =>
    let (w, total, cs) := acc
    let (term, c) := match v with
      | .fin n m e =>
        if m = 0 then ((0 : Int), Cause.none)
        else alignTerm (if n then -(m : Int) else m) (e - w.w.toInt)
      | _ => (0, .nonfinite)
    let (w', c') := accAddTerm w term c
    (w', total + term, if c' = .none ∨ cs.contains c' then cs else cs ++ [c'])) (w, 0, [])

/-- Add one step's sums to an array at U(t) (R76, R83, R85, R116). -/
def updateArray (s : State) (t a : Nat) (p : Pass) (st : StepSums) : State × Pass :=
  let m := s.array t a
  if 4 < mapGet 0 st.late a then
    if p.overflow.contains a then (s, p)
    else
      let s := (s.incReg (MXA_OVF_COUNT t a)).orReg (MXA_EVENT t a) 0x80
      ((s.setArray t a { m with overflowed := true }).raiseTile t .elastic 0,
        { p with overflow := p.overflow ++ [a] })
  else if passCls p = .bf16 then
    let m := (List.range 32).foldl (fun m j =>
      let ps := (mapFind st.prods (32 * a + j)).getD []
      let m := ((List.range ps.length).zip ps).foldl (fun (m : MxArray) e =>
        let key := 32 * j + e.1
        { m with partials := mapSet 0 m.partials key (fp32Add .rne (mapGet 0 m.partials key) e.2) }) m
      let c := causeJoin (mapGet Cause.none m.bfCause j) (mapGet Cause.none st.carried (32 * a + j))
      { m with bfCause := mapSet Cause.none m.bfCause j c }) m
    (s.setArray t a { m with lastBf16 := true }, p)
  else
    let (s, p, m) := (List.range 32).foldl (fun (acc : State × Pass × MxArray) j =>
      let (s, p, m) := acc
      let (w, total, cs) := foldTerms (accOf m j) ((mapFind st.terms (32 * a + j)).getD [])
      let (s, p) := cs.foldl (fun (e : State × Pass) c => raiseArrayCause e.1 t a e.2 c) (s, p)
      let w := { w with cause := causeJoin w.cause (mapGet Cause.none st.carried (32 * a + j)) }
      (s, p, { setAcc m j w with chk := m.chk + BitVec.ofInt 104 total })) (s, p, m)
    (s.setArray t a { m with lastBf16 := false }, p)

/-- A broken tile's accumulators are undefined after an update (R8): every A becomes a free value. -/
def scrambleArray (s : State) (t a : Nat) : State :=
  if (s.tile t).broken then
    (List.range 32).foldl (fun s j =>
      let (v, s) := s.free
      let m := s.array t a
      s.setArray t a { setAcc m j { accOf m j with a := BitVec.ofNat 96 v } with
        partials := mapSet 0 m.partials (32 * j) (BitVec.ofNat 32 (v / 2 ^ 96)) }) s
  else s

/-- Copy an array's accumulators and C into the drain registers (R113, R119). -/
def copyArray (s : State) (t a : Nat) (p : Pass) : Pass :=
  let m := s.array t a
  if passCls p = .bf16 then
    { p with
      snapBfParts := (List.range 1024).foldl (fun q k => mapSet 0 q (1024 * a + k) (mapGet 0 m.partials k))
        p.snapBfParts
      snap := (List.range 32).foldl (fun q j =>
        mapPut q (32 * a + j) { accReset with cause := mapGet Cause.none m.bfCause j }) p.snap }
  else
    { p with
      snap := (List.range 32).foldl (fun q j => mapPut q (32 * a + j) (accOf m j)) p.snap
      snapChk := mapPut p.snapChk a m.chk }

/-- Add the oldest waiting step of the pass at place `i` (R112 to R116). -/
def accumulateAt (s : State) (t i : Nat) (p : Pass) (st : StepSums) : State :=
  let (s, p) := if passAccload p && p.loaded.isEmpty && passK p != 0 then accLoad s t p else (s, p)
  let (s, p) := (passArrays p).foldl (fun (acc : State × Pass) a =>
    let (s, p) := acc
    let (s, p) := if p.updated = 0 ∧ passK p ≠ 0 then startAccs s t a p else (s, p)
    let (s, p) := if passK p = 0 then (s, p) else updateArray s t a p st
    (if passK p = 0 then s else scrambleArray s t a, p)) (s, p)
  let p := { p with updated := p.updated + 1, waiting := p.waiting.tail }
  let p := if p.updated = passSteps p then
    { (passArrays p).foldl (fun p a => copyArray s t a p) p with copied := true } else p
  s.setPass t i p

/-- ACCUMULATE: the sums of the oldest waiting step whose U has come. -/
def accumulate (s : State) (t : Nat) : State :=
  match findPass s t (fun p => match p.waiting with
      | st :: _ => s.dueNow t (st.issue + 36)
      | [] => false) with
  | some (i, p) =>
    match p.waiting with
    | st :: _ => accumulateAt s t i p st
    | [] => s
  | none => s

/-! ### Comparison, combination and drain (R84, R86, R116, R118 to R121) -/

/-- Give every accumulator of an array, and the copies of the pass, cause CHECK (R86). -/
def poisonArray (s : State) (t a : Nat) (p : Pass) : State × Pass :=
  let m := (List.range 32).foldl (fun m j =>
    setAcc m j { accOf m j with cause := causeJoin (accOf m j).cause .check }) (s.array t a)
  let p := { p with snap := (List.range 32).foldl (fun q j =>
    let w := (mapFind q (32 * a + j)).getD accReset
    mapPut q (32 * a + j) { w with cause := causeJoin w.cause .check }) p.snap }
  (s.setArray t a m, p)

/-- The comparison of one array (R86, R116, R118). -/
def compareArray (s : State) (t a : Nat) (p : Pass) : State × Pass :=
  let ws := (List.range 32).map fun j => (mapFind p.snap (32 * a + j)).getD accReset
  let ovf := p.overflow.contains a
  let other := ws.any fun w => w.cause != .none && w.cause != .check
  let sum := BitVec.ofInt 104 (ws.foldl (fun (n : Int) w => n + w.a.toInt) 0)
  if ovf || (!other && sum != (mapFind p.snapChk a).getD 0) then
    let (s, p) := poisonArray s t a p
    let s := (s.incReg (MXA_CHK_FAILS t a)).orReg (MXA_EVENT t a) 2
    (s.raiseCause t .check, { p with raised := p.raised ++ [(a, .check)] })
  else (s, p)

/-- CHECKSUM_COMPARE of the pass at place `i`. -/
def compareAt (s : State) (t i : Nat) (p : Pass) : State :=
  let (s, p) := (passArrays p).foldl (fun (e : State × Pass) a => compareArray e.1 t a e.2) (s, p)
  s.setPass t i { p with compared := true }

/-- CHECKSUM_COMPARE: an exact pass whose U(n − 1) + 1 has come. -/
def checksumCompare (s : State) (t : Nat) : State :=
  match findPass s t (fun p => p.copied && !p.compared && passCls p != .bf16
      && passK p != 0 && s.dueNow t (passLastU p + 1)) with
  | some (i, p) => compareAt s t i p
  | none => s

/-- Combine the partials of the pass at place `i` (R83, R119); an overflowed array gives NaN (R116). -/
def combineAt (s : State) (t i : Nat) (p : Pass) : State :=
  let (s, p) := (passArrays p).foldl (fun (acc : State × Pass) a =>
    let (s, p) := acc
    let vals := (List.range 32).map fun j =>
      if p.overflow.contains a then (0x7FC00000 : BitVec 32)
      else bf16Combine ((List.range 32).map fun r => mapGet 0 p.snapBfParts (1024 * a + 32 * j + r))
    let m := s.array t a
    let m := { m with combined := (List.range 32).foldl (fun q j => mapSet 0 q j (vals.getD j 0)) m.combined }
    let p := { p with snapBf := (List.range 32).foldl (fun q j => mapSet 0 q (32 * a + j) (vals.getD j 0)) p.snapBf }
    ((s.setArray t a m).orReg (MXA_EVENT t a) 0x100, p)) (s, p)
  let s := if (passArrays p).isEmpty then s else s.raiseTile t .uncovered 0
  s.setPass t i { p with combined := true }

/-- BF16_COMBINE: a BF16 pass whose V has come. -/
def bf16CombineStep (s : State) (t : Nat) : State :=
  match findPass s t (fun p => p.copied && !p.combined && passCls p == .bf16
      && s.dueNow t (passV p)) with
  | some (i, p) => combineAt s t i p
  | none => s

/-- The cycle in which a pass's drain is written (R112). -/
def drainDue (s : State) (t : Nat) (p : Pass) : Nat :=
  if passDrain p = 2 then passLastU p + 7
  else if passCls p = .bf16 then passV p + 1 + s.latency t latDrainN
  else passLastU p + 1 + s.latency t latDrainN

/-- A drained column: its value for conversion and its cause, after the check of R77. -/
def drainColumn (s : State) (t a : Nat) (p : Pass) (j : Nat) : State × Pass × Wide × FVal :=
  let w := (mapFind p.snap (32 * a + j)).getD accReset
  if passCls p = .bf16 then (s, p, w, fp32Val (mapGet 0 p.snapBf (32 * a + j)))
  else
    let (w', c) := drainCheck w
    let (s, p) := raiseArrayCause s t a p c
    (s, p, w', wideVal w')

/-- Pack elements of a format into bytes: nibble pairs for MXFP4 (R71), little-endian otherwise. -/
def packElems (f : Fmt) (es : List Nat) : List (BitVec 8) :=
  match f with
  | .mxfp4 => (List.range ((es.length + 1) / 2)).map fun i =>
      BitVec.ofNat 8 (es.getD (2 * i) 0 % 16 + 16 * (es.getD (2 * i + 1) 0 % 16))
  | _ => es.flatMap fun e => leBytes (fmtBits f / 8) e

/-- Convert columns to a narrow output (R82, R90 to R92, R120): bytes and the cause of each byte. -/
def narrowOutput (f : Fmt) (rnd : Rnd) (draws : List Nat) (cols : List (Cause × FVal)) :
    List (BitVec 8) × List Cause :=
  if fmtScaled f then
    let c := causeJoinAll (cols.map (·.1))
    let vs := cols.map fun e => if e.1 = .none then e.2 else FVal.nan
    let (sc, es) := mxBits f rnd draws vs
    let bytes := packElems f es ++ [BitVec.ofNat 8 sc]
    (bytes, bytes.map fun _ => c)
  else
    let es := (cols.zip (draws ++ List.replicate cols.length 0)).map fun e =>
      if e.1.1 = .none then elemBits f rnd e.2 e.1.2 else poisonBits f
    (packElems f es, cols.flatMap fun e => List.replicate (fmtBits f / 8) e.1)

/-- Drain one array to scratchpad (R120, R121). -/
def drainArray (s : State) (t a : Nat) (p : Pass) : State × Pass :=
  let n := min (passN p) 32
  let (s, p, cols) := (List.range n).foldl (fun (acc : State × Pass × List (Wide × FVal)) j =>
    let (s, p, w, v) := drainColumn acc.1 t a acc.2.1 j
    (s, p, acc.2.2 ++ [(w, v)])) (s, p, [])
  let off := passAddrO p a
  if passDrain p = 2 then
    let bytes := cols.flatMap fun e => leBytes 16 (wideBits e.1).toNat
    ((s.takePorts t (s.cycle t) off bytes.length).spadProduce t off bytes [], p)
  else
    let f := (fmtOfCode (passOfmt p)).getD .fp32
    let (ds, s) := if passRnd p = .sr then
        s.draws t (passRstream p) (s.cursorBase t (fld (s.reg (VEC_RNG_CFG t (passRstream p))) 6 2)) (32 * a) n 1
      else ([], s)
    let (bytes, cs) := narrowOutput f (passRnd p) ds (cols.map fun e => (e.1.cause, e.2))
    if n = 0 then (s, p)
    else ((s.takePorts t (s.cycle t) off bytes.length).spadProduce t off bytes cs, p)

/-- The queue entry of a pass with DEST = 0 (R129), columns that are not drained at +0 or cleared. -/
def drainQueue (s : State) (t : Nat) (p : Pass) : State × Pass :=
  let n := min (passN p) 32
  let (s, p, vals) := (List.range 128).foldl (fun (acc : State × Pass × List (Wide × FVal)) k =>
    let (s, p, vals) := acc
    if (passArrays p).contains (k / 32) && decide (k % 32 < n) then
      let (s, p, w, v) := drainColumn s t (k / 32) p (k % 32)
      (s, p, vals ++ [(w, v)])
    else (s, p, vals ++ [(wideClear (passWin p), .fin false 0 0)])) (s, p, [])
  let live := (vals.length, (passArrays p).length * n)
  let (ds, s) := if passRnd p = .sr ∧ passDrain p = 1 then
      s.draws t (passRstream p) (s.cursorBase t (fld (s.reg (VEC_RNG_CFG t (passRstream p))) 6 2)) 0 live.2 1
    else ([], s)
  let (v, s) := s.produce t 0
  let entry : QEntry :=
    if passDrain p = 2 then
      .wide (vals.map fun e => { e.1 with a := if v = 0 then e.1.a else BitVec.ofNat 96 v })
    else
      let conv := vals.foldl (fun (acc : List Elem × Nat) e =>
        let k := acc.1.length
        let used := (passArrays p).contains (k / 32) && decide (k % 32 < n)
        let b := if e.1.cause = .none then floatBits fp32F (passRnd p) (ds.getD acc.2 0) e.2
          else poisonBits .fp32
        (acc.1 ++ [⟨BitVec.ofNat 32 (if v = 0 then b else v), e.1.cause⟩],
          if used then acc.2 + 1 else acc.2)) ([], 0)
      .narrow conv.1
  if 4 ≤ (s.tile t).vec.queue.length then (s.breakPromise t .queue, p)
  else (s.modTile t fun x => { x with vec := { x.vec with queue := x.vec.queue ++ [entry] } }, p)

/-- DRAIN of the pass at place `i`. -/
def drainAt (s : State) (t i : Nat) (p : Pass) : State :=
  let (s, p) :=
    if passDest p then
      (passArrays p).foldl (fun (e : State × Pass) a => drainArray e.1 t a e.2) (s, p)
    else drainQueue s t p
  s.setPass t i { p with drained := true }

/-- Whether a pass is ready to drain: its values are copied, compared and combined. -/
def drainReady (p : Pass) : Bool :=
  p.copied && !p.drained && (passDrain p == 1 || passDrain p == 2)
    && (passCls p != .bf16 || p.combined) && (passCls p == .bf16 || passK p == 0 || p.compared)

/-- DRAIN: a pass whose drain cycle has come. -/
def drain (s : State) (t : Nat) : State :=
  match findPass s t (fun p => drainReady p && s.dueNow t (drainDue s t p)) with
  | some (i, p) => drainAt s t i p
  | none => s

/-- Whether nothing of a pass remains to be done. -/
def passDone (p : Pass) : Bool :=
  p.copied && (passCls p != .bf16 || p.combined) && (passCls p == .bf16 || passK p == 0 || p.compared)
    && (p.drained || (passDrain p != 1 && passDrain p != 2))

/-- Drop the passes that are done. -/
def dropPasses (s : State) (t : Nat) : State :=
  s.modTile t fun x => { x with passes := x.passes.filter fun p => !passDone p }

/-- The lags of an array after cycle `x` (R114): a row's corrected reads add to its lag, and a row with no
step to process loses one. (DEDUCED, log 106) -/
def nextLags (m : MxArray) (busy : Nat → Bool) (x : Nat) : SMap Nat :=
  (List.range 32).foldl (fun q r =>
    let v := mapGet 0 m.lag r
    let add := (m.lateDue.filter fun e => e.1 == x && e.2 == r).length
    mapSet 0 q r ((if busy r then v else v - 1) + add)) []

/-- A step meets the lag of the row it passes in cycle `x`: its λ is the greatest of them (R115). -/
def meetLag (s : State) (t x : Nat) (p : Pass) : Pass :=
  { p with waiting := p.waiting.map fun st =>
      if st.issue ≤ x ∧ x < st.issue + 32 then
        { st with late := (passArrays p).foldl (fun q a =>
            mapSet 0 q a (max (mapGet 0 q a) (mapGet 0 (s.array t a).lag (x - st.issue)))) st.late }
      else st }

/-- The lags of the current cycle (R114, R115). -/
def fallLags (s : State) (t : Nat) : State :=
  let x := s.cycle t
  let busy := fun (a r : Nat) => (s.tile t).passes.any fun p =>
    (passArrays p).contains a && (List.range (passSteps p)).any fun n =>
      decide (passIssue p n + r ≤ x) && decide (x < passIssue p n + r + stepSpacing (passCls p))
  let quiet := fun (a : Nat) => (s.array t a).lag.isEmpty && (s.array t a).lateDue.isEmpty
  if (List.range 4).all quiet then s
  else
    let s := (List.range 4).foldl (fun s a =>
      let m := s.array t a
      s.setArray t a { m with
        lag := nextLags m (busy a) x
        lateDue := m.lateDue.filter fun e => decide (x < e.1) }) s
    s.modTile t fun y => { y with passes := y.passes.map (meetLag s t x) }

/-- Matrix-unit state at cycle 0 of a frame (R108, R113, R114). -/
def clearMatrix (x : Tile) : Tile := { x with arrays := [], passes := [] }

/-- The descriptor a PASS with induction starts: (DESC + j) mod 64 (R181). -/
def passIndex (s : State) (t desc ind : Nat) : Nat :=
  if 4 ≤ ind then (desc + (ctlJ (s.tile t).ctl (ind - 4)).toNat) % 64 else desc

/-- PASS (R109, R181): starts pass descriptor (DESC + j) mod 64 in the current cycle. -/
def execPass (t : Nat) (desc : BitVec 6) (ind : BitVec 3) (s : State) :
    Host.Outcome State Fault Refusal :=
  onSlot s t (indReserved ind) fun s => passStart s t (passIndex s t desc.toNat ind.toNat)

/-- A command that takes a due event of a tile's units: nothing where the tile runs no frame. -/
def onRun (s : State) (t : Nat) (f : State → State) : Host.Outcome State Fault Refusal :=
  s.onTile t fun s => if s.tileRuns t then f s else s

/-- PASS_STEP (R104). -/
def execPassStep (t : Nat) (s : State) : Host.Outcome State Fault Refusal :=
  onRun s t fun s => passStep s t

/-- ACCUMULATE (R112). -/
def execAccumulate (t : Nat) (s : State) : Host.Outcome State Fault Refusal :=
  onRun s t fun s => accumulate s t

/-- BF16_COMBINE (R119). -/
def execBf16Combine (t : Nat) (s : State) : Host.Outcome State Fault Refusal :=
  onRun s t fun s => bf16CombineStep s t

/-- CHECKSUM_COMPARE (R118). -/
def execChecksumCompare (t : Nat) (s : State) : Host.Outcome State Fault Refusal :=
  onRun s t fun s => checksumCompare s t

/-- DRAIN (R120). -/
def execDrain (t : Nat) (s : State) : Host.Outcome State Fault Refusal :=
  onRun s t fun s => drain s t

end Sys2Proof.Machine
end

