-- ==== Sys2Proof/Machine/Clock.lean ====
section
/-! DEFINITION. Regional clocking (R347 to R360): the charges of a region, droop, crossings, clock
monitors, the voltage and frequency of a frame, and the thermal throttle. -/

namespace Sys2Proof.Machine

/-! ### Fractions of a picosecond -/

/-- A fraction in lowest terms. -/
def Frac.mk' (n d : Nat) : Frac := ⟨n / max 1 (Nat.gcd n d), d / max 1 (Nat.gcd n d)⟩
/-- A whole number. -/
def Frac.ofNat (n : Nat) : Frac := ⟨n, 1⟩
/-- The sum. -/
def Frac.add (a b : Frac) : Frac := Frac.mk' (a.num * b.den + b.num * a.den) (a.den * b.den)
/-- The difference, 0 where it would be negative. -/
def Frac.sub (a b : Frac) : Frac := Frac.mk' (a.num * b.den - b.num * a.den) (a.den * b.den)
/-- The whole part. -/
def Frac.floor (a : Frac) : Nat := a.num / max 1 a.den
/-- Whether a fraction is below another. -/
def Frac.lt (a b : Frac) : Bool := decide (a.num * b.den < b.num * a.den)

/-! ### Operating points (R347, R357) -/

/-- P(x) for x = n / d MHz: the lowest operating point at or above it. -/
def pointAbove (n d : Nat) : Nat := max 1600 ((n + 25 * d - 1) / (25 * d) * 25)

/-- P(x) for a whole x. -/
def pointOf (x : Nat) : Nat := pointAbove x 1

/-- Whether a frequency is an operating point. -/
def isPoint (f : Nat) : Bool := decide (1600 ≤ f) && decide (f ≤ 2800) && f % 25 == 0

/-- The VCORE that a frequency requires, mV. -/
def State.vcoreFor (s : State) (f : Nat) : Nat := fld (s.reg (CLK_VF ((pointOf f - 1600) / 25))) 0 10

/-- F_VOLT (R357). -/
def State.fVolt (s : State) : Nat :=
  match ((List.range 49).filter fun k => decide (fld (s.reg (CLK_VF k)) 0 10 ≤ s.clk.mv)).getLast? with
  | some k => 1600 + 25 * k
  | none => 1600

/-- f_floor of a program slot's header word. -/
def cfgFloor (v : BitVec 32) : Nat := fld v 0 12

/-- FLOOR_MAX (R357): the largest f_floor among the slots that are VALID in the committed value or in the
shadow. -/
def State.floorMax (s : State) : Nat :=
  (List.range 64).foldl (fun m p =>
    let c := s.reg (FRM_PROG_CFG p)
    let n := s.shReg (FRM_PROG_CFG p)
    max m (max (if bit c 31 then cfgFloor c else 0) (if bit n 31 then cfgFloor n else 0))) 0

/-- The frequency of the current frame, MHz; 0 before the first tick. -/
def State.frameF (s : State) : Nat := fld (s.reg CLK_FREQ) 0 12

/-- CLK_FMAX, MHz. -/
def State.fMax (s : State) : Nat := fld (s.reg CLK_FMAX) 0 12

/-- The VCORE target V(h), mV (R357). -/
def State.vcoreTarget (s : State) : Nat :=
  if s.power.mainGood then
    s.vcoreFor (min s.fMax (max (s.frameF + fld (s.reg CLK_DVFS_STEP) 0 12) (pointOf s.floorMax)))
  else 0

/-- VCORE moves towards its target by `mv`. (DEDUCED, log 121) -/
def State.slew (s : State) (mv : Nat) : State :=
  let t := s.vcoreTarget
  { s with clk := { s.clk with
      mv := if s.clk.mv ≤ t then min t (s.clk.mv + mv) else max t (s.clk.mv - mv) } }

/-! ### Regions (R31, R52) -/

def clkRegionReset : ClkRegion := ⟨⟨0, 1⟩, ⟨0, 1⟩, none, 0, ⟨0, 1⟩⟩

/-- The clock of a region. -/
def State.region (s : State) (r : Nat) : ClkRegion := mapGet clkRegionReset s.regions r

/-- Change the clock of a region. -/
def State.modRegion (s : State) (r : Nat) (f : ClkRegion → ClkRegion) : State :=
  { s with regions := mapSet clkRegionReset s.regions r (f (s.region r)) }

/-- Whether a region is powered (R32, R255): a tile region with a used row, an HBM region with a READY
stack, and every other region, while main power is good. -/
def State.regionOn (s : State) (r : Nat) : Bool :=
  s.power.mainGood &&
    (if r < 48 then s.usedRows.any fun row => row / 3 == r / 4
    else if r < 56 then fld (s.reg (HBM_STATUS (r - 48))) 0 3 == 3
    else true)

/-- The used tiles of the armed program that lie in a region. -/
def State.regionTiles (s : State) (r : Nat) : List Nat :=
  (List.range s.tileCount).filter fun t => s.tileUsed t && s.tileRegion t == r

/-- Whether a region takes part in the frame's end (R57). -/
def State.regionInFrame (s : State) (r : Nat) : Bool :=
  if r < 48 then !(s.regionTiles r).isEmpty else mapGet 0 s.work r != 0

/-- Note scheduled work of the armed program in a region without tiles (R57). -/
def State.noteWork (s : State) (r cyc : Nat) : State :=
  { s with work := mapSet 0 s.work r (max (mapGet 0 s.work r) (cyc + 1)) }

/-- Add to a region's hold charge, ps. -/
def holdCharge (s : State) (r ps : Nat) : State :=
  (s.modRegion r fun x => { x with hold := x.hold.add (.ofNat ps), held := 0 }).addReg (CLK_R_HOLD_PS r) ps

/-- Add to a region's stretch charge, ps. -/
def stretchCharge (s : State) (r : Nat) (ps : Frac) : State :=
  s.modRegion r fun x => { x with stretch := x.stretch.add ps, stretchRead := x.stretchRead.add ps }

/-- CLK_R_STATUS (R366). `LOCKOUT` compares the last stretch with the latest cycle of the region's tiles. -/
def clkStatus (s : State) (r : Nat) : Nat :=
  let x := s.region r
  let now := (s.regionTiles r).foldl (fun m t => max m (s.cycle t)) 0
  let lock := match x.lastStretch with
    | some c => decide (now < c + 64)
    | none => false
  if s.regionOn r then (if x.held = 0 then 1 else 2) + (if lock then 4 else 0) + 16 * x.held else 0

/-! ### Crossings (R351 to R353) -/

/-- CROSSING_HOLD (R351): a region holds its clock until the word of its cycle is ready. (DESIGN CHOICE, log 47) -/
def crossingHold (s : State) (r ps : Nat) : State := if s.regionOn r then holdCharge s r ps else s

/-- CROSS_SLIP (R353): the receiver goes on holding. -/
def crossSlip (s : State) (r sender cyc : Nat) : State :=
  if !s.regionOn r then s
  else
    let s := s.modRegion r fun x => { x with held := 1 }
    let s := ((s.incReg (CLK_R_SLIPS r)).orReg (CLK_R_EVENT r) 8).orReg CLK_EVENT 1
    (s.setReg (CLK_R_SLIP_LAST r) (BitVec.ofNat 32 (sender + 128 + (cyc % 2 ^ 24) * 256))).raise
      ⟨.crossSlip, r, 0, cyc, sender⟩

/-! ### Droop (R354, R355) -/

/-- Whether a supply reading is a droop: more than THR below the voltage of the operating point. -/
def State.droops (s : State) (mv : Nat) : Bool :=
  decide (mv + fld (s.reg CLK_DROOP_CFG) 0 8 < s.vcoreFor s.clk.ft)

/-- A droop at a region: a stretch of half a period, or in the lockout a hold until the supply
recovers. -/
def droopStretch (s : State) (r cyc mv ps : Nat) : State :=
  if !s.regionOn r || !s.droops mv then s
  else
    let free := match (s.region r).lastStretch with
      | some c => decide (c + 64 ≤ cyc)
      | none => true
    if free then
      let s := stretchCharge s r (.mk' 500000 s.clk.ft)
      (s.modRegion r fun x => { x with lastStretch := some cyc }).incReg (CLK_R_STRETCHES r)
    else ((stretchCharge s r (.ofNat ps)).orReg (CLK_R_EVENT r) 0x10).orReg CLK_EVENT 4

/-- CLK_DROOP (R355): a droop hold outlasts HOLDMAX; the region stays held until the tick. -/
def clkDroop (s : State) (r cyc mv : Nat) : State :=
  if !s.regionOn r || !s.droops mv then s
  else
    let s := stretchCharge s r (.ofNat (fld (s.reg CLK_DROOP_CFG) 8 16 * 1000))
    let s := s.modRegion r fun x => { x with held := 3 }
    ((s.orReg (CLK_R_EVENT r) 0x30).orReg CLK_EVENT 4).raise ⟨.clkDroop, r, 0, cyc, 0⟩

/-! ### Clock monitors (R356) -/

/-- CLK_MON: a period (0), duty (1) or stop (2) fault; a period fault of an ordinary period carries its
deviation in units of 0.01 %. -/
def clkMon (s : State) (r kind dev cyc : Nat) : State :=
  if !s.regionOn r then s
  else
    let s := (s.orReg (CLK_R_EVENT r) (BitVec.ofNat 32 (2 ^ kind))).orReg CLK_EVENT 2
    let s := if kind = 0 then
        s.setReg (CLK_R_MON_WORST r) (BitVec.ofNat 32 (max dev (s.reg (CLK_R_MON_WORST r)).toNat))
      else s
    s.raise ⟨.clkMon, r, 0, cyc, 0⟩

/-! ### Thermal throttle (R360) -/

/-- f_floor of the armed program, 1,600 MHz where none is armed. -/
def State.armedFloor (s : State) : Nat :=
  match s.frame.armed with
  | some p => pointOf (cfgFloor (s.reg (FRM_PROG_CFG p)))
  | none => 1600

/-- The throttled frequency of a level for a frame at `f`. -/
def State.throttled (s : State) (level f : Nat) : Nat :=
  match level with
  | 0 => f
  | 1 => max (f - fld (s.reg CLK_THROT_CFG) 20 12) s.armedFloor
  | _ => s.armedFloor

/-- Charge the cycles run at the throttled frequency up to a cycle (R52). (DEDUCED, log 108) -/
def throttleCharge (s : State) (cyc : Nat) : State :=
  let c := s.clk
  let n := cyc - c.throttleFrom
  let f := s.frameF
  if c.ft < f then
    let slow := Frac.mk' (n * 1000000) c.ft
    { s with clk := { c with
        throttleFrom := cyc
        throttle := c.throttle.add (slow.sub (.mk' (n * 1000000) f))
        throttleRead := c.throttleRead.add slow } }
  else { s with clk := { c with throttleFrom := cyc } }

/-- The temperature of a region, in quarters of a degree, from 2^15 at 0 °C. -/
def State.temp (s : State) (r : Nat) : Nat := (fld (s.reg (CLK_R_TEMP r)) 0 16 + 2 ^ 15) % 2 ^ 16

/-- The hottest region that counts, the lowest-numbered where several are equal (R360). -/
def State.hottest (s : State) : Nat :=
  let pool := (List.range 62).filter fun r =>
    if s.frame.armed.isSome then s.regionInFrame r else s.regionOn r
  pool.foldl (fun b r => if s.temp b < s.temp r then r else b) (pool.headD 0)

/-- The throttle level after a report of temperature `t` (quarters of a degree from 2^15 at 0 °C). -/
def State.nextLevel (s : State) (t : Nat) : Nat :=
  let cfg := s.reg CLK_THROT_CFG
  let at4 := fun (c : Nat) => 2 ^ 15 + 4 * c
  if at4 (fld cfg 8 8) ≤ t then 2
  else if at4 (fld cfg 0 8) ≤ t then max s.clk.level 1
  else if t + 4 * fld cfg 16 4 < at4 (fld cfg 0 8) then 0
  else s.clk.level

/-- THERMAL_REPORT (R360): a region's report; a level change applies from cycle `cyc` of the open frame. (DEDUCED, log 48) -/
def thermalReport (s : State) (r : Nat) (temp : BitVec 16) (cyc : Nat) : State :=
  if !s.regionOn r then s
  else
    let s := s.setReg (CLK_R_TEMP r) (temp.setWidth 32)
    let h := s.hottest
    let old := s.clk.level
    let new := s.nextLevel (s.temp h)
    let s := s.setReg CLK_THROT_STATUS
      (BitVec.ofNat 32 (new + h * 2 ^ 8 + fld (s.reg (CLK_R_TEMP h)) 0 16 * 2 ^ 16))
    let s := if old < new then s.orReg CLK_EVENT 8 else s
    if new = old then s
    else
      let s := if s.frame.armed.isSome then throttleCharge s (min cyc s.armedC) else s
      { s with clk := { s.clk with level := new, ft := s.throttled new s.frameF } }

/-! ### Frame-fitted frequency (R358) -/

/-- The frequency of the frame that opens; `armed` is its program slot. -/
def State.chooseF (s : State) (armed : Option Nat) : Nat :=
  let c := s.clk
  let cap := if c.level = 0 then 2800 else c.ft
  let ctrl := s.reg CLK_DVFS_CTRL
  let rise := fld (s.reg CLK_DVFS_STEP) 0 12
  let fall := fld (s.reg CLK_DVFS_STEP) 16 12
  let floor := match armed with
    | some p => pointOf (cfgFloor (s.reg (FRM_PROG_CFG p)))
    | none => 1600
  if bit ctrl 0 then min 2800 (max (min (fld ctrl 16 12) cap) floor)
  else
    let cap := min s.fMax cap
    match armed with
    | some p =>
      -- the budget in ps, times the denominator of the charges
      let charges := c.lastStretch.add c.lastHold
      let whole := (fld (s.reg FRM_PERIOD) 0 27) * 1000
      let used := (fld (s.reg CLK_DVFS_MARGIN) 0 27 + 40) * 1000
      let cycles := (s.reg (FRM_PROG_CYCLES p)).toNat
      let budget := (Frac.ofNat whole).sub (charges.add (.ofNat used))
      let req := if budget.num = 0 then cap
        else pointAbove (cycles * 1000000 * budget.den) budget.num
      let f := max req (c.fPrev - fall)
      let f := min (min f cap) (min s.fVolt (c.fPrev + rise))
      min 2800 (max f floor)
    | none =>
      let f := max (max (c.fPrev - fall) (pointOf s.floorMax)) 1600
      min (min f cap) s.fVolt

/-- Publish the frequency of the frame that opens (R55 step 7): the charges start afresh. -/
def publishF (s : State) (armed : Option Nat) : State :=
  let f := s.chooseF armed
  let s := s.setRegFld CLK_FREQ 0 12 f
  let regions := s.regions.map fun e =>
    (e.1, { e.2 with stretch := ⟨0, 1⟩, hold := ⟨0, 1⟩, lastStretch := none, held := 0 })
  { s with
    regions := regions.filter fun e => e.2 != clkRegionReset
    work := []
    refresh := []
    clk := { s.clk with
      fPrev := f
      ft := s.throttled s.clk.level f
      throttleFrom := 0
      throttle := ⟨0, 1⟩ } }

/-! ### Commands -/

/-- CROSSING_HOLD (R351): region `r` is held for `ps` picoseconds. -/
def execCrossingHold (r : Fin 62) (ps : Nat) (s : State) : Host.Outcome State Fault Refusal :=
  .next (crossingHold s r ps)

/-- QUEUE_FULL_HOLD (R352): a sender is held for `ps` picoseconds. -/
def execQueueFullHold (r : Fin 62) (ps : Nat) (s : State) : Host.Outcome State Fault Refusal :=
  .next (crossingHold s r ps)

/-- CROSS_SLIP (R353): the word of cycle `cyc` from region `sender`. -/
def execCrossSlip (r sender : Fin 62) (cyc : Nat) (s : State) : Host.Outcome State Fault Refusal :=
  .next (crossSlip s r sender cyc)

/-- DROOP_STRETCH (R354, R355): the supply at region `r` reads `mv` in cycle `cyc`; in the lockout it
recovers after `ps`. -/
def execDroopStretch (r : Fin 62) (cyc mv ps : Nat) (s : State) : Host.Outcome State Fault Refusal :=
  .next (droopStretch s r cyc mv ps)

/-- CLK_DROOP (R355): the supply has not recovered after HOLDMAX. -/
def execClkDroop (r : Fin 62) (cyc mv : Nat) (s : State) : Host.Outcome State Fault Refusal :=
  .next (clkDroop s r cyc mv)

/-- CLK_MON (R356). -/
def execClkMon (r : Fin 62) (kind : Fin 3) (dev : BitVec 16) (cyc : Nat) (s : State) :
    Host.Outcome State Fault Refusal :=
  .next (clkMon s r kind dev.toNat cyc)

/-- THERMAL_REPORT (R360): the temperature in quarters of a degree, two's complement. -/
def execThermalReport (r : Fin 62) (temp : BitVec 16) (cyc : Nat) (s : State) :
    Host.Outcome State Fault Refusal :=
  .next (thermalReport s r temp cyc)

end Sys2Proof.Machine
end

