-- ==== Sys2Proof/Machine/Tiers.lean ====
section
/-! DEFINITION. Access to spaces 0 to 2 of this module by fabric address (R39 to R42): validity, the HBM
and DDR5 tiers with their codes and poison pattern (R252 to R259), weight-pair redirection (R412), and
the route of a request to another rank. -/

namespace Sys2Proof.Machine

/-! ### Fabric addresses -/

/-- RANK of a fabric address (R39). -/
def addrRank (a : Nat) : Nat := a / 2 ^ 51 % 2 ^ 13
/-- SPACE of a fabric address. -/
def addrSpace (a : Nat) : Nat := a / 2 ^ 47 % 2 ^ 4
/-- OFFSET of a fabric address. -/
def addrOff (a : Nat) : Nat := a % 2 ^ 47
/-- The fabric address of an offset of a space of a rank. -/
def fabAddr (rank space off : Nat) : Nat := rank * 2 ^ 51 + space * 2 ^ 47 + off % 2 ^ 47

/-- The rank field that names this module (R40). -/
def selfRank : Nat := 0x1FFF

/-- The module's own rank, 0x1FFF where it holds none (R297). -/
def State.ownRank (s : State) : Nat := fld (s.reg FAB_OWN_RANK) 0 13

/-- Whether a rank field names this module (R40). -/
def State.rankLocal (s : State) (r : Nat) : Bool := r == selfRank || r == s.ownRank

/-- Active HBM stacks (R4, R254). -/
def State.hbmStacks (s : State) : Nat := fld (s.reg DMC_IDENT) 19 4

/-- Bytes of a stack (R252). -/
def stackBytes : Nat := 48 * 2 ^ 30

/-- The first offset beyond the valid range of a space of this module (R41). -/
def State.spaceEnd (s : State) (space : Nat) : Nat :=
  match space with
  | 0 => s.tileCount * sliceBytes
  | 1 => s.hbmStacks * stackBytes
  | 2 => (s.reg (DDR_USABLE_LO 0)).toNat + 2 ^ 32 * (s.reg (DDR_USABLE_HI 0)).toNat
  | _ => 0

/-! ### Statuses of an access -/

/-- Status codes of R326, with the codes of R268 that a source's own network interface gives. -/
def stDone : Nat := 0
def stAddrInvalid : Nat := 1
def stAccessDenied : Nat := 2
def stTargetOff : Nat := 3
def stTimeout : Nat := 5
def stNoRoute : Nat := 6

/-- The status that an access to spaces 0 to 2 of this module meets before it starts (R40, R41, R326);
space 3 is not a data space (R242). A slice of a gated tile or of a tile in tile-row reset is off. (DEDUCED, log 27) -/
def State.spaceStatus (s : State) (space off len : Nat) : Nat :=
  if 3 ≤ space then stAddrInvalid
  else if s.spaceEnd space < off + len then stAddrInvalid
  else if space = 0 ∧ ((s.tile (off / sliceBytes)).gated ∨ (s.tile (off / sliceBytes)).inReset) then
    stTargetOff
  else stDone

/-! ### HBM and DDR5 lines (R253, R254, R258) -/

/-- The physical stack of a logical stack: the k-th READY one (R254). -/
def State.physStack (s : State) (k : Nat) : Nat :=
  ((List.range 8).filter fun i => fld (s.reg (HBM_STATUS i)) 0 3 == 3).getD k k

/-- The logical stack of an offset of space 1 (R254). -/
def State.stackOf (s : State) (off : Nat) : Nat := (off / 256) % max 1 s.hbmStacks

/-- Channels of the trained DDR5 sites, two each (R257, R258). -/
def State.ddrChannels (s : State) : List Nat :=
  (List.range 8).filter fun c => (fld (s.reg DMC_IDENT) 23 4 / 2 ^ (c / 2)) % 2 == 1

/-- The controller of an offset of space 2 (R257, R258): granule g lies on channel g mod N, and
controller k serves sites 2k and 2k + 1. -/
def State.ddrCtrl (s : State) (off : Nat) : Nat :=
  (s.ddrChannels.getD ((off / 256) % max 1 s.ddrChannels.length) 0) / 4

/-- The stack and the byte of it that an offset of space 1 names (R254). -/
def State.hbmPlace (s : State) (off : Nat) : Nat × Nat :=
  let n := max 1 s.hbmStacks
  (s.physStack ((off / 256) % n), ((off / 256) / n) * 256 + off % 256)

/-- The errors of a line of space 1 met by a read (R253): the cause it returns. -/
def hbmLineErr (s : State) (line : Nat) : State × Cause :=
  let k := s.physStack (s.stackOf (line * 64))
  match mapFind s.hbmErr line with
  | some .single => ((s.incReg (HBM_ECC_CORR k)).raiseRegion (48 + k) .eccCorr 0, .none)
  | some .double =>
    let s := (s.incReg (HBM_ECC_UNC k)).setReg (HBM_UNC_ADDR_LO k) (BitVec.ofNat 32 (line * 64))
    ((s.setReg (HBM_UNC_ADDR_HI k) (BitVec.ofNat 32 (line * 64 / 2 ^ 32))).raiseRegion (48 + k) .eccUnc 7, .ecc)
  | none => (s, if mapGet false s.hbmPoison line then .ecc else .none)

/-- The errors of a line of space 2 met by a read (R258). -/
def ddrLineErr (s : State) (line : Nat) : State × Cause :=
  let k := s.ddrCtrl (line * 64)
  match mapFind s.ddrErr line with
  | some .single => ((s.incReg (DDR_ECC_CORR k)).raiseRegion 60 .eccCorr 0, .none)
  | some .double =>
    let s := (s.incReg (DDR_ECC_UNC k)).setReg (DDR_UNC_ADDR_LO k) (BitVec.ofNat 32 (line * 64))
    ((s.setReg (DDR_UNC_ADDR_HI k) (BitVec.ofNat 32 (line * 64 / 2 ^ 32))).raiseRegion 60 .eccUnc 7, .ecc)
  | none => (s, if mapGet false s.ddrPoison line then .ecc else .none)

/-- The parts of a run of bytes that lie in one 64-byte line each: offset and length. -/
def linePieces (off n : Nat) : List (Nat × Nat) :=
  if n = 0 then []
  else (List.range ((off + n - 1) / 64 - off / 64 + 1)).map fun i =>
    let a := max off ((off / 64 + i) * 64)
    (a, min (off + n) ((off / 64 + i + 1) * 64) - a)

/-- Read bytes of a space of this module: the bytes, and the cause each carries. -/
def State.spaceRead (s : State) (space off n : Nat) : State × List (BitVec 8) × List Cause :=
  (linePieces off n).foldl (fun (acc : State × List (BitVec 8) × List Cause) p =>
    let (s, bs, cs) := acc
    match space with
    | 0 =>
      let (s, d) := s.spadRead (p.1 / sliceBytes) (p.1 % sliceBytes) p.2
      (s, bs ++ d.bytes, cs ++ d.causes)
    | 1 =>
      let (s, c) := hbmLineErr s (p.1 / 64)
      (s, bs ++ memRead s.hbm p.1 p.2, cs ++ List.replicate p.2 c)
    | _ =>
      let (s, c) := ddrLineErr s (p.1 / 64)
      (s, bs ++ memRead s.ddr p.1 p.2, cs ++ List.replicate p.2 c)) (s, [], [])

/-- A line of a tier after a write of part of it (R253): the new pattern flag, and whether the bytes are
kept. -/
def tierLine (pattern : Bool) (whole : Bool) (cause : Cause) : Bool × Bool :=
  if cause ≠ .none then (true, true)
  else if pattern ∧ !whole then (true, false)
  else (false, true)

/-- Write bytes to a space of this module; byte `i` carries cause `cs[i]`, none beyond the list (R236, R253,
R258, R327). -/
def State.spaceWrite (s : State) (space off : Nat) (bs : List (BitVec 8)) (cs : List Cause) : State :=
  (linePieces off bs.length).foldl (fun s p =>
    let b := (bs.drop (p.1 - off)).take p.2
    let c := (cs.drop (p.1 - off)).take p.2
    let line := p.1 / 64
    let whole := p.2 == 64
    match space with
    | 0 => s.spadWrite (p.1 / sliceBytes) (p.1 % sliceBytes) b c
    | 1 =>
      let (pat, keep) := tierLine (mapGet false s.hbmPoison line) whole (causeJoinAll c)
      { s with hbm := if keep then memWrite s.hbm p.1 b else s.hbm
               hbmPoison := mapSet false s.hbmPoison line pat
               hbmErr := if whole then mapDel s.hbmErr line else s.hbmErr }
    | _ =>
      let (pat, keep) := tierLine (mapGet false s.ddrPoison line) whole (causeJoinAll c)
      { s with ddr := if keep then memWrite s.ddr p.1 b else s.ddr
               ddrPoison := mapSet false s.ddrPoison line pat
               ddrErr := if whole then mapDel s.ddrErr line else s.ddrErr }) s

/-! ### Weight pairs (R412, R414) -/

/-- The space and offset of a copy of a pair. -/
def State.pairCopy (s : State) (b : Bool) (j : Nat) : Nat × Nat :=
  let lo := s.reg (if b then FRM_WPAIR_B_LO j else FRM_WPAIR_A_LO j)
  let hi := s.reg (if b then FRM_WPAIR_B_HI j else FRM_WPAIR_A_HI j)
  (fld hi 16 2, lo.toNat + 2 ^ 32 * fld hi 0 15)

/-- SIZE of a pair in bytes; 0 disables it. -/
def State.pairSize (s : State) (j : Nat) : Nat := (s.reg (FRM_WPAIR_SIZE j)).toNat * 65536

/-- The copies the current batch has latched: the pairs that read copy B (R414). -/
def State.batchCopies (s : State) : SMap Bool :=
  (List.range 4).foldl (fun m j => mapSet false m j (bit (s.reg (FRM_WPAIR_STATUS j)) 0)) []

/-- Redirect a line access of a stream run or engine copy (R412): the space and offset it uses. -/
def State.redirect (s : State) (copies : SMap Bool) (space off : Nat) : Nat × Nat :=
  match (List.range 4).find? fun j =>
      let (sp, a) := s.pairCopy false j
      mapGet false copies j && sp == space && decide (a ≤ off) && decide (off < a + s.pairSize j) with
  | some j =>
    let (_, a) := s.pairCopy false j
    let (sp, b) := s.pairCopy true j
    (sp, b + (off - a))
  | none => (space, off)

/-- The region of the memory behind an offset of space 1 or 2 (R31); none for the other spaces. -/
def State.memRegion (s : State) (space off : Nat) : Option Nat :=
  match space with
  | 1 => some (48 + s.physStack (s.stackOf off))
  | 2 => some 60
  | _ => none

/-- Whether the memory behind an offset is in a refresh window in a cycle, so that a request waits
(R256, R259). -/
def State.inRefresh (s : State) (space off cyc : Nat) : Bool :=
  let window := fun (k len : Nat) => match mapFind s.refresh k with
    | some c => decide (c ≤ cyc) && decide (cyc < c + len)
    | none => false
  match space with
  | 1 =>
    let k := s.physStack (s.stackOf off)
    window k (fld (s.reg (HBM_REF_LEN k)) 0 16)
  | 2 => window 8 (fld (s.reg (DDR_REF_LEN 0)) 0 16)
  | _ => false

/-! ### Local accesses by fabric address -/

/-- What an access by a unit of this module meets: a status, or the bytes. -/
def State.localRead (s : State) (copies : SMap Bool) (a n : Nat) :
    State × Nat × List (BitVec 8) × List Cause :=
  let (sp, off) := s.redirect copies (addrSpace a) (addrOff a)
  let st := if addrSpace a = 3 then stAccessDenied else s.spaceStatus sp off n
  if st ≠ stDone then (s, st, [], [])
  else
    let (s, bs, cs) := s.spaceRead sp off n
    (s, stDone, bs, cs)

/-- A write by a unit of this module by fabric address. -/
def State.localWrite (s : State) (copies : SMap Bool) (a : Nat) (bs : List (BitVec 8)) (cs : List Cause) :
    State × Nat :=
  let (sp, off) := s.redirect copies (addrSpace a) (addrOff a)
  let st := if addrSpace a = 3 then stAccessDenied else s.spaceStatus sp off bs.length
  if st ≠ stDone then (s, st) else (s.spaceWrite sp off bs cs, stDone)

end Sys2Proof.Machine
end

