-- ==== Sys2Proof/Machine/Net.lean ====
section
/-! DEFINITION. The network interface as a source (R297 to R311, R328 to R330): translation of ranks,
route entries, candidate paths, transaction entries and the packets that leave the module. -/

namespace Sys2Proof.Machine

/-! ### The module's place and the wiring (R295, R302, R303) -/

/-- The module's flock and member (R295). -/
def State.ownFlock (s : State) : Nat := fld (s.reg FAB_IDENT) 0 8
def State.ownMember (s : State) : Nat := fld (s.reg FAB_IDENT) 8 5

/-- Committed FAB_FLOCKS. -/
def State.flocks (s : State) : Nat := fld (s.reg FAB_FLOCKS) 0 9

/-- The module of a rank in the committed table: flock and member; none where it is not VALID (R297,
R299). -/
def State.rankModule (s : State) (r : Nat) : Option (Nat × Nat) :=
  let e := s.reg (FAB_RANK r)
  if r < 4096 ∧ bit e 31 then some (fld e 0 8, fld e 8 5) else none

/-- The flock port of member `m` towards member `m'` (R295). -/
def flockPort (m m' : Nat) : Nat := (m' + 17 - m - 1) % 17

/-- The member and port of the primary global link from flock `f` to flock `f'` (R295). -/
def gateway (f f' : Nat) : Nat × Nat := let i := f ^^^ f'; (i / 16, 16 + i % 16)

/-- The auxiliary global link of member 16 from flock `f` to flock `f'`, where there is one (R295). -/
def auxGateway (f f' : Nat) : Option (Nat × Nat) :=
  let i := f ^^^ f'
  if 1 ≤ i ∧ i ≤ 16 then some (16, 16 + (i - 1)) else none

/-- The registers of a link; a host port is link 32 or 33 and has its own (R425, R444). -/
def linkCfg (l : Nat) : Nat := if l < 32 then FAB_LINK_CFG l else HLK_PORT_CFG (l - 32)
def linkStatus (l : Nat) : Nat := if l < 32 then FAB_LINK_STATUS l else HLK_PORT_STATUS (l - 32)
def linkFec (l : Nat) : Nat := if l < 32 then FAB_LINK_FEC_CORR l else HLK_PORT_FEC_CORR (l - 32)
def linkRetry (l : Nat) : Nat := if l < 32 then FAB_LINK_RETRY l else HLK_PORT_RETRY (l - 32)
def linkDowns (l : Nat) : Nat := if l < 32 then FAB_LINK_DOWNS l else HLK_PORT_DOWNS (l - 32)

/-- The state of a link (R294): 0 DOWN, 1 TRAINING, 2 UP, 3 HELD, 4 MISWIRED, 5 DISABLED. -/
def State.linkState (s : State) (l : Nat) : Nat := fld (s.reg (linkStatus l)) 0 3

/-- The width code of a link: 3 is four lanes. -/
def State.linkWidth (s : State) (l : Nat) : Nat := fld (s.reg (linkStatus l)) 4 2

/-- Whether a link carries best-effort traffic. -/
def State.linkUp (s : State) (l : Nat) : Bool := s.linkState l == 2

/-- Whether a link carries scheduled slots: UP at four lanes (R293). -/
def State.linkSched (s : State) (l : Nat) : Bool := s.linkUp l && s.linkWidth l == 3

/-- The SerDes region of a link (R32). -/
def linkRegion (l : Nat) : Nat :=
  if 32 ≤ l then l + 25 else 56 + (if l < 16 then l / 4 else (l - 16) / 4)

/-- The link from a module to a neighbour (R295): a flock port, a primary global port, or of member 16 an
auxiliary one. -/
def linkTo (a b : Nat × Nat) : Nat :=
  if a.1 = b.1 then flockPort a.2 b.2
  else if a.2 = 16 then 16 + ((a.1 ^^^ b.1) - 1) % 16
  else 16 + (a.1 ^^^ b.1) % 16

/-- The links of a route that passes through the given modules. -/
def routeLinks (mods : List (Nat × Nat)) : List Nat :=
  match mods with
  | a :: b :: rest => linkTo a b :: routeLinks (b :: rest)
  | _ => []

/-- The modules between this one and another on the minimal route (R302); none to itself. -/
def State.minimalMids (s : State) (f m : Nat) : Option (List (Nat × Nat)) :=
  let f0 := s.ownFlock
  let m0 := s.ownMember
  if f = f0 then (if m = m0 then none else some [])
  else
    let g := (gateway f0 f).1
    some ((if g = m0 then [] else [(f0, g)]) ++ (if g = m then [] else [(f, g)]))

/-- The modules between on a route by a global link of member `g` of flock `f0` into flock `fi`, then of
member `g'` into flock `f`, then to member `m`. -/
def viaFlock (f0 m0 fi f m : Nat) (gp gp' : Nat × Nat) : List (Nat × Nat) :=
  (if gp.1 = m0 then [] else [(f0, gp.1)]) ++ [(fi, gp.1)]
    ++ (if gp'.1 = gp.1 then [] else [(fi, gp'.1)]) ++ (if gp'.1 = m then [] else [(f, gp'.1)])

/-- The global links from flock `f` to flock `f'`: the primary one, then the auxiliary one (R303). -/
def globals (f f' : Nat) : List (Nat × Nat) := gateway f f' :: (auxGateway f f').toList

/-- The modules between on each non-minimal route to a module, in the tie order of R310: within a flock by
an intermediate member, between flocks by an intermediate flock. -/
def State.detours (s : State) (f m : Nat) : List (List (Nat × Nat)) :=
  let f0 := s.ownFlock
  let m0 := s.ownMember
  if f = f0 then ((List.range 17).filter fun k => k != m0 && k != m).map fun k => [(f0, k)]
  else
    ((List.range s.flocks).filter fun k => k != f0 && k != f).flatMap fun fi =>
      (globals f0 fi).flatMap fun gp => (globals fi f).map fun gp' => viaFlock f0 m0 fi f m gp gp'

/-- Whether a module is in the exclusion set (R310). -/
def State.excluded (s : State) (fm : Nat × Nat) : Bool :=
  (List.range 64).any fun n =>
    let e := s.reg (FAB_EXCL n)
    bit e 31 && fld e 0 8 == fm.1 && fld e 8 5 == fm.2

/-- The candidate paths of a best-effort packet in the tie order of R310, each as its links: the minimal
route, then every non-minimal route whose first link is UP and whose intermediate modules are not
excluded. -/
def State.candidates (s : State) (f m : Nat) : List (List Nat) :=
  let own := (s.ownFlock, s.ownMember)
  let links := fun (mids : List (Nat × Nat)) => routeLinks (own :: mids ++ [(f, m)])
  let ok := fun (mids : List (Nat × Nat)) =>
    (match (links mids).head? with
      | some l => s.linkUp l
      | none => false) && !mids.any s.excluded
  ((s.minimalMids f m).toList ++ s.detours f m).filter ok |>.map links

/-- The path a best-effort packet takes (R310): under STRICT the first candidate; else the candidate
whose first hop has the most free credits, which the manual does not fix: a free choice among them. (DEDUCED, log 35) -/
def State.bePath (s : State) (f m : Nat) : State × Option (List Nat) :=
  let cs := s.candidates f m
  if cs.isEmpty then (s, none)
  else if bit (s.reg FRM_MODE) 0 then (s, cs.head?)
  else
    let (v, s) := s.free
    (s, cs[v % cs.length]?)

/-- The position of the first hop (R303): 0 on a flock link, 1 on a global link. -/
def firstPos (l : Nat) : Nat := if l < 16 then 0 else 1

/-! ### Scheduled transfers (R307, R308, R315) -/

/-- Whether the origin uses the twin route of a transfer (R315). -/
def State.usesTwin (s : State) (prog xfer : Nat) : Bool := s.twins.contains (prog, xfer)

/-- The origin entry of a transfer of the armed program with the current selection (R307, R308). -/
def State.originRoute (s : State) (xfer : Nat) : Option Route :=
  match s.frame.armed with
  | none => none
  | some p => s.routes.find? fun r =>
      r.prog == p && r.xfer == xfer && r.role == 0 && r.twin == s.usesTwin p xfer

/-- A scheduled transfer that timed out: FAB_TIMEOUT and its counters (R308). -/
def State.fabTimeout (s : State) (region xfer : Nat) : State :=
  ((s.incReg FAB_TIMEOUTS).orReg FAB_EVENT 0x8).raiseRegion region .fabTimeout xfer

/-! ### Transaction entries (R329, R330) -/

/-- Entries in use of a class. -/
def State.tidsUsed (s : State) (be : Bool) : Nat := (s.entries.filter fun e => e.pkt.be == be).length

/-- The lowest free entry number at or above `n`, among `fuel` numbers. -/
def lowestFree (used : List Nat) (fuel n : Nat) : Option Nat :=
  match fuel with
  | 0 => none
  | k + 1 => if used.contains n then lowestFree used k (n + 1) else some n

/-- The entry a new request of a class takes (R329). -/
def State.freeTid (s : State) (be : Bool) : Option Nat :=
  let used := s.entries.map fun e => e.pkt.tid
  if be then lowestFree used 12288 4096 else lowestFree used 4096 0

/-- What a link keeps after reset. -/
def linkReset : Link := ⟨0, 0, [], 0, false, 0, 3, false, false⟩

/-- The hidden state of a link. -/
def State.link (s : State) (l : Nat) : Link := mapGet linkReset s.fab.links l

/-- Change the hidden state of a link. -/
def State.modLink (s : State) (l : Nat) (f : Link → Link) : State :=
  { s with fab := { s.fab with links := mapSet linkReset s.fab.links l (f (s.link l)) } }

/-- Send a packet on a link: in flits of its own, the last of which the replay buffer keeps with it until
it is acknowledged (R290). -/
def State.emit (s : State) (l : Nat) (p : Packet) : State :=
  let n := (24 + p.data.length + 247) / 248
  let s := s.modLink l fun k => { k with
    tx := k.tx + BitVec.ofNat 12 n
    replay := k.replay ++ (List.range n).map fun i =>
      (k.tx + BitVec.ofNat 12 i, if i + 1 = n then some p else none) }
  { s with sent := s.sent ++ [(l, p)] }

/-- A packet is discarded (R312). -/
def State.discard (s : State) : State := (s.incReg FAB_DISCARD).orReg FAB_EVENT 0x20

/-- Send a best-effort packet towards a module on a path of R310; with no path it is discarded. -/
def State.bePacket (s : State) (f m : Nat) (p : Packet) : State :=
  match s.bePath f m with
  | (s, some (l :: rest)) => s.emit l { p with pos := firstPos l, hops := rest }
  | (s, _) => s.discard

/-- Whether a best-effort request with ORD waits for an earlier one to the same rank (R311). -/
def State.ordHeld (s : State) (e : NetEntry) : Bool :=
  e.pkt.ord && s.entries.any fun x => x.pkt.be && x.pkt.dst == e.pkt.dst && x.pkt.tid != e.pkt.tid
    && x.sent

/-- Send a best-effort request that holds an entry (R310); with no path it is lost, and only its
timeout answers it (R312). -/
def State.beSend (s : State) (e : NetEntry) : State :=
  let e' : NetEntry := { e with sent := true }
  let s := { s with entries := s.entries.map fun x => if x.pkt.tid = e.pkt.tid then e' else x }
  match s.rankModule e.pkt.dst with
  | none => s
  | some (f, m) => s.bePacket f m e.pkt

/-- Give a best-effort request its entry, and send it unless it waits for its order (R311, R330). -/
def State.beIssue (s : State) (e : NetEntry) (tid : Nat) : State :=
  let e := { e with pkt := { e.pkt with tid := tid } }
  let s1 := { s with entries := s.entries ++ [e] }
  if s1.ordHeld e then s1 else s1.beSend e

/-- Issue a request to another rank (R299, R308, R328, R329, R330): the status where it completes at once,
and the entry it takes. -/
def State.issue (s : State) (source : ReqSource) (p : Packet) : State × Option Nat × Option Nat :=
  let p := { p with src := s.ownRank }
  if s.ownRank = selfRank ∨ (s.rankModule p.dst).isNone then (s, some stNoRoute, none)
  else if p.be then
    match s.freeTid true with
    | some tid => (s.beIssue ⟨p, source, 0, false⟩ tid, none, some tid)
    | none => (State.incReg { s with reqWait := s.reqWait ++ [⟨p, source, 0, false⟩] } FAB_TID_WAIT, none, none)
  else
    match s.originRoute p.xfer with
    | none => (s.fabTimeout 61 p.xfer, some stTimeout, none)
    | some r =>
      match s.freeTid false with
      | none => (s.fabTimeout (linkRegion r.outLink) p.xfer, some stTimeout, none)
      | some tid =>
        let e : NetEntry := ⟨{ p with tid := tid, twin := r.twin }, source, r.prog, false⟩
        ({ s with entries := s.entries ++ [e] }, none, some tid)

/-- TID_FREE_SEND: the oldest waiting best-effort request takes a free entry (R330). -/
def tidFreeSend (s : State) : State :=
  match s.reqWait, s.freeTid true with
  | e :: rest, some tid => State.beIssue { s with reqWait := rest } e tid
  | _, _ => s

/-- Free an entry; requests that waited for its order are sent (R311, R329). -/
def State.dropEntry (s : State) (tid : Nat) : State :=
  let s := { s with entries := s.entries.filter fun e => e.pkt.tid != tid }
  (s.entries.filter fun e => e.pkt.be && !e.sent).foldl (fun s e =>
    if s.ordHeld e then s else s.beSend e) s

/-- The entry of a transaction number. -/
def State.entryOf (s : State) (tid : Nat) : Option NetEntry := s.entries.find? fun e => e.pkt.tid == tid

/-- A request packet without its source, entry and position. -/
def requestPacket (kind dst xfer space off len : Nat) (be ord : Bool) (data : List (BitVec 8))
    (marks : List Cause) : Packet :=
  ⟨dst, 0, kind, (if kind = 2 then 2 else if kind = 5 then 3 else 0), be, ord, false, 0, (len + 15) / 16, 0, xfer, space, off, data, marks, []⟩

/-- TID_FREE_SEND (R330). -/
def execTidFreeSend (s : State) : Host.Outcome State Fault Refusal := .next (tidFreeSend s)

end Sys2Proof.Machine
end

