-- ==== Sys2Proof/Machine/Streams.lean ====
section
/-! DEFINITION. The stream channels (R185 to R187, R238 to R244) and the arrival of row-stream words
(R247). -/

namespace Sys2Proof.Machine

/-! ### Starting a run (R185, R238, R241) -/

/-- Whether a run moves data from the tile to the far side. -/
def runOut (r : StreamRun) : Bool := r.sop == 3 || (r.sop == 1 && descMode r.words == 0 && descDir r.words)

/-- Whether an operation does not fit its descriptor's mode (R242 code 4). -/
def sopMisfit (sop : Nat) (w : List (BitVec 32)) : Bool :=
  if sop = 1 then descMode w == 2 else descMode w != 2

/-- Elements of a run: none where the operation does not fit (R242), or where nothing moves (R241). -/
def runCount (r : StreamRun) : Nat :=
  if sopMisfit r.sop r.words then 0
  else if descMode r.words ≠ 1 ∧ descRsize r.words = 0 then 0
  else descCount r.words

/-- An operation of fence counters is complete (R277). -/
def fenceDone (s : State) (t : Nat) (op : FenceOp) : State :=
  s.modTile t fun x => { x with fences := x.fences.filterMap fun e =>
    let l := e.2.filter fun o => o != op
    if l.isEmpty then none else some (e.1, l) }

/-- Retire a run that has completed: the channel is idle, its fences count down, and SEM is signalled in
the next cycle (R187, R277). -/
def retireRun (s : State) (t c : Nat) (r : StreamRun) (e : Nat) : State :=
  let s := s.modTile t fun x => { x with
    sigs := if r.semEn && !r.halted then x.sigs ++ [⟨r.sem, 1, some (e + 1)⟩] else x.sigs }
  let ch := s.chan t c
  fenceDone (s.setChan t c { ch with run := none, lastDesc := r.desc }) t (.run c)

/-- STREAM_COMPLETE: a run that has completed signals its semaphore and frees its channel. -/
def streamComplete (s : State) (t c : Nat) : State :=
  match (s.chan t c).run with
  | some r => match r.ended with
    | some e => if s.dueNow t e then retireRun s t c r e else s
    | none => s
  | none => s

/-- Start descriptor `d` of channel `c` (R185, R238, R241). (DEDUCED, log 111) -/
def streamStart (s : State) (t c d sop sem : Nat) (semEn : Bool) : State :=
  let x := s.cycle t
  -- a run that completed in an earlier cycle has left the channel
  let s := match (s.chan t c).run with
    | some r => match r.ended with
      | some e => if e < x then retireRun s t c r e else s
      | none => s
    | none => s
  let ch := s.chan t c
  let s := if ch.run.isSome then s.breakPromise t .slotOverlap else s
  let words := s.strDesc t c d
  let misfit := sopMisfit sop words
  let s := if misfit then raiseStream s t c 4 0 else s
  let r0 : StreamRun := ⟨d, words, sop, sem, semEn, x, 0, s.batchCopies, none, misfit, false, 0, 0, x + 2, none, []⟩
  let n := runCount r0
  let r : StreamRun := { r0 with ended := if n = 0 then some x else none }
  let ch' : Channel :=
    if descMode words = 1 then { ch with run := some r, lastDesc := d }
    else
      let b : BitVec 64 := if descRestart words then 0 else ch.cur
      { cur := b + BitVec.ofNat 64 (if misfit then 0 else descCount words)
        base := b
        basePrev := if ch.baseCycle = x then ch.basePrev else ch.base
        baseCycle := x
        run := some r
        lastDesc := d }
  s.setChan t c ch'

/-- SHALT: no further element, no completion signal (R185). -/
def streamHalt (s : State) (t c : Nat) : State :=
  let ch := s.chan t c
  match ch.run with
  | none => s
  | some r =>
    if r.waiting.isEmpty ∧ r.nextOff = 0 then
      fenceDone (s.setChan t c { ch with run := none, lastDesc := r.desc }) t (.run c)
    else s.setChan t c { ch with run := some { r with halted := true } }

/-! ### Requests (R241, R243) -/

/-- The index of an element: its line's offset, and the value and cause where the line has been read. -/
def runIndex (r : StreamRun) (i : Nat) : Nat × Option (Nat × Cause) :=
  let w := if descIfmt r.words then 2 else 4
  let off := descIdx r.words + i * w
  let line := off / 64 * 64
  (line, match r.idxLine with
    | some (l, bs, cs) =>
      if l = line then some (leNat ((bs.drop (off - line)).take w), causeJoinAll ((cs.drop (off - line)).take w))
      else none
    | none => none)

/-- Put a request of a run on its way. -/
def pushElem (r : StreamRun) (e : StreamElem) : StreamRun :=
  { r with
    waiting := r.waiting ++ [e]
    next := if e.last then r.next + 1 else r.next
    nextOff := if e.last then 0 else r.nextOff + e.len }

/-- The request for the next bytes of element `i`, whose far row starts at `far` (R241). (DEDUCED, log 28) -/
def lineRequest (s : State) (t c : Nat) (r : StreamRun) (i far : Nat) : State × StreamRun :=
  let size := descRsize r.words
  let o := r.nextOff
  let a := (far + o) % 2 ^ 64
  let len := min (size - o) (64 - a % 64)
  let last := decide (size ≤ o + len)
  let rank := addrRank a
  let remote := !s.rankLocal rank
  let loc := descLaddr r.words + i * size + o
  let (s, bs, cs) :=
    if runOut r then
      let (s, d) := ((spadHazard s t loc len).takePorts t (s.cycle t) loc len).spadRead t loc len
      (s, d.bytes, d.causes)
    else (s, [], [])
  let e : StreamElem := ⟨i, o, len, a, bs, cs, last, none, remote, none⟩
  if !remote then (s, pushElem r e)
  else if (4096 ≤ rank ∧ rank ≤ 8190) ∨ 4 ≤ addrSpace a then
    (s, pushElem r { e with answer := some (stAddrInvalid, [], []) })
  else if addrSpace a = 3 then (s, pushElem r { e with answer := some (stAccessDenied, [], []) })
  else
    let ord := descOrd r.words && last && decide (i + 1 = runCount r)
    let p := requestPacket (if runOut r then 0 else 1) rank (descXfer r.words) (addrSpace a) (addrOff a) len
      (descBe r.words) ord bs [causeJoinAll cs]
    let (s, st, _) := s.issue (.stream t c i o) p
    (s, pushElem r { e with answer := st.map fun k => (k, [], []) })

/-- The next request of a run, one in each cycle (R241). -/
def runRequest (s : State) (t c : Nat) (r : StreamRun) : State × StreamRun :=
  let i := r.next
  if runCount r ≤ i ∨ descMode r.words = 1 ∨ (r.halted ∧ r.nextOff = 0) then (s, r)
  else if descMode r.words = 0 then
    lineRequest s t c r i (descFaddr r.words + i * descFstride r.words)
  else
    match runIndex r i with
    | (_, none) => (s, r)
    | (_, some (ix, cause)) =>
      let size := descRsize r.words
      let whole : StreamElem := ⟨i, 0, size, 0, [], [], true, none, false, none⟩
      if cause ≠ .none then
        (s, pushElem r { whole with fail := some (if r.sop = 3 then 2 else 0, cause) })
      else if descTrows r.words ≤ ix then (s, pushElem r { whole with fail := some (2, .none) })
      else
        let far := descFaddr r.words + ix * size
        -- a scatter holds a write to a row until every earlier write to it is acknowledged
        if r.sop = 3 ∧ r.waiting.any (fun e => e.remote && e.answer.isNone && e.far == (far + r.nextOff) % 2 ^ 64
            && e.fail.isNone) then (s, r)
        else lineRequest s t c r i far

/-- Read the index line that the next cycle's request needs (R241). -/
def runIndexRead (s : State) (t : Nat) (r : StreamRun) : State × StreamRun :=
  if descMode r.words ≠ 2 ∨ runCount r ≤ r.next ∨ r.halted ∨ r.nextOff ≠ 0 then (s, r)
  else
    match runIndex r r.next with
    | (_, some _) => (s, r)
    | (line, none) =>
      let (s, d) := ((spadHazard s t line 64).takePorts t (s.cycle t) line 64).spadRead t line 64
      (s, { r with idxLine := some (line, d.bytes, d.causes) })

/-- One cycle of a channel's requests (R241). -/
def streamCycle (s : State) (t c : Nat) : State :=
  match (s.chan t c).run with
  | none => s
  | some r =>
    if r.ended.isSome ∨ s.cycle t < r.reqAt then s
    else
      let (s, r) := runRequest s t c r
      let (s, r) := runIndexRead s t r
      s.setChan t c { s.chan t c with run := some r }

/-! ### Replies (R241 to R243) -/

/-- Raise a fault of a run: the event once for each run (R242). -/
def runFault (s : State) (t c : Nat) (r : StreamRun) (code elem : Nat) : State × StreamRun :=
  if code = 0 ∨ r.faulted then (s, r)
  else (raiseStream s t c code elem, { r with faulted := true })

/-- Note that a channel wrote a poison mark (R261). -/
def notePoison (s : State) (t c : Nat) (cs : List Cause) : State :=
  if causeJoinAll cs = .none then s else s.orReg (STR_EVENT t) (BitVec.ofNat 32 (2 ^ (4 + c)))

/-- Write a reply's bytes to the slice. -/
def replyWrite (s : State) (t c off : Nat) (bs : List (BitVec 8)) (cs : List Cause) : State :=
  notePoison (s.spadProduce t off bs cs) t c cs

/-- Apply the reply to one request (R241 to R243). -/
def applyReply (s : State) (t c : Nat) (r : StreamRun) (e : StreamElem) : State × StreamRun :=
  let loc := descLaddr r.words + e.elem * descRsize r.words + e.off
  match e.fail with
  | some (code, cause) =>
    let (s, r) := runFault s t c r code e.elem
    if r.sop = 3 then (s, r)
    else (replyWrite s t c loc (List.replicate e.len 0) (List.replicate e.len cause), r)
  | none =>
    if runOut r then
      let (s, st) := match e.answer with
        | some (k, _, _) => (s, k)
        | none => s.localWrite r.copies e.far e.bytes e.causes
      let s := if st = stDone then notePoison s t c e.causes else s
      runFault s t c r (if st = stDone then 0 else 1) e.elem
    else
      let (s, st, bs, cs) := match e.answer with
        | some (k, bs, cs) => (s, k, bs, cs)
        | none => s.localRead r.copies e.far e.len
      if st = stDone then (replyWrite s t c loc (bs.take e.len) (cs.take e.len), r)
      else
        let (s, r) := runFault s t c r 1 e.elem
        (replyWrite s t c loc (List.replicate e.len 0) [], r)

/-- The run after the reply to its oldest request: it completes with its last element, and a halted run
leaves the channel at its element boundary (R185, R187). -/
def afterReply (s : State) (t c : Nat) (r : StreamRun) (e : StreamElem) : State :=
  let r := { r with
    waiting := r.waiting.drop 1
    done := if e.last then e.elem + 1 else r.done }
  let r := { r with ended := if runCount r ≤ r.done then some (s.cycle t) else r.ended }
  let ch := s.chan t c
  if r.halted ∧ r.waiting.isEmpty ∧ r.nextOff = 0 then
    fenceDone (s.setChan t c { ch with run := none, lastDesc := r.desc }) t (.run c)
  else s.setChan t c { ch with run := some r }

/-- Apply the reply to a run's oldest request, where it has come: a request on this module is answered
now, unless it waits for a refresh window to end (R256), one to another rank once its answer has
arrived. (DEDUCED, log 118) -/
def replyOldest (s : State) (t c : Nat) (r : StreamRun) : State :=
  match r.waiting with
  | [] => s
  | e :: _ =>
    let place := s.redirect r.copies (addrSpace e.far) (addrOff e.far)
    if e.remote ∧ e.answer.isNone ∧ e.fail.isNone then s
    else if !e.remote ∧ e.fail.isNone ∧ s.tileIssues t ∧ s.inRefresh place.1 place.2 (s.cycle t) then s
    else
      let s := match (if e.remote || e.fail.isSome then none else s.memRegion place.1 place.2) with
        | some n => s.noteWork n (s.cycle t)
        | none => s
      let (s, r) := applyReply s t c r e
      afterReply s t c r e

/-- STREAM_REPLY: the oldest request of a channel's run is answered and its bytes are written. Outside
the cycles of a frame a request that has not issued yet issues first (R241: an open run continues). -/
def streamReply (s : State) (t c : Nat) : State :=
  match (s.chan t c).run with
  | none => s
  | some r =>
    if r.ended.isSome then s
    else if r.waiting.isEmpty then
      if s.tileIssues t then s
      else
        let (s, r) := runIndexRead s t r
        let (s, r) := runRequest s t c r
        replyOldest (s.setChan t c { s.chan t c with run := some r }) t c r
    else replyOldest s t c r

/-- Answers of another rank at the head of a run are applied in order (R241). -/
def replyAnswered (s : State) (t c fuel : Nat) : State :=
  match fuel with
  | 0 => s
  | k + 1 =>
    match (s.chan t c).run with
    | none => s
    | some r =>
      match r.waiting with
      | e :: _ => if e.remote ∧ e.answer.isSome then replyAnswered (replyOldest s t c r) t c k else s
      | [] => s

/-- The answer of another rank to a stream's request (R326). -/
def streamAnswer (s : State) (t c elem off st : Nat) (bs : List (BitVec 8)) (cs : List Cause) : State :=
  match (s.chan t c).run with
  | none => s
  | some r =>
    let r := { r with waiting := r.waiting.map fun e =>
      if e.remote ∧ e.elem = elem ∧ e.off = off ∧ e.answer.isNone then { e with answer := some (st, bs, cs) }
      else e }
    replyAnswered (s.setChan t c { s.chan t c with run := some r }) t c r.waiting.length

/-! ### Row streams (R247) -/

/-- ROW_STREAM_ARRIVAL: rows whose cycle has come reach the tile. -/
def rowArrival (s : State) (t : Nat) : State :=
  let mine := s.rowWords.filter fun w => w.dest == t && s.dueNow t w.due
  let s := { s with rowWords := s.rowWords.filter fun w => !(w.dest == t && s.dueNow t w.due) }
  if mine.isEmpty then s else s.modTile t fun x => { x with rowIn := x.rowIn ++ mine }

/-- The descriptor a stream operation with induction starts: (DESC + j) mod 32 (R185). -/
def streamIndex (s : State) (t desc ind : Nat) : Nat :=
  if 4 ≤ ind then (desc + (ctlJ (s.tile t).ctl (ind - 4)).toNat) % 32 else desc

/-- Run a stream operation of a bundle. -/
def streamOp (s : State) (t sop ch desc sem ind : Nat) (semEn : Bool) : State :=
  if sop = 4 then streamHalt s t ch
  else streamStart s t ch (streamIndex s t desc ind) sop sem semEn

/-- SRUN (R185, R241). -/
def execSrun (t : Nat) (ch : BitVec 2) (desc sem : BitVec 5) (semEn : Bool) (ind : BitVec 3) (s : State) :
    Host.Outcome State Fault Refusal :=
  onSlot s t (indReserved ind) fun s => streamOp s t 1 ch.toNat desc.toNat sem.toNat ind.toNat semEn

/-- SGATHER (R186). -/
def execSgather (t : Nat) (ch : BitVec 2) (desc sem : BitVec 5) (semEn : Bool) (ind : BitVec 3) (s : State) :
    Host.Outcome State Fault Refusal :=
  onSlot s t (indReserved ind) fun s => streamOp s t 2 ch.toNat desc.toNat sem.toNat ind.toNat semEn

/-- SSCATTER (R186). -/
def execSscatter (t : Nat) (ch : BitVec 2) (desc sem : BitVec 5) (semEn : Bool) (ind : BitVec 3) (s : State) :
    Host.Outcome State Fault Refusal :=
  onSlot s t (indReserved ind) fun s => streamOp s t 3 ch.toNat desc.toNat sem.toNat ind.toNat semEn

/-- SHALT (R185). -/
def execShalt (t : Nat) (ch : BitVec 2) (s : State) : Host.Outcome State Fault Refusal :=
  onIssue s t fun s => streamHalt s t ch.toNat

/-- STREAM_REPLY (R241). -/
def execStreamReply (t : Nat) (ch : BitVec 2) (s : State) : Host.Outcome State Fault Refusal :=
  s.onTile t fun s => streamReply s t ch.toNat

/-- STREAM_COMPLETE (R187). -/
def execStreamComplete (t : Nat) (ch : BitVec 2) (s : State) : Host.Outcome State Fault Refusal :=
  s.onTile t fun s => streamComplete s t ch.toNat

/-- ROW_STREAM_ARRIVAL (R247). -/
def execRowStreamArrival (t : Nat) (s : State) : Host.Outcome State Fault Refusal :=
  onRun s t fun s => rowArrival s t

end Sys2Proof.Machine
end

