-- ==== Sys2Proof/Machine/Messages.lean ====
section
/-! DEFINITION. Messages and synchronisation (R265 to R279): the message format, the receiver's checks,
the Mule inbox and the landing ports, answers and notices, the message slot, fences, signals and check
points (R153 to R156). -/

namespace Sys2Proof.Machine

/-! ### The message (R265) -/

/-- The 128 bits of a message (R265). -/
def msgBits (m : Msg) : BitVec 128 :=
  BitVec.ofNat 128 (m.rank.toNat + m.tile.toNat * 2 ^ 13 + m.port.toNat * 2 ^ 23 + m.tag.toNat * 2 ^ 27
    + m.epoch.toNat * 2 ^ 43 + m.ord.toNat * 2 ^ 51 + m.be.toNat * 2 ^ 52 + m.notice.toNat * 2 ^ 53
    + m.user.toNat * 2 ^ 54 + m.payload.toNat * 2 ^ 56)

/-- The message of 128 bits; bits 127:120 are reserved (R265). -/
def msgOfBits (b : BitVec 128) : Msg :=
  { rank := b.extractLsb' 0 13, tile := b.extractLsb' 13 10, port := b.extractLsb' 23 4,
    tag := b.extractLsb' 27 16, epoch := b.extractLsb' 43 8, ord := b.getLsbD 51, be := b.getLsbD 52,
    notice := b.getLsbD 53, user := b.extractLsb' 54 2, payload := b.extractLsb' 56 64 }

/-- The order of messages by TAG, then PAYLOAD (R162, R274). -/
def msgBefore (a b : Msg) : Bool :=
  decide (a.tag.toNat < b.tag.toNat) || (a.tag == b.tag && decide (a.payload.toNat < b.payload.toNat))

/-- Insert behind every item that is not after it. -/
def insertBy {α : Type} (before : α → α → Bool) (x : α) (l : List α) : List α :=
  match l with
  | [] => [x]
  | y :: rest => if before x y then x :: y :: rest else y :: insertBy before x rest

/-- A stable sort. -/
def sortBy {α : Type} (before : α → α → Bool) (l : List α) : List α :=
  l.foldl (fun acc x => insertBy before x acc) []

/-- FRM_MODE.STRICT (R65). -/
def State.strict (s : State) : Bool := bit (s.reg FRM_MODE) 0

/-! ### Answers (R268) -/

def ansAccepted : Nat := 0
def ansFull : Nat := 1
def ansAbsent : Nat := 2
def ansStale : Nat := 3
def ansBadport : Nat := 4

/-- The tile a source on this module belongs to. -/
def sourceTile (r : ReqSource) : Option Nat :=
  match r with
  | .stream t _ _ _ => some t
  | .slotMsg t _ => some t
  | .mule t => some t
  | _ => none

/-- The on-die distance of a message from its sender (R269): Δt between tiles, 60 to a device semaphore,
12 for a message that has no receiving tile. -/
def State.msgDelta (s : State) (src : ReqSource) (m : Msg) : Nat :=
  if m.port = 1 then 60
  else if s.tileCount ≤ m.tile.toNat ∨ (6 ≤ m.port.toNat ∧ m.port.toNat ≤ 14) then 12
  else match sourceTile src with
    | some t => tileDelta t m.tile.toNat
    | none => 60

/-- Answer a message (R268): on the die it travels back to the sender, to another rank as an ANSWER
packet. (DEDUCED, log 109) -/
def answerMsg (s : State) (sender : MsgFrom) (m : Msg) (code : Nat) : State :=
  let s := if code = 0 then s else s.incReg (MSG_NACK_SENT code)
  match sender with
  | .die src due =>
    let t := m.tile.toNat
    let now := if m.port = 1 ∨ s.tileCount ≤ t then due else max due (s.cycle t)
    { s with answers := s.answers ++ [⟨src, code, now + s.msgDelta src m⟩] }
  | .rank src tid be link xfer =>
    let p : Packet := ⟨src, s.ownRank, 4, 1, be, false, false, 0, 1, tid, xfer, 0, 0,
      BitVec.ofNat 8 code :: List.replicate 15 0, [.none], []⟩
    if be then
      match s.rankModule src with
      | some (f, k) => s.bePacket f k p
      | none => s.discard
    else s.emit link { p with pos := firstPos link }

/-! ### The Mule inbox (R160) -/

/-- Whether a Mule dispatches while it is halted (R160): after executing HALT, with IDLE_DISPATCH set. -/
def State.muleIdle (s : State) (t : Nat) : Bool :=
  let m := (s.tile t).mule
  m.state == .halted && m.haltedByHalt && bit (s.reg (MUL_CTRL t)) 3

/-- The handler entry that matches a tag: the lowest-numbered enabled one (R160). -/
def State.handlerFor (s : State) (t : Nat) (tag : BitVec 16) : Option Nat :=
  (List.range 16).find? fun n =>
    let w := s.reg (MUL_HMATCH t n)
    bit (s.reg (MUL_HADDR t n)) 31 && (tag &&& w.extractLsb' 16 16) == w.extractLsb' 0 16

/-- Offer a message to a Mule's inbox: steps 1 to 4 of R160. -/
def inboxOffer (s : State) (t : Nat) (m : Msg) : State × Nat :=
  let x := s.tile t
  if x.mule.state = .fault ∨ (x.mule.state = .halted ∧ !s.muleIdle t) ∨ x.gated then (s, ansAbsent)
  else match s.handlerFor t m.tag with
    | none => (s, ansBadport)
    | some n =>
      if 16 ≤ x.mule.inbox.length then (s, ansFull)
      else
        (s.modTile t fun y => { y with mule := { y.mule with
          inbox := y.mule.inbox ++ [⟨m, n, y.ctl.cycle + 1, false⟩] } }, ansAccepted)

/-! ### Landing ports (R273, R274) -/

/-- Whether landing port `q` is open. -/
def State.portOpen (s : State) (t q : Nat) : Bool := mapGet false (s.tile t).landOpen q

/-- Land a message at port `q` (R273): the state and the answer. -/
def landMsg (s : State) (t q : Nat) (m : Msg) : State × Nat :=
  let cfg := s.reg (MSG_LAND_CFG t q)
  let pair := fld cfg 22 4
  let entries := fld cfg 14 8
  if !s.portOpen t q || (s.tile t).gated then (s, ansAbsent)
  else if s.sem t (2 * pair + 1) = 0 then (s, ansFull)
  else
    let wr := fld (s.reg (MSG_LAND_WR t q)) 0 8
    let s := s.takeSem t (2 * pair + 1)
    let s := s.spadWrite t (fld cfg 0 14 * 64 + wr * 16) (leBytes 16 (msgBits m).toNat) []
    let s := s.setReg (MSG_LAND_WR t q) (BitVec.ofNat 32 ((wr + 1) % max 1 entries))
    (s.modTile t fun x => { x with sigs := x.sigs ++ [⟨2 * pair, 1, some (x.ctl.cycle + 1)⟩] }, ansAccepted)

/-- Land a held message and answer it. -/
def landHeld (s : State) (t : Nat) (l : Landing) : State :=
  let s := s.modTile t fun x => { x with landings := x.landings.erase l }
  let (s, code) := landMsg s t (l.msg.port.toNat - 2) l.msg
  answerMsg s l.sender l.msg code

/-- Whether a held scheduled message lands before another: by due cycle, then TAG, then PAYLOAD (R274). -/
def landBefore (a b : Landing) : Bool :=
  match a.due, b.due with
  | some x, some y => decide (x < y) || (x == y && msgBefore a.msg b.msg)
  | some _, none => true
  | _, _ => msgBefore a.msg b.msg

/-- The scheduled messages of a tile whose due cycle has come, in the order they land. -/
def State.dueLandings (s : State) (t : Nat) : List Landing :=
  sortBy landBefore ((s.tile t).landings.filter fun l => match l.due with
    | some d => s.dueNow t d
    | none => false)

/-- SCHEDULED_LANDING: the next scheduled message whose due cycle has come lands (R274). -/
def scheduledLanding (s : State) (t : Nat) : State :=
  match s.dueLandings t with
  | l :: _ => landHeld s t l
  | [] => s

/-! ### Receiving (R269) -/

/-- The first refusal of steps 1 to 3 of R269; 0 where there is none. -/
def State.receiveCheck (s : State) (m : Msg) : Nat :=
  let p := m.port.toNat
  let badport := (decide (6 ≤ p) && decide (p ≤ 14))
    || (if p = 1 then m.tile != 0 else decide (s.tileCount ≤ m.tile.toNat))
    || (p == 0 && decide (32 ≤ m.tag.toNat)) || (p == 1 && decide (256 ≤ m.tag.toNat))
  let epoch := if p = 1 then fld (s.reg MSG_MOD_EPOCH) 0 8 else fld (s.reg (MSG_EPOCH m.tile.toNat)) 0 8
  if badport then ansBadport
  else if m.epoch.toNat ≠ epoch then ansStale
  else if s.frame.safe.isSome then ansAbsent
  else ansAccepted

/-- Receive a message (R269, R273, R274, R276): `due` is the due cycle of a scheduled one. -/
def receiveMsg (s : State) (m : Msg) (sender : MsgFrom) (due : Nat) : State :=
  let t := m.tile.toNat
  let code := s.receiveCheck m
  if code ≠ 0 then answerMsg s sender m code
  else
    let inc := (m.payload.extractLsb' 0 16).toNat
    match m.port.toNat with
    | 0 =>
      let s := s.modTile t fun x => { x with sigs := x.sigs ++ [⟨m.tag.toNat, inc, some x.ctl.cycle⟩] }
      answerMsg s sender m ansAccepted
    | 1 => answerMsg { s with dsigs := s.dsigs ++ [(m.tag.toNat, inc)] } sender m ansAccepted
    | 15 =>
      let (s, c) := inboxOffer s t m
      answerMsg s sender m c
    | p =>
      if !m.be then
        s.modTile t fun x => { x with landings := x.landings ++ [⟨m, sender, some due, x.ctl.cycle + 1⟩] }
      else if s.strict then
        s.modTile t fun x => { x with landings := x.landings ++ [⟨m, sender, none, x.ctl.cycle + 1⟩] }
      else
        let (s, c) := landMsg s t (p - 2) m
        answerMsg s sender m c

/-! ### Negative acknowledgements (R270) -/

/-- The MSG_NACK event of a tile (R270). -/
def nackFault (s : State) (t code : Nat) : State :=
  (s.orReg (MSG_EVENT t) 1).raiseTile t .msgNack code

/-- The notice of a refused message (R270). -/
def noticeMsg (s : State) (t : Nat) (o : Outstanding) (code : Nat) : Msg :=
  { rank := 0x1FFF, tile := BitVec.ofNat 10 t, port := 0xF, tag := o.ntag,
    epoch := BitVec.ofNat 8 (fld (s.reg (MSG_EPOCH t)) 0 8), ord := false, be := false, notice := true,
    user := 0, payload := o.payloadLow ++ BitVec.ofNat 32 (code + o.template * 256) }

/-- What a tile does with a negative acknowledgement to its message slot (R270). -/
def slotNack (s : State) (t : Nat) (o : Outstanding) (code : Nat) : State :=
  let s := (s.incReg (MSG_NACK_COUNT t)).setReg (MSG_NACK_LAST t)
    (BitVec.ofNat 32 (code + o.template * 8 + (s.cycle t % 2 ^ 24) * 256))
  match o.nackpol with
  | 1 => nackFault s t code
  | 2 =>
    let (s, c) := inboxOffer s t (noticeMsg s t o code)
    if c = ansAccepted then s else nackFault (s.orReg (MSG_EVENT t) 2) t code
  | _ => s

/-- The answer to a message-slot operation (R270, R277). -/
def slotAnswer (s : State) (t id code : Nat) : State :=
  match (s.tile t).outstanding.find? fun o => o.id == id with
  | none => s
  | some o =>
    let s := s.modTile t fun x => { x with outstanding := x.outstanding.filter fun y => y.id != id }
    let s := fenceDone s t (.msg id)
    if code = 0 then s else slotNack s t o code

/-- The answer to a Mule's SEND: d receives the code and the Mule goes on (R159). -/
def muleSendAnswer (s : State) (t code : Nat) : State :=
  s.modTile t fun x =>
    match x.mule.sendDest with
    | none => x
    | some d => { x with mule := { x.mule with
        sendDest := none
        state := if x.mule.stopAsked then .halted else x.mule.state
        stopAsked := false
        haltedByHalt := false
        pc := x.mule.pc + 4
        regs := if d = 0 then x.mule.regs else mapSet 0 x.mule.regs d (BitVec.ofNat 32 code) } }

/-- A message's answer reaches the unit that waits (R270, R325). -/
def messageAnswered (s : State) (source : ReqSource) (code : Nat) : State :=
  match source with
  | .slotMsg t id => slotAnswer s t id code
  | .mule t => muleSendAnswer s t code
  | .notify _ => if code = 0 then s else s.incReg FAB_NOTIFY_NACK
  | _ => s

/-- MESSAGE_ANSWER: the oldest answer on its way on the die reaches its sender. -/
def messageAnswer (s : State) : State :=
  match s.answers with
  | a :: rest => messageAnswered { s with answers := rest } a.source a.code
  | [] => s

/-! ### Sending (R265, R279) -/

/-- Send a message: on the die it is in flight to its receiver, to another rank it is a request (R299,
R308). -/
def sendMsg (s : State) (source : ReqSource) (now xfer : Nat) (m : Msg) : State :=
  if s.rankLocal m.rank.toNat then
    { s with flight := s.flight ++ [⟨m, source, now + 3 + s.msgDelta source m⟩] }
  else
    let p := requestPacket 2 m.rank.toNat xfer 0 0 16 m.be m.ord (leBytes 16 (msgBits m).toNat) [.none]
    match s.issue source p with
    | (s, some st, _) => messageAnswered s source st
    | (s, none, _) => s

/-- Receive a message in flight on the die. -/
def receiveFlight (s : State) (f : Flight) : State :=
  receiveMsg { s with flight := s.flight.erase f } f.msg (.die f.source f.due) f.due

/-- The words of template `m` (R279). -/
def State.template (s : State) (t m w : Nat) : BitVec 32 := s.reg (MSG_TPL t m w)

/-- The message that the message slot builds from a template (R279). -/
def templateMsg (s : State) (t tpl : Nat) (ord : Bool) (payload : BitVec 64) : Msg :=
  let w0 := s.template t tpl 0
  let w1 := s.template t tpl 1
  { rank := w0.extractLsb' 0 13, tile := w0.extractLsb' 13 10, port := w0.extractLsb' 23 4,
    tag := w1.extractLsb' 0 16, epoch := w1.extractLsb' 16 8, ord := ord, be := bit w0 27,
    notice := false, user := w1.extractLsb' 24 2, payload := payload }

/-- The value of a fence counter: operations it still counts (R277). -/
def State.fence (s : State) (t f : Nat) : Nat := (mapGet [] (s.tile t).fences f).length

/-- Send or hold the message of a template (R270, R277, R279). -/
def slotSend (s : State) (t tpl : Nat) (ord : Bool) (payload : BitVec 64) : State :=
  let w0 := s.template t tpl 0
  let w1 := s.template t tpl 1
  let w2 := s.template t tpl 2
  let s := if 16 ≤ (s.tile t).outstanding.length then s.breakPromise t .slotOverlap else s
  let id := (s.tile t).msgSerial
  let o : Outstanding := ⟨id, tpl, fld w0 28 2, w2.extractLsb' 0 16, payload.extractLsb' 0 32⟩
  let m := templateMsg s t tpl ord payload
  let s := s.modTile t fun x => { x with msgSerial := id + 1, outstanding := x.outstanding ++ [o] }
  let fc := fld w1 26 2
  if bit w0 30 ∧ s.fence t fc ≠ 0 then
    s.modTile t fun x => { x with held := x.held ++ [⟨id, fc, fld w2 16 16, m⟩] }
  else sendMsg s (.slotMsg t id) (s.cycle t) (fld w2 16 16) m

/-- FENCE_RELEASE_SEND: the oldest held message whose fence counter reads 0 is sent (R277). -/
def fenceReleaseSend (s : State) (t : Nat) : State :=
  match (s.tile t).held.find? fun h => s.fence t h.fence == 0 with
  | some h =>
    sendMsg (s.modTile t fun x => { x with held := x.held.erase h }) (.slotMsg t h.id) (s.cycle t) h.xfer h.msg
  | none => s

/-- MSEND (R188, R279): a payload that is poisoned or uncorrectable is not sent, with one event; the read of
an unmarked line with an uncorrectable error has raised it (R235). (DEDUCED, log 110) -/
def msend (s : State) (t tpl paddr : Nat) (ord : Bool) (ind step : Nat) : State :=
  let j := if 4 ≤ ind then (ctlJ (s.tile t).ctl (ind - 4)).toNat else 0
  let off := (paddr + j * step) % 2 ^ 17 * 8
  let marked : Bool := mapGet Cause.none s.spadMark (spadOff t off / 64) != .none
  let (s, d) := ((spadHazard s t off 8).takePorts t (s.cycle t) off 8).spadRead t off 8
  let c := causeJoinAll d.causes
  if c ≠ .none then if !marked then s else s.raiseTile t (causeKind c) (causeCode c)
  else slotSend s t tpl ord (BitVec.ofNat 64 (leNat d.bytes))

/-- MSIG (R188, R279). -/
def msig (s : State) (t tpl inc : Nat) (ord : Bool) : State := slotSend s t tpl ord (BitVec.ofNat 64 inc)

/-- MFENCE (R277): the counter takes the incomplete operations issued before this cycle. -/
def mfence (s : State) (t f : Nat) : State :=
  let msgs := (s.tile t).outstanding.map fun o => FenceOp.msg o.id
  let runs := (List.range 4).filterMap fun c => match (s.chan t c).run with
    | some r => if runOut r ∧ r.issue ≠ s.cycle t ∧ r.ended.isNone then some (FenceOp.run c) else none
    | none => none
  s.modTile t fun x => { x with fences := mapSet [] x.fences f (msgs ++ runs) }

/-! ### Signals (R276) -/

/-- SEMAPHORE_SIGNAL on a tile semaphore: the sum of the signals that have arrived is applied once. A
signal to a tile in tile-row reset is dropped and counted (R272). `open_` takes the signals whose arrival no
cycle fixes, too. -/
def applySigs (s : State) (t n : Nat) (open_ : Bool) : State :=
  let here := fun (g : Sig) => g.sem == n && (match g.due with
    | some d => s.dueNow t d
    | none => open_)
  let mine := (s.tile t).sigs.filter here
  if mine.isEmpty then s
  else
    let s1 := s.modTile t fun x => { x with sigs := x.sigs.filter fun g => !here g }
    if (s.tile t).inReset then s1.addReg MSG_SIG_DROP mine.length
    else s1.signalSem t n (mine.foldl (fun k g => k + g.inc) 0)

/-- SEMAPHORE_SIGNAL on a device semaphore. -/
def applyDsigs (s : State) (n : Nat) : State :=
  let mine := s.dsigs.filter fun g => g.1 == n
  if mine.isEmpty then s
  else State.signalDsem { s with dsigs := s.dsigs.filter fun g => g.1 != n } n
    (mine.foldl (fun k g => k + g.2) 0)

/-- A signal with no epoch to a target coded as in R158: bit 15 clear, semaphore 4:0 of tile 14:5; bit 15
set, device semaphore 7:0. -/
def signalTarget (s : State) (target inc : Nat) : State :=
  if target / 2 ^ 15 % 2 = 1 then { s with dsigs := s.dsigs ++ [(target % 256, inc)] }
  else
    let t := target / 32 % 1024
    if t < s.tileCount then
      s.modTile t fun x => { x with sigs := x.sigs ++ [⟨target % 32, inc, none⟩] }
    else s

/-! ### Check points (R153 to R156, R162, R274) -/

/-- The effects of passing a check point (R162, R274): messages that entered the inbox before this cycle are
released in order of tag and payload, and best-effort messages held at landing ports land in that
order. -/
def checkPoint (s : State) (t : Nat) : State :=
  if !s.strict then s
  else
    let x := s.cycle t
    let s := s.modTile t fun y =>
      let old := y.mule.inbox.filter fun e => e.released
      let new := (y.mule.inbox.filter fun e => !e.released && decide (e.entered ≤ x)).map fun e =>
        { e with released := true }
      let rest := y.mule.inbox.filter fun e => !e.released && !decide (e.entered ≤ x)
      { y with mule := { y.mule with
        inbox := old ++ sortBy (fun a b => msgBefore a.msg b.msg) new ++ rest } }
    (sortBy (fun a b => msgBefore a.msg b.msg)
      ((s.tile t).landings.filter fun l => l.due.isNone && decide (l.arrived ≤ x))).foldl
      (fun s l => landHeld s t l) s

/-- CP_TAKE (R153, R154, R156). -/
def cpTake (s : State) (t n : Nat) : State :=
  if s.sem t n = 0 then (s.incReg (MUL_LATE_COUNT t)).raiseTile t .muleLate n
  else
    let margin := s.cycle t - mapGet 0 (s.tile t).semRose n
    let s := s.takeSem t n
    s.setReg (MUL_MARGIN_MIN t) (BitVec.ofNat 32 (min margin (s.reg (MUL_MARGIN_MIN t)).toNat))

/-- What a Mule-interface operation does to its semaphore (R153): 1 CP_TAKE, 2 CP_GIVE, 3 CP_MARK. -/
def cpSem (s : State) (t op n : Nat) : State :=
  match op with
  | 1 => cpTake s t n
  | 2 => s.signalSem t n 1
  | _ => s

/-- A Mule-interface operation, which is a check point (R153). -/
def cpOp (s : State) (t op n : Nat) : State := checkPoint (cpSem s t op n) t

/-! ### Commands -/

/-- MSEND (R279). -/
def execMsend (t : Nat) (tpl : BitVec 5) (paddr : BitVec 17) (ord : Bool) (ind : BitVec 3) (step : BitVec 6)
    (s : State) : Host.Outcome State Fault Refusal :=
  onSlot s t (indReserved ind) fun s => msend s t tpl.toNat paddr.toNat ord ind.toNat step.toNat

/-- MSIG (R279). -/
def execMsig (t : Nat) (tpl : BitVec 5) (inc : BitVec 16) (ord : Bool) (s : State) :
    Host.Outcome State Fault Refusal :=
  onIssue s t fun s => msig s t tpl.toNat inc.toNat ord

/-- MFENCE (R277). -/
def execMfence (t : Nat) (fc : BitVec 2) (s : State) : Host.Outcome State Fault Refusal :=
  onIssue s t fun s => mfence s t fc.toNat

/-- FENCE_RELEASE_SEND (R277). -/
def execFenceReleaseSend (t : Nat) (s : State) : Host.Outcome State Fault Refusal :=
  s.onTile t fun s => fenceReleaseSend s t

/-- CP_TAKE (R153). -/
def execCpTake (t : Nat) (n : BitVec 5) (s : State) : Host.Outcome State Fault Refusal :=
  onIssue s t fun s => cpOp s t 1 n.toNat

/-- CP_GIVE (R153). -/
def execCpGive (t : Nat) (n : BitVec 5) (s : State) : Host.Outcome State Fault Refusal :=
  onIssue s t fun s => cpOp s t 2 n.toNat

/-- CP_MARK (R153). -/
def execCpMark (t : Nat) (s : State) : Host.Outcome State Fault Refusal :=
  onIssue s t fun s => cpOp s t 3 0

/-- SCHEDULED_LANDING (R274). -/
def execScheduledLanding (t : Nat) (s : State) : Host.Outcome State Fault Refusal :=
  s.onTile t fun s => scheduledLanding s t

/-- MESSAGE_ANSWER (R270). -/
def execMessageAnswer (s : State) : Host.Outcome State Fault Refusal := .next (messageAnswer s)

/-- SEMAPHORE_SIGNAL (R276): the target is coded as in R158. -/
def execSemaphoreSignal (target : BitVec 16) (s : State) : Host.Outcome State Fault Refusal :=
  if target.getLsbD 15 then .next (applyDsigs s (target.toNat % 256))
  else s.onTile (target.toNat / 32 % 1024) fun s => applySigs s (target.toNat / 32 % 1024) (target.toNat % 32) true

end Sys2Proof.Machine
end

