-- ==== Sys2Proof/Machine/Agp.lean ====
section
/-! DEFINITION. The address-generator engines (R248 to R251, R262). Address registers, counters and
instructions are the registers AGP_A, AGP_C and AGP_PROG of the engine's window. -/

namespace Sys2Proof.Machine

/-- An engine after reset: halted. -/
def agpReset : Agp := ⟨0, .halted, 0, [], [], 0, [], false⟩

/-- The hidden state of an engine. -/
def State.engine (s : State) (n : Nat) : Agp := mapGet agpReset s.agp n

/-- Change the hidden state of an engine. -/
def State.modEngine (s : State) (n : Nat) (f : Agp → Agp) : State :=
  { s with agp := mapSet agpReset s.agp n (f (s.engine n)) }

/-! ### Registers and instructions (R249) -/

/-- Address register aR. -/
def State.agpA (s : State) (n r : Nat) : Nat := (s.reg64 (AGP_A_LO n r)).toNat

/-- Write address register aR. -/
def State.setAgpA (s : State) (n r v : Nat) : State := s.setReg64 (AGP_A_LO n r) (BitVec.ofNat 64 v)

/-- The instruction at index `i` of an engine. -/
def State.agpInstr (s : State) (n i : Nat) : BitVec 64 := s.reg64 (AGP_PROG_LO n i)

/-- Bits `lo + w − 1` to `lo` of an engine instruction. -/
def agpFld (i : BitVec 64) (lo w : Nat) : Nat := i.toNat / 2 ^ lo % 2 ^ w

/-- Whether an instruction has a reserved OP or a non-zero reserved bit (R251). -/
def agpIllegal (i : BitVec 64) : Bool := decide (0xC ≤ agpFld i 58 6) || agpFld i 48 2 != 0

/-- The signed offset of ADDA. -/
def agpOffset (imm : BitVec 48) : Int := signed 48 imm.toNat

/-- An address with a distance added to bits 46:0, modulo 2^47; rank and space unchanged (R249). -/
def agpAdvance (a : Nat) (d : Int) : Nat :=
  a / 2 ^ 47 * 2 ^ 47 + ((((a % 2 ^ 47 : Nat) : Int) + d) % (2 ^ 47 : Nat)).toNat

/-! ### Flow (R179, R180, R250) -/

/-- The end of an iteration of every block whose body ends at instruction `a`, innermost first. -/
def agpIterEnd (reps : List RepBlock) (a n : Nat) (s : State) : State :=
  match reps with
  | [] => s.modEngine n fun e => { e with reps := [] }
  | b :: rest =>
    if b.last = a then
      let c := s.reg (AGP_C n b.counter) - 1
      let s := s.setReg (AGP_C n b.counter) c
      if c = 0 then
        agpIterEnd rest a n (s.modEngine n fun e => { e with pc := BitVec.ofNat 8 (b.last + 1) })
      else s.modEngine n fun e => { e with reps := b :: rest, pc := BitVec.ofNat 8 b.first }
    else s.modEngine n fun e => { e with reps := b :: rest }

/-- The engine goes on with the instruction after the current one. -/
def agpNext (s : State) (n : Nat) : State :=
  let e := s.engine n
  agpIterEnd e.reps e.pc.toNat n (s.modEngine n fun e => { e with pc := e.pc + 1, state := .running })

/-- A broken promise of R180: where the program goes on is undefined. -/
def agpBreak (s : State) (n : Nat) : State :=
  let (v, s) := s.free
  s.modEngine n fun e => { e with pc := BitVec.ofNat 8 v, state := .running }

/-- The engine waits at the current instruction. -/
def agpHold (s : State) (n : Nat) : State := s.modEngine n fun e => { e with state := .waiting }

/-- Whether an engine is about to run an instruction. -/
def agpReady (e : Agp) : Bool := (e.state == .running || e.state == .waiting) && !e.stopping

/-! ### Faults (R251) -/

/-- An engine fault: no later SIG is sent. -/
def agpFault (s : State) (n code pc addr : Nat) : State :=
  let s := s.modEngine n fun e => { e with state := .fault, fcode := code, signals := [], stopping := false }
  (s.setReg (AGP_FAULT_PC n) (BitVec.ofNat 32 pc)).setReg64 (AGP_FAULT_ADDR_LO n) (BitVec.ofNat 64 addr)

/-- The code of a status that an access of a copy met (R251): the manual names none for TARGET_OFF and for
NOROUTE. -/
def agpStatusCode (s : State) (st : Nat) : State × Nat :=
  if st = stAddrInvalid then (s, 2)
  else if st = stAccessDenied then (s, 3)
  else if st = stTimeout then (s, 4)
  else
    let (v, s) := s.free
    (s, 2 + v % 3)

/-! ### Copies (R250) -/

/-- An address with its rank written as this module's where it names this module. -/
def State.normAddr (s : State) (a : Nat) : Nat :=
  if s.rankLocal (addrRank a) then fabAddr selfRank (addrSpace a) (addrOff a) else a

/-- Whether two runs of bytes overlap. -/
def runsOverlap (a n b m : Nat) : Bool := decide (a < b + m) && decide (b < a + n)

/-- Whether a copy waits for an earlier one whose destination it overlaps. -/
def State.agpOverlaps (s : State) (n dst src len : Nat) : Bool :=
  (s.engine n).copies.any fun c =>
    runsOverlap (s.normAddr c.dst) c.len (s.normAddr dst) len
      || runsOverlap (s.normAddr c.dst) c.len (s.normAddr src) len

/-- The pieces of a copy: cut where a line of the source or of the destination ends. -/
def agpPieces (dst src len : Nat) : List AgpPiece :=
  (linePieces (dst % 64) len).flatMap fun d =>
    (linePieces (src % 64 + (d.1 - dst % 64)) d.2).map fun p =>
      ⟨p.1 - src % 64, p.2, .toRead, [], []⟩

/-- What an address of a copy meets before the copy starts: 0, or the code of R251. -/
def State.agpAddrCode (s : State) (copies : SMap Bool) (a len : Nat) : Nat :=
  if a % 4 ≠ 0 ∨ 3 ≤ addrSpace a then 2
  else if s.rankLocal (addrRank a) then
    let (sp, off) := s.redirect copies (addrSpace a) (addrOff a)
    if s.spaceEnd sp < off + len then 2 else 0
  else if 4096 ≤ addrRank a then 2
  else 0

/-- Change copy `k` of an engine. -/
def State.modCopy (s : State) (n k : Nat) (f : AgpCopy → AgpCopy) : State :=
  s.modEngine n fun e => { e with copies := e.copies.map fun c => if c.id = k then f c else c }

/-- Change the piece at byte `off` of copy `k`. -/
def State.modPiece (s : State) (n k off : Nat) (f : AgpPiece → AgpPiece) : State :=
  s.modCopy n k fun c => { c with pieces := c.pieces.map fun p => if p.off = off then f p else p }

/-- Copy `k` of an engine. -/
def State.agpCopy (s : State) (n k : Nat) : Option AgpCopy := (s.engine n).copies.find? fun c => c.id == k

/-- A copy meets a status: the engine faults, and the copy ends. -/
def agpFail (s : State) (n : Nat) (c : AgpCopy) (addr st : Nat) : State :=
  let (s, code) := agpStatusCode s st
  let s := agpFault s n code c.pc addr
  s.modEngine n fun e => { e with copies := e.copies.filter fun x => x.id != c.id }

/-- A piece has been written: lines moved, and lines written poisoned (R250, R262). -/
def agpWritten (s : State) (n k : Nat) (c : AgpCopy) (p : AgpPiece) : State :=
  let line := (c.dst + p.off) / 64
  let s := if (c.dst + p.off + p.len) % 64 = 0 ∨ p.off + p.len = c.len then s.incReg (AGP_LINES n) else s
  let bad := causeJoinAll p.causes ≠ .none ∧ !c.poisoned.contains line
  let s := if bad then s.incReg (AGP_POISON n) else s
  let s := if bad then s.modCopy n k fun c => { c with poisoned := line :: c.poisoned } else s
  s.modPiece n k p.off fun p => { p with stage := .done }

/-- Write a piece that is held: at once on this module, by a request to another rank. -/
def agpPieceWrite (s : State) (n k : Nat) (c : AgpCopy) (p : AgpPiece) : State :=
  let a := agpAdvance c.dst p.off
  if s.rankLocal (addrRank a) then
    let (s, st) := s.localWrite c.copies a p.bytes p.causes
    if st = stDone then agpWritten s n k c p else agpFail s n c a st
  else
    let q := requestPacket 0 (addrRank a) 0 (addrSpace a) (addrOff a) p.len true false p.bytes
      [causeJoinAll p.causes]
    let s := s.modPiece n k p.off fun p => { p with stage := .writing }
    match s.issue (.agp n k p.off) q with
    | (s, some st, _) => agpFail s n c a st
    | (s, none, _) => s

/-- A piece has been read: hold its bytes and write it. -/
def agpPieceHeld (s : State) (n k off : Nat) (bs : List (BitVec 8)) (cs : List Cause) : State :=
  let s := s.modPiece n k off fun p =>
    { p with stage := .held, bytes := bs.take p.len, causes := cs.take p.len }
  match s.agpCopy n k with
  | none => s
  | some c => match c.pieces.find? fun p => p.off == off with
    | none => s
    | some p => agpPieceWrite s n k c p

/-- Read a piece: at once on this module, by a request to another rank. -/
def agpPieceRead (s : State) (n k : Nat) (c : AgpCopy) (p : AgpPiece) : State :=
  let a := agpAdvance c.src p.off
  if s.rankLocal (addrRank a) then
    match s.localRead c.copies a p.len with
    | (s, st, bs, cs) => if st = stDone then agpPieceHeld s n k p.off bs cs else agpFail s n c a st
  else
    let q := requestPacket 1 (addrRank a) 0 (addrSpace a) (addrOff a) p.len true false [] []
    let s := s.modPiece n k p.off fun p => { p with stage := .reading }
    match s.issue (.agp n k p.off) q with
    | (s, some st, _) => agpFail s n c a st
    | (s, none, _) => s

/-- Start every piece of a copy that satisfies `which` and has not been started. -/
def agpPump (s : State) (n k : Nat) (which : State → AgpCopy → Bool) : State :=
  match s.agpCopy n k with
  | none => s
  | some c =>
    if which s c then
      (c.pieces.filter fun p => p.stage == .toRead).foldl (fun s p =>
        match s.agpCopy n k with
        | some c => agpPieceRead s n k c p
        | none => s) s
    else s

/-- Whether a side of a copy is on another rank. -/
def agpRemote (s : State) (c : AgpCopy) : Bool :=
  !s.rankLocal (addrRank c.src) || !s.rankLocal (addrRank c.dst)

/-- The data of a remote read of a piece, or the status it met. -/
def agpReadReply (s : State) (n k off st : Nat) (bs : List (BitVec 8)) (cs : List Cause) : State :=
  match s.agpCopy n k with
  | none => s
  | some c => if st = stDone then agpPieceHeld s n k off bs cs else agpFail s n c (agpAdvance c.src off) st

/-- The answer to a remote write of a piece. -/
def agpWriteAck (s : State) (n k off st : Nat) : State :=
  match s.agpCopy n k with
  | none => s
  | some c =>
    if st = stDone then match c.pieces.find? fun p => p.off == off with
      | some p => agpWritten s n k c p
      | none => s
    else agpFail s n c (agpAdvance c.dst off) st

/-- Send the SIGs whose copies are complete, in order (R249). -/
def agpSendSignals (s : State) (n : Nat) : State :=
  let e := s.engine n
  let ready := e.signals.filter fun g => g.after.isEmpty
  let s := s.modEngine n fun e => { e with signals := e.signals.filter fun g => !g.after.isEmpty }
  ready.foldl (fun s g => signalTarget s g.target g.inc) s

/-- A copy whose pieces are all done leaves; an engine that was stopped halts after the last (R250,
R262). -/
def agpFinish (s : State) (n k : Nat) : State :=
  match s.agpCopy n k with
  | none => s
  | some c =>
    if c.pieces.all fun p => p.stage == .done then
      let s := s.modEngine n fun e => { e with
        copies := e.copies.filter fun x => x.id != k
        signals := e.signals.map fun g => { g with after := g.after.filter fun i => i != k } }
      let s := agpSendSignals s n
      s.modEngine n fun e =>
        if e.stopping && e.copies.isEmpty then { e with state := .halted, stopping := false } else e
    else s

/-- COPY_COMPLETE (R250): the lines that no request serves are moved; the copy completes once every line
is written, and acknowledged by another rank. -/
def agpCopyComplete (s : State) (n k : Nat) : State := agpFinish (agpPump s n k fun _ _ => true) n k

/-! ### Instructions -/

/-- COPY (R250). -/
def agpCopyIssue (s : State) (n a b len : Nat) (advance : Bool) : State :=
  let e := s.engine n
  let dst := s.agpA n a
  let src := s.agpA n b
  let copies := s.batchCopies
  let srcCode := s.agpAddrCode copies src len
  let dstCode := s.agpAddrCode copies dst len
  if srcCode ≠ 0 ∨ len % 4 ≠ 0 then agpFault s n 2 e.pc.toNat src
  else if dstCode ≠ 0 then agpFault s n 2 e.pc.toNat dst
  else if 4 ≤ e.copies.length ∨ s.agpOverlaps n dst src len then agpHold s n
  else
    let k := e.nextId
    let c : AgpCopy := ⟨k, dst, src, len, e.pc.toNat, copies, agpPieces dst src len, []⟩
    let s := if advance then (s.setAgpA n a (agpAdvance dst len)) else s
    let s := if advance then (s.setAgpA n b (agpAdvance (s.agpA n b) len)) else s
    let s := s.modEngine n fun e => { e with copies := e.copies ++ [c], nextId := k + 1 }
    let s := agpNext s n
    if len = 0 then agpFinish s n k else agpPump s n k agpRemote

/-- REP (R250): as in R179, with 256 places. -/
def agpRep (s : State) (n c len : Nat) : State :=
  let e := s.engine n
  let a := e.pc.toNat
  if e.reps.any fun b => b.counter == c then agpFault s n 1 a 0
  else if s.reg (AGP_C n c) = 0 ∨ len = 0 then
    let s1 := (s.setReg (AGP_C n c) 0).modEngine n fun e =>
      { e with pc := BitVec.ofNat 8 (a + len + 1), state := .running }
    if e.reps.any fun b => b.last == a then agpBreak s1 n else s1
  else
    let s1 := s.modEngine n fun e =>
      { e with pc := e.pc + 1, state := .running, reps := ⟨c, a + 1, a + len⟩ :: e.reps }
    if 255 < a + len ∨ e.reps.any fun b => b.last == a then agpBreak s1 n else s1

/-- SETC: a counter whose block is active must not be set (R180). -/
def agpSetc (s : State) (n c : Nat) (v : BitVec 32) : State :=
  let active := (s.engine n).reps.any fun b => b.counter == c
  let s := agpNext (s.setReg (AGP_C n c) v) n
  if active then agpBreak s n else s

/-- WAIT: takes 1 from the device semaphore, or waits. -/
def agpWait (s : State) (n d : Nat) : State :=
  if s.dsem d = 0 then agpHold s n else agpNext (s.setDsem d (s.dsem d - 1)) n

/-- SIG: the signal is sent once every earlier copy has completed (DEDUCED, log 30). -/
def agpSig (s : State) (n target inc : Nat) : State :=
  let s := s.modEngine n fun e =>
    { e with signals := e.signals ++ [⟨target, inc, e.copies.map fun c => c.id⟩] }
  agpNext (agpSendSignals s n) n

/-- FENCE: waits until no earlier copy is in flight. -/
def agpFence (s : State) (n : Nat) : State :=
  if (s.engine n).copies.isEmpty then agpNext s n else agpHold s n

/-- HALT. -/
def agpHalt (s : State) (n : Nat) : State := s.modEngine n fun e => { e with state := .halted }

/-- AGP_CTRL.START (R262). -/
def agpStart (s : State) (n : Nat) : State :=
  s.modEngine n fun e =>
    if e.state = .halted ∨ e.state = .fault then
      { e with
        pc := BitVec.ofNat 8 (fld (s.reg (AGP_BOOT n)) 0 8)
        state := .running
        fcode := 0
        reps := []
        stopping := false }
    else e

/-- AGP_CTRL.STOP (R262): halt after the copies in flight complete. -/
def agpStop (s : State) (n : Nat) : State :=
  s.modEngine n fun e =>
    if e.state = .halted ∨ e.state = .fault then e
    else if e.copies.isEmpty then { e with state := .halted }
    else { e with stopping := true }

/-- AGP_CTRL.RESUME (R262). -/
def agpResume (s : State) (n : Nat) : State :=
  s.modEngine n fun e =>
    if e.state = .halted ∨ e.state = .fault then { e with state := .running, fcode := 0, stopping := false }
    else e

/-- A write of AGP_CTRL: its command bits act in ascending order (DESIGN CHOICE, log 21). -/
def agpControl (s : State) (n : Nat) (v : BitVec 32) : State :=
  let s := if bit v 0 then agpStart s n else s
  let s := if bit v 1 then agpStop s n else s
  if bit v 2 then agpResume s n else s

/-- AGP_STATUS (R262). -/
def agpStatus (s : State) (n : Nat) : Nat :=
  let e := s.engine n
  (match e.state with
    | .halted => 0
    | .running => 1
    | .waiting => 2
    | .fault => 3) + 16 * e.fcode + 256 * e.pc.toNat + 2 ^ 16 * e.copies.length

/-! ### Commands -/

/-- An instruction of an engine: it runs when the engine is at a word with this OP that `m` matches; a word
with a reserved OP or bit faults instead (R251). (DEDUCED, log 40) -/
def onEngine (n : Fin 16) (op : Nat) (m : BitVec 64 → Bool) (s : State) (f : State → State) :
    Host.Outcome State Fault Refusal :=
  let e := s.engine n
  let i := s.agpInstr n e.pc.toNat
  .next (if !agpReady e then s
    else if agpIllegal i then agpFault s n 1 e.pc.toNat 0
    else if agpFld i 58 6 = op ∧ m i then f s
    else s)

/-- AGP_START (R262). -/
def execAgpStart (n : Fin 16) (s : State) : Host.Outcome State Fault Refusal := .next (agpStart s n)

/-- AGP_STOP (R262). -/
def execAgpStop (n : Fin 16) (s : State) : Host.Outcome State Fault Refusal := .next (agpStop s n)

/-- AGP_RESUME (R262). -/
def execAgpResume (n : Fin 16) (s : State) : Host.Outcome State Fault Refusal := .next (agpResume s n)

/-- NOP of an engine (R249). -/
def execAgpNop (n : Fin 16) (s : State) : Host.Outcome State Fault Refusal :=
  onEngine n 0x0 (fun _ => true) s fun s => agpNext s n

/-- SETA (R249): bits 47:0 of aA. -/
def execSeta (n : Fin 16) (a : BitVec 3) (imm : BitVec 48) (s : State) : Host.Outcome State Fault Refusal :=
  onEngine n 0x1 (fun i => agpFld i 55 3 == a.toNat && agpFld i 0 48 == imm.toNat) s fun s =>
    agpNext (s.setAgpA n a.toNat (s.agpA n a.toNat / 2 ^ 48 * 2 ^ 48 + imm.toNat)) n

/-- SETAH (R249): bits 63:48 of aA. -/
def execSetah (n : Fin 16) (a : BitVec 3) (imm : BitVec 16) (s : State) : Host.Outcome State Fault Refusal :=
  onEngine n 0x2 (fun i => agpFld i 55 3 == a.toNat && agpFld i 0 16 == imm.toNat) s fun s =>
    agpNext (s.setAgpA n a.toNat (imm.toNat * 2 ^ 48 + s.agpA n a.toNat % 2 ^ 48)) n

/-- ADDA (R249). -/
def execAdda (n : Fin 16) (a : BitVec 3) (imm : BitVec 48) (s : State) : Host.Outcome State Fault Refusal :=
  onEngine n 0x3 (fun i => agpFld i 55 3 == a.toNat && agpFld i 0 48 == imm.toNat) s fun s =>
    agpNext (s.setAgpA n a.toNat (agpAdvance (s.agpA n a.toNat) (agpOffset imm))) n

/-- MOVA (R249). -/
def execMova (n : Fin 16) (a b : BitVec 3) (s : State) : Host.Outcome State Fault Refusal :=
  onEngine n 0x4 (fun i => agpFld i 55 3 == a.toNat && agpFld i 52 3 == b.toNat) s fun s =>
    agpNext (s.setAgpA n a.toNat (s.agpA n b.toNat)) n

/-- SETC (R249). -/
def execSetc (n : Fin 16) (c : BitVec 2) (imm : BitVec 32) (s : State) : Host.Outcome State Fault Refusal :=
  onEngine n 0x5 (fun i => agpFld i 50 2 == c.toNat && agpFld i 0 32 == imm.toNat) s fun s =>
    agpSetc s n c.toNat imm

/-- COPY (R249, R250). -/
def execCopy (n : Fin 16) (a b : BitVec 3) (len : BitVec 32) (advance : Bool) (s : State) :
    Host.Outcome State Fault Refusal :=
  onEngine n 0x6 (fun i => agpFld i 55 3 == a.toNat && agpFld i 52 3 == b.toNat && agpFld i 0 32 == len.toNat
      && (agpFld i 32 1 == 1) == advance) s fun s =>
    agpCopyIssue s n a.toNat b.toNat len.toNat advance

/-- COPY_COMPLETE (R250): `k` counts the engine's copies. -/
def execCopyComplete (n : Fin 16) (k : Nat) (s : State) : Host.Outcome State Fault Refusal :=
  .next (agpCopyComplete s n k)

/-- REP of an engine (R249, R250). -/
def execAgpRep (n : Fin 16) (c : BitVec 2) (len : BitVec 8) (s : State) : Host.Outcome State Fault Refusal :=
  onEngine n 0x7 (fun i => agpFld i 50 2 == c.toNat && agpFld i 0 8 == len.toNat) s fun s =>
    agpRep s n c.toNat len.toNat

/-- WAIT of an engine (R249). -/
def execAgpWait (n : Fin 16) (d : BitVec 8) (s : State) : Host.Outcome State Fault Refusal :=
  onEngine n 0x8 (fun i => agpFld i 0 8 == d.toNat) s fun s => agpWait s n d.toNat

/-- SIG of an engine (R249). -/
def execAgpSig (n : Fin 16) (target inc : BitVec 16) (s : State) : Host.Outcome State Fault Refusal :=
  onEngine n 0x9 (fun i => agpFld i 0 16 == target.toNat && agpFld i 16 16 == inc.toNat) s fun s =>
    agpSig s n target.toNat inc.toNat

/-- FENCE of an engine (R249). -/
def execAgpFence (n : Fin 16) (s : State) : Host.Outcome State Fault Refusal :=
  onEngine n 0xA (fun _ => true) s fun s => agpFence s n

/-- HALT of an engine (R249). -/
def execAgpHalt (n : Fin 16) (s : State) : Host.Outcome State Fault Refusal :=
  onEngine n 0xB (fun _ => true) s fun s => agpHalt s n

end Sys2Proof.Machine
end

