-- ==== Sys2Proof/Machine/Crypto.lean ====
section
/-! DEFINITION. The public functions the manual names: SHA-384 (R216, R282), and AES key wrap under RFC 3394 with a
256-bit key (R281). -/

namespace Sys2Proof.Machine

/-! ### SHA-384 -/

/-- Round constants of SHA-512. -/
def shaK0 : List (BitVec 64) :=
   [0x428A2F98D728AE22, 0x7137449123EF65CD, 0xB5C0FBCFEC4D3B2F, 0xE9B5DBA58189DBBC,
    0x3956C25BF348B538, 0x59F111F1B605D019, 0x923F82A4AF194F9B, 0xAB1C5ED5DA6D8118,
    0xD807AA98A3030242, 0x12835B0145706FBE, 0x243185BE4EE4B28C, 0x550C7DC3D5FFB4E2,
    0x72BE5D74F27B896F, 0x80DEB1FE3B1696B1, 0x9BDC06A725C71235, 0xC19BF174CF692694,
    0xE49B69C19EF14AD2, 0xEFBE4786384F25E3, 0x0FC19DC68B8CD5B5, 0x240CA1CC77AC9C65]

/-- Round constants, rounds 20 to 39. -/
def shaK1 : List (BitVec 64) :=
   [0x2DE92C6F592B0275, 0x4A7484AA6EA6E483, 0x5CB0A9DCBD41FBD4, 0x76F988DA831153B5,
    0x983E5152EE66DFAB, 0xA831C66D2DB43210, 0xB00327C898FB213F, 0xBF597FC7BEEF0EE4,
    0xC6E00BF33DA88FC2, 0xD5A79147930AA725, 0x06CA6351E003826F, 0x142929670A0E6E70,
    0x27B70A8546D22FFC, 0x2E1B21385C26C926, 0x4D2C6DFC5AC42AED, 0x53380D139D95B3DF,
    0x650A73548BAF63DE, 0x766A0ABB3C77B2A8, 0x81C2C92E47EDAEE6, 0x92722C851482353B]

/-- Round constants, rounds 40 to 59. -/
def shaK2 : List (BitVec 64) :=
   [0xA2BFE8A14CF10364, 0xA81A664BBC423001, 0xC24B8B70D0F89791, 0xC76C51A30654BE30,
    0xD192E819D6EF5218, 0xD69906245565A910, 0xF40E35855771202A, 0x106AA07032BBD1B8,
    0x19A4C116B8D2D0C8, 0x1E376C085141AB53, 0x2748774CDF8EEB99, 0x34B0BCB5E19B48A8,
    0x391C0CB3C5C95A63, 0x4ED8AA4AE3418ACB, 0x5B9CCA4F7763E373, 0x682E6FF3D6B2B8A3,
    0x748F82EE5DEFB2FC, 0x78A5636F43172F60, 0x84C87814A1F0AB72, 0x8CC702081A6439EC]

/-- Round constants, rounds 60 to 79. -/
def shaK3 : List (BitVec 64) :=
   [0x90BEFFFA23631E28, 0xA4506CEBDE82BDE9, 0xBEF9A3F7B2C67915, 0xC67178F2E372532B,
    0xCA273ECEEA26619C, 0xD186B8C721C0C207, 0xEADA7DD6CDE0EB1E, 0xF57D4F7FEE6ED178,
    0x06F067AA72176FBA, 0x0A637DC5A2C898A6, 0x113F9804BEF90DAE, 0x1B710B35131C471B,
    0x28DB77F523047D84, 0x32CAAB7B40C72493, 0x3C9EBE0A15C9BEBC, 0x431D67C49C100D4C,
    0x4CC5D4BECB3E42B6, 0x597F299CFC657E2A, 0x5FCB6FAB3AD6FAEC, 0x6C44198C4A475817]


/-- The initial hash value of SHA-384. -/
def shaInit : List (BitVec 64) :=
  [0xCBBB9D5DC1059ED8, 0x629A292A367CD507, 0x9159015A3070DD17, 0x152FECD8F70E5939,
    0x67332667FFC00B31, 0x8EB44A8768581511, 0xDB0C2E0D64F98FA7, 0x47B5481DBEFA4FA4]

/-- A big-endian 64-bit word of a message. -/
def beWord (bs : List (BitVec 8)) : BitVec 64 := BitVec.ofNat 64 (bs.foldl (fun n b => n * 256 + b.toNat) 0)

/-- The message schedule, newest word first, extended by `n` words. -/
def shaExtend (n : Nat) (w : List (BitVec 64)) : List (BitVec 64) :=
  match n with
  | 0 => w
  | n + 1 =>
    let g := fun (i : Nat) => w.getD i 0
    let s0 := (g 14).rotateRight 1 ^^^ (g 14).rotateRight 8 ^^^ (g 14 >>> 7)
    let s1 := (g 1).rotateRight 19 ^^^ (g 1).rotateRight 61 ^^^ (g 1 >>> 6)
    shaExtend n ((s1 + g 6 + s0 + g 15) :: w)

/-- One round: the eight working variables, a round constant and a word of the schedule. -/
def shaRound (v : List (BitVec 64)) (kw : BitVec 64 × BitVec 64) : List (BitVec 64) :=
  match v with
  | [a, b, c, d, e, f, g, h] =>
    let s1 := e.rotateRight 14 ^^^ e.rotateRight 18 ^^^ e.rotateRight 41
    let ch := (e &&& f) ^^^ (~~~ e &&& g)
    let t1 := h + s1 + ch + kw.1 + kw.2
    let s0 := a.rotateRight 28 ^^^ a.rotateRight 34 ^^^ a.rotateRight 39
    let maj := (a &&& b) ^^^ (a &&& c) ^^^ (b &&& c)
    [t1 + s0 + maj, a, b, c, d + t1, e, f, g]
  | v => v

/-- The compression of one 128-byte block. -/
def shaBlock (h : List (BitVec 64)) (block : List (BitVec 8)) : List (BitVec 64) :=
  let m := (List.range 16).map fun i => beWord ((block.drop (8 * i)).take 8)
  let w := (shaExtend 64 m.reverse).reverse
  let v := ((shaK0 ++ shaK1 ++ shaK2 ++ shaK3).zip w).foldl shaRound h
  (h.zip v).map fun p => p.1 + p.2

/-- The blocks of a padded message, compressed in turn. -/
def shaBlocks (fuel : Nat) (h : List (BitVec 64)) (bs : List (BitVec 8)) : List (BitVec 64) :=
  match fuel with
  | 0 => h
  | n + 1 => if bs.isEmpty then h else shaBlocks n (shaBlock h (bs.take 128)) (bs.drop 128)

/-- The big-endian bytes of a word. -/
def beBytes (w : BitVec 64) : List (BitVec 8) := (List.range 8).map fun i => (w >>> (56 - 8 * i)).setWidth 8

/-- SHA-384 of a string of bytes: 48 bytes. (PRESUMED, log 115) -/
def sha384 (bs : List (BitVec 8)) : List (BitVec 8) :=
  let zeros := (239 - bs.length % 128) % 128
  let msg := bs ++ [0x80] ++ List.replicate zeros 0 ++ List.replicate 8 0 ++ beBytes (BitVec.ofNat 64 (8 * bs.length))
  ((shaBlocks (msg.length / 128) shaInit msg).take 6).flatMap beBytes

/-! ### AES-256 -/

/-- A byte times x in the field of AES. -/
def gfDouble (a : Nat) : Nat := if a < 128 then 2 * a else (2 * a) % 256 ^^^ 0x1B

/-- A product in the field of AES, over the low `n` bits of `b`. -/
def gfMul (n a b : Nat) : Nat :=
  match n with
  | 0 => 0
  | n + 1 => (if b % 2 = 1 then a else 0) ^^^ gfMul n (gfDouble a) (b / 2)

/-- The inverse in the field of AES, 0 of 0: the 254th power. -/
def gfInv (a : Nat) : Nat :=
  let m := gfMul 8
  let a2 := m a a
  let a4 := m a2 a2
  let a8 := m a4 a4
  let a16 := m a8 a8
  let a32 := m a16 a16
  let a64 := m a32 a32
  let a128 := m a64 a64
  m a2 (m a4 (m a8 (m a16 (m a32 (m a64 a128)))))

/-- A byte rotated left. -/
def rotByte (x n : Nat) : Nat := (x * 2 ^ n % 256) + x / 2 ^ (8 - n)

/-- The substitution box. -/
def aesSub (x : Nat) : Nat :=
  let y := gfInv x
  y ^^^ rotByte y 1 ^^^ rotByte y 2 ^^^ rotByte y 3 ^^^ rotByte y 4 ^^^ 0x63

/-- The inverse substitution box. -/
def aesSubInv (y : Nat) : Nat := gfInv (rotByte y 1 ^^^ rotByte y 3 ^^^ rotByte y 6 ^^^ 0x05)

/-- Byte-wise exclusive or. -/
def xorBytes (a b : List Nat) : List Nat := (a.zip b).map fun p => p.1 ^^^ p.2

/-- The key schedule of a 256-bit key, newest word first, from word `i` on for `n` words. -/
def aesExpand (n i rcon : Nat) (ws : List (List Nat)) : List (List Nat) :=
  match n with
  | 0 => ws
  | n + 1 =>
    let last := ws.headD []
    let rot := last.drop 1 ++ last.take 1
    let t := if i % 8 = 0 then xorBytes (rot.map aesSub) [rcon, 0, 0, 0]
      else if i % 8 = 4 then last.map aesSub else last
    aesExpand n (i + 1) (if i % 8 = 0 then gfDouble rcon else rcon) (xorBytes (ws.getD 7 []) t :: ws)

/-- The fifteen round keys of a 256-bit key of 32 bytes. -/
def aesKeys (key : List Nat) : List (List Nat) :=
  let ws := (List.range 8).map fun i => (key.drop (4 * i)).take 4
  let all := (aesExpand 52 8 1 ws.reverse).reverse
  (List.range 15).map fun r => ((all.drop (4 * r)).take 4).flatten

/-- Shift the rows of the state; `k` is 1 for encryption and 3 for decryption. -/
def aesShift (k : Nat) (x : List Nat) : List Nat :=
  (List.range 16).map fun i => x.getD ((i + 4 * k * (i % 4)) % 16) 0

/-- Mix the columns of the state with a circulant of the given first row. -/
def aesMix (row : List Nat) (x : List Nat) : List Nat :=
  (List.range 16).map fun i =>
    (List.range 4).foldl (fun n j => n ^^^ gfMul 8 (x.getD (i / 4 * 4 + (i + j) % 4) 0) (row.getD j 0)) 0

/-- AES-256 encryption of a block of 16 bytes. -/
def aesEncrypt (key x : List Nat) : List Nat :=
  let ks := aesKeys key
  let x := xorBytes x (ks.headD [])
  let x := ((ks.drop 1).take 13).foldl (fun x k => xorBytes (aesMix [2, 3, 1, 1] (aesShift 1 (x.map aesSub))) k) x
  xorBytes (aesShift 1 (x.map aesSub)) (ks.getD 14 [])

/-- AES-256 decryption of a block of 16 bytes. -/
def aesDecrypt (key x : List Nat) : List Nat :=
  let ks := (aesKeys key).reverse
  let x := (aesShift 3 (xorBytes x (ks.headD []))).map aesSubInv
  let x := ((ks.drop 1).take 13).foldl (fun x k => (aesShift 3 (aesMix [14, 11, 13, 9] (xorBytes x k))).map aesSubInv) x
  xorBytes x (ks.getD 14 [])

/-! ### Key wrap (RFC 3394) -/

/-- The initial value of RFC 3394. -/
def wrapInit : List Nat := List.replicate 8 0xA6

/-- The step counter of RFC 3394 as eight big-endian bytes. -/
def wrapStep (t : Nat) : List Nat := List.replicate 7 0 ++ [t]

/-- Wrap a 16-byte key: 24 bytes. -/
def keyWrap (kek data : List Nat) : List Nat :=
  let r := (List.range 12).foldl (fun (st : List Nat × List Nat × List Nat) i =>
    let (a, r1, r2) := st
    let b := aesEncrypt kek (a ++ r1)
    (xorBytes (b.take 8) (wrapStep (i + 1)), r2, b.drop 8)) (wrapInit, data.take 8, data.drop 8)
  r.1 ++ r.2.1 ++ r.2.2

/-- Unwrap 24 bytes: the key, where the initial value comes out. -/
def keyUnwrap (kek data : List Nat) : Option (List Nat) :=
  let r := (List.range 12).foldl (fun (st : List Nat × List Nat × List Nat) i =>
    let (a, r1, r2) := st
    let b := aesDecrypt kek (xorBytes a (wrapStep (12 - i)) ++ r2)
    (b.take 8, b.drop 8, r1)) (data.take 8, (data.drop 8).take 8, data.drop 16)
  if r.1 = wrapInit then some (r.2.1 ++ r.2.2) else none

end Sys2Proof.Machine
end

