-- ==== Sys2Proof/Machine/Transcend.lean ====
section
/-! DEFINITION. The transcendental functions of R136 in FP32: special values, and a result that is
free within the bound of R136.

The exact value of a function is approximated in fixed point to a relative error far below the bound
(at most 2^−60). The result is one of the FP32 values within the bound of it; which one is
the constant Config.transcendental, because the manual does not give the bits. VSQRT alone is
correctly rounded and has one result. -/

namespace Sys2Proof.Machine

/-- Fraction bits of the fixed-point approximations. -/
def fxP : Nat := 160

/-- 1 in fixed point. -/
def fxOne : Int := 2 ^ fxP

/-- Product of two fixed-point numbers. -/
def fxMul (a b : Int) : Int := (a * b) / fxOne

/-- Quotient of two fixed-point numbers. -/
def fxDiv (a b : Int) : Int := (a * fxOne) / b

/-- m × 2^e in fixed point. -/
def fxOf (neg : Bool) (m : Nat) (e : Int) : Int :=
  let k : Int := e + fxP
  let v : Int := if 0 ≤ k then (m * 2 ^ k.toNat : Nat) else (m / 2 ^ (-k).toNat : Nat)
  if neg then -v else v

/-- Digit-by-digit integer square root of `n`, with `fuel` result bits. -/
def isqrtGo (fuel n r : Nat) : Nat :=
  match fuel with
  | 0 => r
  | k + 1 => let c := r + 2 ^ k; if c * c ≤ n then isqrtGo k n c else isqrtGo k n r

/-- The integer square root of a natural number. -/
def isqrt (n : Nat) : Nat := isqrtGo (n.log2 / 2 + 1) n 0

/-- Horner sum Σ_{i<n} c_i × z^i with coefficients given from the highest degree down. -/
def fxPoly (cs : List Int) (z : Int) : Int := cs.foldl (fun acc c => c + fxMul acc z) 0

/-- n! -/
def fact : Nat → Nat
  | 0 => 1
  | n + 1 => (n + 1) * fact n

/-- arctanh(z)/z as a series in z² (for |z| ≤ 1/3). -/
def fxAtanhRatio (z2 : Int) : Int :=
  fxPoly ((List.range 60).reverse.map fun i : Nat => fxOne / ((2 * i + 1 : Nat) : Int)) z2

/-- ln 2 = 2 × arctanh(1/3). -/
def fxLn2 : Int :=
  let z := fxOne / 3
  2 * fxMul z (fxAtanhRatio (fxMul z z))

/-- (−1)^i in fixed point. -/
def altOne (i : Nat) : Int := if i % 2 = 0 then fxOne else -fxOne

/-- arctan(1/n) in fixed point. -/
def fxAtanInv (n : Nat) : Int :=
  let z := fxOne / n
  fxMul z (fxPoly ((List.range 80).reverse.map fun i : Nat => altOne i / ((2 * i + 1 : Nat) : Int)) (fxMul z z))

/-- π = 16 arctan(1/5) − 4 arctan(1/239). -/
def fxPi : Int := 16 * fxAtanInv 5 - 4 * fxAtanInv 239

/-- e^r for |r| ≤ 1, by its Taylor series. -/
def fxExpSmall (r : Int) : Int :=
  fxPoly ((List.range 40).reverse.map fun i : Nat => fxOne / (fact i : Int)) r

/-- e^x for x in fixed point, as mantissa × 2^k with the mantissa in fixed point. -/
def fxExp (x : Int) : Int × Int :=
  let k := x / fxLn2
  (fxExpSmall (x - k * fxLn2), k)

/-- A fixed-point mantissa times 2^k as a value. -/
def fxVal (m k : Int) : FVal := .fin (m < 0) m.natAbs (k - fxP)

/-- ln(m × 2^e) for m > 0, in fixed point. -/
def fxLn (m : Nat) (e : Int) : Int :=
  let l := m.log2
  -- m = y × 2^l with 1 ≤ y < 2; above 3/2 the next power is nearer
  let y := fxOf false m (-(l : Int))
  let up : Bool := decide (3 * fxOne < 2 * y)
  let y := if up then y / 2 else y
  let k : Int := e + l + (if up then 1 else 0)
  let z := fxDiv (y - fxOne) (y + fxOne)
  k * fxLn2 + 2 * fxMul z (fxAtanhRatio (fxMul z z))

/-- sin(π r)/r and cos(π r) for |r| ≤ 1/4, in fixed point. -/
def fxSinPiRatio (r : Int) : Int :=
  let t2 := fxMul (fxMul fxPi r) (fxMul fxPi r)
  fxMul fxPi (fxPoly ((List.range 20).reverse.map fun i : Nat => altOne i / (fact (2 * i + 1) : Int)) t2)

def fxCosPi (r : Int) : Int :=
  let t2 := fxMul (fxMul fxPi r) (fxMul fxPi r)
  fxPoly ((List.range 20).reverse.map fun i : Nat => altOne i / (fact (2 * i) : Int)) t2

/-- A value of magnitude near m × 2^e times a fixed-point ratio. -/
def fxScaled (neg : Bool) (m : Nat) (e ratio : Int) : FVal :=
  .fin (neg != decide (ratio < 0)) (m * ratio.natAbs) (e - fxP)

/-- sin(π x) for a finite non-zero x (`shift` 0), or cos(π x) (`shift` 1). -/
def sinCosPi (shift : Nat) (neg : Bool) (m : Nat) (e : Int) : FVal :=
  -- 2x = h + 2r with h an integer and |r| ≤ 1/4
  let q : Nat := (-(e + 1)).toNat
  let twice : Nat := m * 2 ^ (e + 1).toNat
  let h : Nat := (2 * twice + 2 ^ q) / 2 ^ (q + 1)
  let rest : Int := (twice : Int) - ((h * 2 ^ q : Nat) : Int)
  let rneg := decide (rest < 0)
  let re : Int := -((q : Int) + 1)
  let r := fxOf rneg rest.natAbs re
  let sinR : FVal := fxScaled rneg rest.natAbs re (fxSinPiRatio r)
  let cosR : FVal := fxVal (fxCosPi r) 0
  let v := match (h + shift) % 4 with
    | 0 => sinR
    | 1 => cosR
    | 2 => valNeg sinR
    | _ => valNeg cosR
  if shift = 0 ∧ neg then valNeg v else v

/-- tanh of a finite non-zero value. -/
def tanhVal (neg : Bool) (m : Nat) (e : Int) : FVal :=
  let l := e + m.log2
  if l < -10 then
    let x := fxOf false m e
    let z := fxMul x x
    -- tanh x = x (1 − z/3 + 2z²/15 − 17z³/315 + 62z⁴/2835 − …), z < 2^−18
    fxScaled neg m e (fxPoly [62 * fxOne / 2835, -(17 * fxOne) / 315, 2 * fxOne / 15, -fxOne / 3, fxOne] z)
  else if 6 ≤ l then .fin neg 1 0
  else
    let (p, k) := fxExp (-2 * fxOf false m e)
    let t := if 0 ≤ k then p * 2 ^ k.toNat else p / 2 ^ (-k).toNat
    let v := fxDiv (fxOne - t) (fxOne + t)
    fxVal (if neg then -v else v) 0

/-- 1 / (1 + e^−x) of a finite value. -/
def sigmVal (neg : Bool) (m : Nat) (e : Int) : FVal :=
  let l := e + m.log2
  if m ≠ 0 ∧ 10 ≤ l then (if neg then .fin false 0 0 else .fin false 1 0)
  else
    let (p, k) := fxExp (-(fxOf false m e))
    let t := if 0 ≤ k then p * 2 ^ k.toNat else p / 2 ^ (-k).toNat
    let d := fxDiv fxOne (fxOne + t)
    if neg then fxVal (fxMul p d) k else fxVal d 0

/-- erf of a finite non-zero value. -/
def erfVal (neg : Bool) (m : Nat) (e : Int) : FVal :=
  let l := e + m.log2
  if 2 ≤ l then .fin neg 1 0
  else
    let x := fxOf false m e
    let z := fxMul x x
    -- Σ t_i / (2i + 1) with t_0 = 1 and t_(i+1) = −t_i × x² / (i + 1)
    let s := ((List.range 140).foldl (fun (acc : Int × Int) (i : Nat) =>
      (-(fxMul acc.1 z) / ((i + 1 : Nat) : Int), acc.2 + acc.1 / ((2 * i + 1 : Nat) : Int))) (fxOne, 0)).2
    -- 2 / √π
    let rootPi : Int := (isqrt (fxPi.natAbs * 2 ^ fxP) : Nat)
    fxScaled neg m e (fxMul (fxDiv (2 * fxOne) rootPi) s)

/-- The square root of m × 2^e as a value with a sticky last bit. -/
def sqrtVal (m : Nat) (e : Int) : FVal :=
  let odd := e % 2 ≠ 0
  let m2 := (if odd then 2 * m else m) * 2 ^ 80
  let r := isqrt m2
  let e2 : Int := ((if odd then e - 1 else e) - 80) / 2
  .fin false (2 * r + (if r * r = m2 then 0 else 1)) (e2 - 1)

/-- Bound of R136 in units in the last place. -/
def transBound (vop : Nat) : Nat :=
  match vop with
  | 0x25 => 1 | 0x26 => 1 | 0x2A => 3 | _ => 2

/-- What R136 says of one operation at one value: a fixed FP32 result, or the exact value it
approximates. -/
inductive TransCase where
  | fixed (bits : BitVec 32)
  | near (v : FVal)
deriving DecidableEq, Repr

def fp32One : BitVec 32 := 0x3F800000
def fp32NaN : BitVec 32 := 0x7FC00000
def fp32Inf : BitVec 32 := 0x7F800000

/-- A sign on an FP32 magnitude. -/
def fp32Signed (neg : Bool) (b : BitVec 32) : BitVec 32 := if neg then b ||| 0x80000000 else b

/-- Whether m × 2^e is an integer. -/
def isIntegerVal (m : Nat) (e : Int) : Bool := decide (0 ≤ e) || m % 2 ^ (-e).toNat == 0

/-- Special values and the exact value elsewhere (R136). -/
def transCase (vop : Nat) (v : FVal) : TransCase :=
  match v with
  | .nan => .fixed fp32NaN
  | .inf n =>
    match vop with
    | 0x21 => .fixed (if n then 0 else fp32Inf)
    | 0x22 => .fixed (if n then 0 else fp32Inf)
    | 0x23 => .fixed (if n then fp32NaN else fp32Inf)
    | 0x24 => .fixed (if n then fp32NaN else fp32Inf)
    | 0x25 => .fixed (fp32Signed n 0)
    | 0x26 => .fixed (if n then fp32NaN else 0)
    | 0x27 => .fixed (if n then fp32NaN else fp32Inf)
    | 0x28 => .fixed (fp32Signed n fp32One)
    | 0x29 => .fixed (if n then 0 else fp32One)
    | 0x2A => .fixed (fp32Signed n fp32One)
    | _ => .fixed fp32NaN
  | .fin n m e =>
    let x := fxOf n m e
    let big : Bool := decide (7 ≤ e + m.log2) && m != 0
    match vop with
    | 0x21 =>
      if m = 0 then .fixed fp32One
      else if !n && valCmp v (fp32Val 0x42B17218) != some .lt then .fixed fp32Inf
      else if n && big then .near (.fin false 1 (-200))
      else let (p, k) := fxExp x; .near (fxVal p k)
    | 0x22 =>
      if m = 0 then .fixed fp32One
      else if !n && big then .fixed fp32Inf
      else if n && decide (8 ≤ e + m.log2) then .near (.fin false 1 (-200))
      else let (p, k) := fxExp (fxMul x fxLn2); .near (fxVal p k)
    | 0x23 =>
      if m = 0 then .fixed (fp32Signed true fp32Inf)
      else if n then .fixed fp32NaN
      else if valCmp v (.fin false 1 0) = some .eq then .fixed 0
      else .near (fxVal (fxLn m e) 0)
    | 0x24 =>
      if m = 0 then .fixed (fp32Signed true fp32Inf)
      else if n then .fixed fp32NaN
      else if valCmp v (.fin false 1 0) = some .eq then .fixed 0
      else .near (fxVal (fxDiv (fxLn m e) fxLn2) 0)
    | 0x25 =>
      if m = 0 then .fixed (fp32Signed n fp32Inf)
      else .near (.fin n (2 ^ 200 / m) (-e - 200))
    | 0x26 =>
      if m = 0 then .fixed (fp32Signed n fp32Inf)
      else if n then .fixed fp32NaN
      else match sqrtVal m e with
        | .fin _ r q => .near (.fin false (2 ^ 300 / r) (-q - 300))
        | _ => .fixed fp32NaN
    | 0x27 =>
      if m = 0 then .fixed (fp32Signed n 0)
      else if n then .fixed fp32NaN
      else .fixed (fp32Bits .rne (sqrtVal m e))
    | 0x28 => if m = 0 then .fixed (fp32Signed n 0) else .near (tanhVal n m e)
    | 0x29 => .near (sigmVal n m e)
    | 0x2A => if m = 0 then .fixed (fp32Signed n 0) else .near (erfVal n m e)
    | 0x2B => if isIntegerVal m e then .fixed (fp32Signed n 0) else .near (sinCosPi 0 n m e)
    | _ =>
      if isIntegerVal m (e + 1) && !isIntegerVal m e then .fixed 0
      else .near (sinCosPi 1 n m e)

/-- An FP32 word as a position in the order of its values. -/
def fp32Order (b : BitVec 32) : Int :=
  if b.getLsbD 31 then -((b.toNat - 2 ^ 31 : Nat) : Int) else b.toNat

/-- The FP32 word at a position of that order. -/
def fp32AtOrder (i : Int) : BitVec 32 :=
  if i < 0 then BitVec.ofNat 32 (2 ^ 31 + i.natAbs) else BitVec.ofNat 32 i.natAbs

/-- The last place of an FP32 result: the exponent of its unit. -/
def fp32UlpExp (b : BitVec 32) : Int :=
  let f := (b.toNat / 2 ^ 23) % 256
  (max f 1 : Nat) - 150

/-- Whether FP32 word `b` lies within `bound` units in its last place of `v` (with the slack of the
approximation). -/
def withinUlps (bound : Nat) (v : FVal) (b : BitVec 32) : Bool :=
  match v, fp32Val b with
  | .fin n m e, .fin n' m' e' =>
    let u := fp32UlpExp b
    let q := min (min e e') (u - 60)
    let d := (valInt n m e q - valInt n' m' e' q).natAbs
    decide (d ≤ (bound * 2 ^ 60 + 1) * 2 ^ (u - 60 - q).toNat)
  | _, _ => false

/-- The FP32 result of a transcendental operation of R136. -/
def transFp32 (vop : Nat) (x : BitVec 32) : BitVec 32 :=
  match transCase vop (fp32Val x) with
  | .fixed b => b
  | .near v =>
    let r := fp32Bits .rne v
    let bound := transBound vop
    let near := (List.range (2 * bound + 1)).filterMap fun i : Nat =>
      let c := fp32AtOrder (fp32Order r + (i : Int) - (bound : Int))
      if withinUlps bound v c then some c else none
    near.getD (Config.transcendental vop x % near.length) r

/-- A transcendental operation in a view: FP32, or BF16 rounded once from the FP32 result (R136). (DEDUCED, log 10) (DEDUCED, log 12) -/
def transcend (bf16 : Bool) (vop : Nat) (x : BitVec 32) : BitVec 32 :=
  if bf16 then BitVec.ofNat 32 (floatBits bf16F .rne 0 (fp32Val (transFp32 vop (x <<< 16))))
  else transFp32 vop x

end Sys2Proof.Machine
end

