-- ==== Sys2Proof/Machine/Vector.lean ====
section
/-! DEFINITION. The vector engine (R124 to R146, R182 to R184): operands and views, elementwise
arithmetic, conversion, random values, reductions, scans, sorting, the finished-tile queue, wide areas
and the memory instructions. -/

namespace Sys2Proof.Machine

/-! ### The slot (R182 to R184) -/

/-- Bits `lo + w − 1` to `lo` of the vector slot, for `lo` in MODE (R184). -/
def vmode (v : VecSlot) (lo w : Nat) : Nat := (v.mode.toNat / 2 ^ (lo - 52)) % 2 ^ w

def vRop (v : VecSlot) : Nat := vmode v 52 2
def vAxis (v : VecSlot) : Nat := vmode v 54 2
def vExcl (v : VecSlot) : Bool := vmode v 56 1 == 1
def vChain (v : VecSlot) : Bool := vmode v 57 1 == 1
def vSeg (v : VecSlot) : Nat := vmode v 58 2
def vDcol (v : VecSlot) : Nat := vmode v 60 6
def vDrow (v : VecSlot) : Nat := vmode v 66 5
def vVf (v : VecSlot) : Nat := vmode v 52 3
def vVe (v : VecSlot) : Nat := vmode v 55 3
def vRow2 (v : VecSlot) : Nat := vmode v 58 5
def vTview (v : VecSlot) : Nat := vmode v 52 2
def vFmt (v : VecSlot) : Nat := vmode v 66 4
def vInd (v : VecSlot) : Nat := vmode v 78 3
def vRnd (v : VecSlot) : Rnd := (rndOfCode v.rnd.toNat).getD .rne

/-- Bits of MODE an operation reads, counted from slot bit 52 (R184). -/
def vecModeBits (vop : Nat) : Nat :=
  match vop with
  | 0x09 => 2 | 0x19 => 2
  | 0x16 => 6 | 0x17 => 6 | 0x18 => 6
  | 0x1A => 32
  | 0x20 => 2
  | 0x30 => 1
  | 0x38 => 19 | 0x39 => 19 | 0x3A => 19
  | 0x3C => 3
  | 0x3D => 11
  | 0x41 => 10
  | 0x48 => 37 | 0x49 => 37 | 0x4A => 37 | 0x4B => 37
  | _ => 0

/-- Whether an operation is in the table of R183 and defined in a view. -/
def vecViewOk (vop view : Nat) : Bool :=
  if vop = 0x0A ∨ vop = 0x0B ∨ vop = 0x20 ∨ (0x38 ≤ vop ∧ vop ≤ 0x3A) then decide (view ≤ 2)
  else if (0x01 ≤ vop ∧ vop ≤ 0x09) ∨ (0x21 ≤ vop ∧ vop ≤ 0x2C) ∨ vop = 0x48 then
    view == 0 || view == 2
  else if 0x10 ≤ vop ∧ vop ≤ 0x1A then view == 1
  else if (0x30 ≤ vop ∧ vop ≤ 0x32) ∨ vop = 0x3C ∨ vop = 0x3D ∨ (0x40 ≤ vop ∧ vop ≤ 0x42)
      ∨ (0x49 ≤ vop ∧ vop ≤ 0x4B) then view == 0
  else false

/-- Whether the fields of a vector operation hold a reserved value (R175, R182 to R184). (DEDUCED, log 13) -/
def vecMalformed (vop : Nat) (v : VecSlot) : Bool :=
  let view := v.view.toNat
  let n := v.count.toNat
  let common := !vecViewOk vop view || decide (32 < n) || decide (32 < v.row.toNat + n)
    || v.bsrc == 3 || (v.bsrc == 2 && decide (256 < v.orow.toNat + n)) || decide (5 ≤ v.rnd.toNat)
    || (v.rnd == 4 && decide (1 ≤ vop ∧ vop ≤ 6))
    || decide (2 ^ vecModeBits vop ≤ v.mode.toNat)
  let own :=
    if 0x38 ≤ vop ∧ vop ≤ 0x3A then
      vAxis v == 3 || vSeg v == 3
      || (vRop v == 3 && (vop != 0x39 || view == 1 || vExcl v))
      || (vop == 0x3A && (vAxis v != 2 || vSeg v != 2))
      || (vop == 0x38 && (vAxis v == 2 || vSeg v != 0))
    else match vop with
      | 0x20 => vTview v == 3
      | 0x40 => n != 0 && n != 2
      | 0x42 => (n != 0 && n != 2) || v.orow.toNat % 8 != 0
      | 0x41 => v.orow.toNat % 8 != 0 || (vmode v 53 1 == 1 && vmode v 54 8 % 8 != 0)
      | 0x3D => decide (32 < vRow2 v + n)
      | 0x48 => decide (10 < vFmt v) || (vFmt v == 9 && view != 0) || (1 ≤ vInd v && vInd v ≤ 3 : Bool)
      | 0x49 => decide (10 < vFmt v) || vFmt v == 9 || (1 ≤ vInd v && vInd v ≤ 3 : Bool)
      | 0x4A => (1 ≤ vInd v && vInd v ≤ 3 : Bool)
      | 0x4B => (1 ≤ vInd v && vInd v ≤ 3 : Bool)
      | _ => false
  common || own

/-! ### The engine of a tile -/

/-- The vector engine of a tile. -/
def State.vec (s : State) (t : Nat) : Vec := (s.tile t).vec

/-- Change the vector engine of a tile. -/
def State.modVec (s : State) (t : Nat) (f : Vec → Vec) : State :=
  s.modTile t fun x => { x with vec := f x.vec }

/-- Change the instruction in issue. -/
def State.modRun (s : State) (t : Nat) (f : VecRun → VecRun) : State :=
  s.modVec t fun v => { v with run := v.run.map f }

/-- Raise a poison cause newly set by the instruction in issue: VEC_EVENT and one Goose event for each
cause and instruction (R82, R146). -/
def raiseVec (s : State) (t : Nat) (c : Cause) : State :=
  let seen : Bool := match (s.vec t).run with
    | some r => r.raised.contains c
    | none => false
  if c = .none ∨ seen then s
  else
    let s := s.modRun t fun r => { r with raised := r.raised ++ [c] }
    (s.orReg (VEC_EVENT t) (BitVec.ofNat 32 (2 ^ (causeCode c - 1)))).raiseCause t c

/-- An error met in a word of a register or the cache (R127): the state, and the cause it gives. -/
def vecErr (s : State) (t : Nat) (e : EccErr) : State × Cause :=
  match e with
  | .single =>
    (((s.incReg (VEC_ECC_CORR t)).orReg (VEC_EVENT t) 0x80).raiseTile t .eccCorr 0, .none)
  | .double => (raiseVec (s.incReg (VEC_ECC_UNC t)) t .ecc, .ecc)

/-- The 64 elements of a row listed from a key. -/
def rowOf (m : SMap Elem) (base : Nat) : List Elem :=
  let part := m.filter fun e => decide (base ≤ e.1) && decide (e.1 < base + 64)
  (List.range 64).map fun c => mapGet elemReset part (base + c)

/-- Elements changed by the errors met in them. -/
def applyErrs (errs : List (Nat × Cause)) (m : SMap Elem) : SMap Elem :=
  errs.foldl (fun m e => if e.2 = .none then m
    else mapSet elemReset m e.1 { mapGet elemReset m e.1 with cause := e.2 }) m

/-- The errors among 64 keys, each met once. -/
def meetErrs (s : State) (t : Nat) (errs : SMap EccErr) (base : Nat) :
    State × List (Nat × Cause) :=
  (errs.filter fun e => decide (base ≤ e.1) && decide (e.1 < base + 64)).foldl
    (fun (acc : State × List (Nat × Cause)) e =>
      let (s, c) := vecErr acc.1 t e.2
      (s, acc.2 ++ [(e.1, c)])) (s, [])

/-- Read row `row` of tile register `reg` (R124, R127). -/
def readTreg (s : State) (t reg row : Nat) : State × List Elem :=
  let base := 2048 * reg + 64 * row
  let (s, errs) := meetErrs s t (s.vec t).tregErr base
  let s := if errs.isEmpty then s else s.modVec t fun v =>
    { v with treg := applyErrs errs v.treg,
             tregErr := mapClear v.tregErr fun k => errs.any fun e => e.1 == k }
  (s, rowOf (s.vec t).treg base)

/-- A word of the operand cache: as last written; after a loss in power gating, free until it is written. -/
def ocWord (v : Vec) (k : Nat) : Elem :=
  match mapFind v.ocache k, v.cacheSeed with
  | some e, _ => e
  | none, some n => ⟨BitVec.ofNat 32 (Config.freeBits (n + k)), causeOfCode (Config.freeBits (n + k) / 2 ^ 32 % 8)⟩
  | none, none => elemReset

/-- List a word of the operand cache. -/
def ocPut (v : Vec) (k : Nat) (e : Elem) : Vec :=
  { v with ocache := if v.cacheSeed.isSome then mapPut v.ocache k e else mapSet elemReset v.ocache k e }

/-- Read a row of the operand cache (R127, R128). -/
def readOcache (s : State) (t row : Nat) : State × List Elem :=
  let base := 64 * (row % 256)
  let (s, errs) := meetErrs s t (s.vec t).ocacheErr base
  let s := if errs.isEmpty then s else s.modVec t fun v =>
    let v := errs.foldl (fun v e => if e.2 = .none then v else ocPut v e.1 { ocWord v e.1 with cause := e.2 }) v
    { v with ocacheErr := mapClear v.ocacheErr fun k => errs.any fun e => e.1 == k }
  (s, (List.range 64).map fun c => ocWord (s.vec t) (base + c))

/-! ### Hazards of reads and writes (R132, R196) -/

/-- Whether a pending result writes row `row` of register `reg`. -/
def landsTreg (reg row : Nat) (p : Pending) : Bool :=
  match p.what with
  | .treg g r _ => g == reg && r == row
  | _ => false

/-- Whether a pending result writes a word of cache row `row`. -/
def landsOcache (row : Nat) (p : Pending) : Bool :=
  match p.what with
  | .ocache r vs => vs.any fun l => r + l.idx / 64 == row
  | _ => false

/-- Report READ_PENDING where a pending result satisfies `f`. (DEDUCED, log 26) -/
def readHazard (s : State) (t : Nat) (f : Pending → Bool) : State :=
  if (s.vec t).pending.any f then s.hazard t .readPending else s

/-- Whether two results write the same element or line. -/
def collides (a b : Landed) : Bool :=
  match a, b with
  | .treg g r vs, .treg g' r' vs' => g == g' && r == r' && vs.any fun l => vs'.any fun l' => l.idx == l'.idx
  | .ocache r vs, .ocache r' vs' => vs.any fun l => vs'.any fun l' => 64 * r + l.idx == 64 * r' + l'.idx
  | .carry vs, .carry vs' => vs.any fun l => vs'.any fun l' => l.idx == l'.idx
  | .spad o bs _, .spad o' bs' _ =>
    decide (o / 64 ≤ (o' + bs'.length - 1) / 64) && decide (o' / 64 ≤ (o + bs.length - 1) / 64)
  | _, _ => false

/-! ### Results (R131, R132) -/

/-- Lanes with free bits and causes, for a tile that has broken a promise (R8). -/
def freeLanes (v c : Nat) (ls : List Lane) : List Lane :=
  ls.mapIdx fun i l => { l with bits := BitVec.ofNat 32 (v / 2 ^ (32 * i)), cause := causeOfCode (c / 8 ^ i) }

/-- A result as the tile produces it: free once the tile has broken a promise in this frame (R8). -/
def produceLanded (s : State) (t : Nat) (w : Landed) : State × Landed :=
  if (s.tile t).broken then
    let (v, s) := s.free
    let (c, s) := s.free
    (s, match w with
      | .treg g r vs => .treg g r (freeLanes v c vs)
      | .ocache r vs => .ocache r (freeLanes v c vs)
      | .carry vs => .carry (freeLanes v c vs)
      | .spad o bs cs => .spad o (leBytes bs.length v) (cs.mapIdx fun i _ => causeOfCode (c / 8 ^ i)))
  else (s, w)

/-- Put a result of the instruction in issue on its way. -/
def enqueue (s : State) (t due issued : Nat) (w : Landed) : State :=
  let (s, w) := produceLanded s t w
  let s := if (s.vec t).pending.any (fun p => p.due == due && collides p.what w) then
    s.hazard t .writeCollide else s
  s.modVec t fun v => { v with pending := v.pending ++ [⟨due, issued, w⟩] }

/-- Write one lane over an element: a half keeps the other half and its cause. -/
def putLane (e : Elem) (l : Lane) : Elem :=
  match l.half with
  | none => ⟨l.bits, l.cause⟩
  | some hi =>
    let b := e.bits.toNat
    let x := l.bits.toNat % 65536
    ⟨BitVec.ofNat 32 (if hi then b % 65536 + 65536 * x else (b / 65536) * 65536 + x),
      causeJoin l.cause e.cause⟩

/-- Write lanes to a map of elements from a base key. -/
def putLanes (m : SMap Elem) (base : Nat) (ls : List Lane) : SMap Elem :=
  ls.foldl (fun m l =>
    mapSet elemReset m (base + l.idx) (putLane (mapGet elemReset m (base + l.idx)) l)) m

/-- The words of a run of lanes have no error once they are written. -/
def dropErrs (m : SMap EccErr) (base : Nat) (ls : List Lane) : SMap EccErr :=
  mapClear m fun k => ls.any fun l => base + l.idx == k

/-- Keep a row that the instruction in issue is about to overwrite, for its own later reads (R132). -/
def keepOwn (s : State) (t : Nat) (p : Pending) (reg row : Nat) : State :=
  match (s.vec t).run with
  | some r =>
    let key := 32 * reg + row
    if r.issue = p.issued ∧ r.vop = 0x3D ∧ !(r.own.any fun e => e.1 == key) then
      s.modRun t fun r => { r with own := r.own ++ [(key, rowOf (s.vec t).treg (2048 * reg + 64 * row))] }
    else s
  | none => s

/-- Write a result (R131). -/
def landResult (s : State) (t : Nat) (p : Pending) : State :=
  match p.what with
  | .treg reg row vs =>
    let base := 2048 * reg + 64 * row
    (keepOwn s t p reg row).modVec t fun v =>
      { v with treg := putLanes v.treg base vs, tregErr := dropErrs v.tregErr base vs }
  | .ocache row vs =>
    s.modVec t fun v =>
      let v := vs.foldl (fun v l => ocPut v (64 * row + l.idx) (putLane (ocWord v (64 * row + l.idx)) l)) v
      { v with ocacheErr := dropErrs v.ocacheErr (64 * row) vs }
  | .carry vs => s.modVec t fun v => { v with carry := putLanes v.carry 0 vs }
  | .spad off bs cs => (s.takePorts t p.due off bs.length).spadWrite t off bs cs

/-- VEC_RESULT_WRITE: write the first pending result whose cycle has come (R131). -/
def vecResultWrite (s : State) (t : Nat) : State :=
  match (s.vec t).pending.find? fun p => s.dueNow t p.due with
  | some p => landResult (s.modVec t fun v => { v with pending := v.pending.erase p }) t p
  | none => s

/-- Write every pending result whose cycle is at or before `x`, in the order of issue. -/
def landDue (s : State) (t x : Nat) : State :=
  let due := (s.vec t).pending.filter fun p => decide (p.due ≤ x)
  let s := s.modVec t fun v => { v with pending := v.pending.filter fun p => !decide (p.due ≤ x) }
  due.foldl (fun s p => landResult s t p) s

/-! ### Views (R124, R125) -/

/-- The values of a row in a view, in order; a poisoned element reads as the canonical NaN of the view,
or −2^31 (R125). -/
def viewVals (view : Nat) (row : List Elem) : List Elem :=
  if view = 2 then
    row.flatMap fun e =>
      if e.cause = .none then [(⟨e.bits &&& 0xFFFF, .none⟩ : Elem), ⟨e.bits.ushiftRight 16, .none⟩]
      else [⟨0x7FC0, e.cause⟩, ⟨0x7FC0, e.cause⟩]
  else row.map fun e =>
    if e.cause = .none then e
    else (⟨if view = 1 then (0x80000000 : BitVec 32) else 0x7FC00000, e.cause⟩ : Elem)

/-- Pair up the values of a BF16 row. -/
def joinHalves (vs : List Elem) : List Elem :=
  match vs with
  | a :: b :: rest =>
    ⟨(a.bits &&& 0xFFFF) ||| (b.bits <<< 16), causeJoin a.cause b.cause⟩ :: joinHalves rest
  | _ => []

/-- The elements that the values of a row make in a view. -/
def viewRow (view : Nat) (vs : List Elem) : List Elem := if view = 2 then joinHalves vs else vs

/-- Whole-element lanes of a row, from column 0. -/
def rowLanes (row : List Elem) : List Lane := row.mapIdx fun i e => ⟨i, none, e.bits, e.cause⟩

/-- The lane that writes a single value to column `col`: the low half of the column in BF16. -/
def valueLane (view col : Nat) (e : Elem) : Lane :=
  ⟨col, if view = 2 then some false else none, e.bits, e.cause⟩

/-- The float format of a view. -/
def viewFmt (view : Nat) : FFmt := if view = 2 then bf16F else fp32F

/-- Values in a row of a view. -/
def viewCount (view : Nat) : Nat := if view = 2 then 128 else 64

/-- Read a row of a register in a view, with the hazard check of the read. -/
def readVals (s : State) (t reg row view : Nat) : State × List Elem :=
  let s := readHazard s t (landsTreg reg row)
  let (s, r) := readTreg s t reg row
  (s, viewVals view r)

/-- Read a row of the cache in a view. -/
def readCacheVals (s : State) (t row view : Nat) : State × List Elem :=
  let s := readHazard s t (landsOcache (row % 256))
  let (s, r) := readOcache s t row
  (s, viewVals view r)

/-- Read source b for row `i` of the range (R182). -/
def readB (s : State) (t : Nat) (v : VecSlot) (i : Nat) : State × List Elem :=
  match v.bsrc.toNat with
  | 0 => readVals s t v.vb.toNat (v.row.toNat + i) v.view.toNat
  | 1 => readCacheVals s t v.orow.toNat v.view.toNat
  | _ => readCacheVals s t (v.orow.toNat + i) v.view.toNat

/-! ### Elementwise arithmetic (R134, R93) -/

/-- Round an exact result to the view. -/
def roundTo (view : Nat) (rnd : Rnd) (x : FVal) : BitVec 32 :=
  BitVec.ofNat 32 (floatBits (viewFmt view) rnd 0 x)

/-- The exact value of a value of a float view. -/
def viewVal (view : Nat) (x : BitVec 32) : FVal := floatVal (viewFmt view) x.toNat

/-- 1.0 or +0 in a float view. -/
def viewBool (view : Nat) (b : Bool) : BitVec 32 :=
  if b then (if view = 2 then 0x3F80 else 0x3F800000) else 0

/-- The comparison of two float values under CMP; false with a NaN except under NE (R134). -/
def floatCmp (cmp : Nat) (a b : FVal) : Bool :=
  match cmp, valCmp a b with
  | 0, some .eq => true
  | 1, some .eq => false
  | 1, _ => true
  | 2, some .lt => true
  | 3, some .lt => true
  | 3, some .eq => true
  | _, _ => false

/-- The comparison of two signed words under CMP (R134). -/
def intCmp (cmp : Nat) (a b : BitVec 32) : Bool :=
  match cmp with
  | 0 => a == b
  | 1 => a != b
  | 2 => a.slt b
  | _ => a.sle b

/-- VADD to VMOV at one position (R134). -/
def floatOp (vop view cmp : Nat) (rnd : Rnd) (a b c : BitVec 32) : BitVec 32 :=
  let f := viewVal view
  let sign : BitVec 32 := if view = 2 then 0x8000 else 0x80000000
  match vop with
  | 0x01 => roundTo view rnd (valAdd rnd (f a) (f b))
  | 0x02 => roundTo view rnd (valAdd rnd (f a) (valNeg (f b)))
  | 0x03 => roundTo view rnd (valMul (f a) (f b))
  | 0x04 => roundTo view rnd (valAdd rnd (valMul (f a) (f b)) (f c))
  | 0x05 => roundTo view rnd (valMin (f a) (f b))
  | 0x06 => roundTo view rnd (valMax (f a) (f b))
  | 0x07 => a &&& ~~~sign
  | 0x08 => a ^^^ sign
  | 0x09 => viewBool view (floatCmp cmp (f a) (f b))
  | 0x0A => if c ≠ 0 then a else b
  | _ => b

/-- VIADD to VICMP at one position (R134). -/
def intOp (vop cmp : Nat) (a b : BitVec 32) : BitVec 32 :=
  let n := b.toNat % 32
  match vop with
  | 0x10 => a + b
  | 0x11 => a - b
  | 0x12 => a * b
  | 0x13 => a &&& b
  | 0x14 => a ||| b
  | 0x15 => a ^^^ b
  | 0x16 => a <<< n
  | 0x17 => a >>> n
  | 0x18 => a.sshiftRight n
  | _ => if intCmp cmp a b then 1 else 0

/-- The stored bits that stand for a value of a view under its format (R82). -/
def viewFormat (view : Nat) : Fmt :=
  match view with
  | 0 => .fp32 | 1 => .int32 | _ => .bf16

/-- Which operands an elementwise operation reads: a, b, c. -/
def elemReads (vop : Nat) : Bool × Bool × Bool :=
  match vop with
  | 0x04 => (true, true, true)
  | 0x0A => (true, true, true)
  | 0x07 => (true, false, false)
  | 0x08 => (true, false, false)
  | 0x0B => (false, true, false)
  | 0x1A => (false, false, false)
  | _ => if 0x20 ≤ vop then (true, false, false) else (true, true, false)

/-- Draws for values `e0` to `e0 + n − 1` of the instruction where its RND is SR (R88, R96). -/
def vecDraws (s : State) (t : Nat) (r : VecRun) (e0 n : Nat) : List Nat × State :=
  if vRnd r.slot = .sr then s.draws t r.slot.rstr.toNat r.base e0 n 1 else ([], s)

/-- Convert one value from a view to another (R135, R90, R91, R82). -/
def cvtVal (view tview : Nat) (rnd : Rnd) (draw : Nat) (e : Elem) : Elem :=
  let x := if view = 1 then intVal 32 e.bits.toNat else viewVal view e.bits
  let f := viewFormat tview
  ⟨BitVec.ofNat 32 (if e.cause = .none then elemBits f rnd draw x else poisonBits f), e.cause⟩

/-- VCVT of the values of one row (R135). -/
def cvtRow (view tview : Nat) (rnd : Rnd) (draws : List Nat) (vs : List Elem) : List Elem :=
  let conv := fun (vs : List Elem) => vs.mapIdx fun i e => cvtVal view tview rnd (draws.getD i 0) e
  if view = 2 ∧ tview ≠ 2 then conv ((List.range 64).map fun i => vs.getD (2 * i) elemReset)
  else if view ≠ 2 ∧ tview = 2 then (conv vs).flatMap fun e => [e, ⟨0, e.cause⟩]
  else conv vs

/-- The result row of an elementwise operation, from the values it reads. -/
def elemRow (r : VecRun) (a b c : List Elem) : List Elem :=
  let v := r.slot
  let view := v.view.toNat
  let cmp := vmode v 52 2
  let (ra, rb, rc) := elemReads r.vop
  (List.range (viewCount view)).map fun i =>
    let x := a.getD i elemReset
    let y := b.getD i elemReset
    let z := c.getD i elemReset
    let cause := causeJoinAll ((if ra then [x.cause] else []) ++ (if rb then [y.cause] else [])
      ++ (if rc then [z.cause] else []))
    let bits :=
      if r.vop = 0x1A then BitVec.ofNat 32 (vmode v 52 32 + 64 * (v.row.toNat + r.row) + i)
      else if r.vop ≤ 0x0B then floatOp r.vop view cmp (vRnd v) x.bits y.bits z.bits
      else if r.vop ≤ 0x19 then intOp r.vop cmp x.bits y.bits
      else transcend (view == 2) r.vop x.bits
    ⟨bits, cause⟩

/-- Whether a shift takes its count from SHAMT (R184). -/
def shiftImm (vop : Nat) (v : VecSlot) : Bool :=
  decide (0x16 ≤ vop) && decide (vop ≤ 0x18) && vmode v 52 1 == 1

/-- One row of VADD to VIOTA, of a transcendental operation or of VCVT. (DEDUCED, log 15) -/
def elemwiseRow (s : State) (t : Nat) (r : VecRun) (lat : Nat) : State :=
  let v := r.slot
  let view := v.view.toNat
  let row := v.row.toNat + r.row
  let due := r.issue + r.row + lat
  let (ra, rb, rc) := elemReads r.vop
  let (s, a) := if ra then readVals s t v.va.toNat row view else (s, [])
  let (s, b) := if shiftImm r.vop v then
      (s, List.replicate 64 ⟨BitVec.ofNat 32 (vmode v 53 5), .none⟩)
    else if rb then readB s t v r.row else (s, [])
  let (s, c) := if rc then readVals s t v.vc.toNat row view else (s, [])
  if r.vop = 0x20 then
    let n := if view = 2 ∧ vTview v = 2 then 128 else 64
    let (ds, s) := vecDraws s t r (n * r.row) n
    enqueue s t due r.issue
      (.treg v.vd.toNat row (rowLanes (viewRow (vTview v) (cvtRow view (vTview v) (vRnd v) ds a))))
  else
    enqueue s t due r.issue (.treg v.vd.toNat row (rowLanes (viewRow view (elemRow r a b c))))

/-! ### Random values (R137) -/

/-- min(floor(p × 2^32), 2^32), and 0 for p at or below 0 or NaN (R137). -/
def rngThreshold (p : FVal) : Nat :=
  match p with
  | .nan => 0
  | .inf n => if n then 0 else 2 ^ 32
  | .fin n m e => if n ∨ m = 0 then 0 else min ((roundAt .rtz false 0 m (e + 32) 0).1) (2 ^ 32)

/-- VRNGN from two draws: z = √(−2 ln u1) × cos(2π u2) (R137). -/
def rngNormal (d0 d1 : Nat) : BitVec 32 :=
  let u1 := fp32Bits .rne (rngUnitPos (BitVec.ofNat 32 d0))
  let u2 := fp32Bits .rne (rngUnit (BitVec.ofNat 32 d1))
  let root := transFp32 0x27 (fp32Mul .rne 0xC0000000 (transFp32 0x23 u1))
  fp32Mul .rne root (transFp32 0x2C (fp32Mul .rne 0x40000000 u2))

/-- One row of VRNGU, VRNGB or VRNGN. -/
def rngRow (s : State) (t : Nat) (r : VecRun) (lat : Nat) : State :=
  let v := r.slot
  let per := if r.vop = 0x32 then 2 else 1
  let (s, p) := if r.vop = 0x31 then readCacheVals s t v.orow.toNat 0 else (s, [])
  let (ds, s) := s.draws t v.rstr.toNat r.base (64 * r.row) 64 per
  let out : List Elem := (List.range 64).map fun c =>
    match r.vop with
    | 0x30 =>
      let d := BitVec.ofNat 32 (ds.getD c 0)
      ⟨fp32Bits .rne (if vmode v 52 1 = 1 then rngUnitPos d else rngUnit d), .none⟩
    | 0x31 =>
      let e := p.getD c elemReset
      ⟨viewBool 0 (decide (ds.getD c 0 < rngThreshold (fp32Val e.bits))), e.cause⟩
    | _ => ⟨rngNormal (ds.getD (2 * c) 0) (ds.getD (2 * c + 1) 0), .none⟩
  enqueue s t (r.issue + r.row + lat) r.issue (.treg v.vd.toNat (v.row.toNat + r.row) (rowLanes out))

/-! ### Reductions (R138) -/

/-- The operator of SUM, MAX and MIN in a view: sums round under RNE. -/
def ropBits (rop view : Nat) (a b : BitVec 32) : BitVec 32 :=
  if view = 1 then
    match rop with
    | 0 => a + b
    | 1 => if a.slt b then b else a
    | _ => if b.slt a then b else a
  else
    let f := viewVal view
    match rop with
    | 0 => roundTo view .rne (valAdd .rne (f a) (f b))
    | 1 => roundTo view .rne (valMax (f a) (f b))
    | _ => roundTo view .rne (valMin (f a) (f b))

/-- The identity of SUM, MAX and MIN in a view (R138). -/
def ropIdentity (rop view : Nat) : BitVec 32 :=
  match rop, view with
  | 1, 0 => 0xFF800000 | 1, 1 => 0x80000000 | 1, _ => 0xFF80
  | 2, 0 => 0x7F800000 | 2, 1 => 0x7FFFFFFF | 2, _ => 0x7F80
  | _, _ => 0

/-- The operator on elements: a result is poisoned by each input that takes part (R125). -/
def ropElem (rop view : Nat) (a b : Elem) : Elem :=
  ⟨ropBits rop view a.bits b.bits, causeJoin a.cause b.cause⟩

/-- One level of the pairwise tree. -/
def pairUp {α : Type} (op : α → α → α) (xs : List α) : List α :=
  match xs with
  | a :: b :: rest => op a b :: pairUp op rest
  | xs => xs

/-- The least k with n ≤ 2^k, for n up to 2^fuel. -/
def ceilLog2 (n : Nat) : Nat := if n ≤ 1 then 0 else (n - 1).log2 + 1

/-- The pairwise tree of R138, padded with the identity to the next power of two. -/
def reduceTree {α : Type} (op : α → α → α) (pad : α) (xs : List α) : α :=
  let k := ceilLog2 xs.length
  let xs := xs ++ List.replicate (2 ^ k - xs.length) pad
  ((List.range k).foldl (fun xs _ => pairUp op xs) xs).headD pad

/-- Column `i` of a list of rows. -/
def columnOf {α : Type} (d : α) (rows : List (List α)) (i : Nat) : List α := rows.map fun r => r.getD i d

/-- The last row of a block family has been read. -/
def lastRow (r : VecRun) : Bool := r.row + 1 == r.slot.count.toNat

/-- One row of VRED. (DEDUCED, log 18) -/
def redRow (s : State) (t : Nat) (r : VecRun) (lat : Nat) : State :=
  let v := r.slot
  let view := v.view.toNat
  let row := v.row.toNat + r.row
  let op := ropElem (vRop v) view
  let pad : Elem := ⟨ropIdentity (vRop v) view, .none⟩
  let due := r.issue + r.row + lat
  let (s, a) := readVals s t v.va.toNat row view
  if vAxis v = 0 then
    enqueue s t due r.issue (.treg v.vd.toNat row [valueLane view (vDcol v) (reduceTree op pad a)])
  else
    let rows := r.seenA ++ [a]
    let s := s.modRun t fun q => { q with seenA := rows }
    if lastRow r then
      let out := (List.range (viewCount view)).map fun c => reduceTree op pad (columnOf elemReset rows c)
      enqueue s t due r.issue (.treg v.vd.toNat (vDrow v) (rowLanes (viewRow view out)))
    else s

/-! ### Scans (R139 to R141) -/

/-- The operator of a scan on pairs of coefficient and input; the coefficient is not used outside
LINREC (R139). -/
def scanOp (rop view : Nat) (x y : Elem × Elem) : Elem × Elem :=
  if rop = 3 then
    let f := viewVal view
    let a1 := x.1.bits
    let b1 := x.2.bits
    let a2 := y.1.bits
    let b2 := y.2.bits
    (⟨roundTo view .rne (valMul (f a2) (f a1)), causeJoin y.1.cause x.1.cause⟩,
      ⟨roundTo view .rne (valAdd .rne (valMul (f a2) (f b1)) (f b2)),
        causeJoinAll [y.1.cause, x.2.cause, y.2.cause]⟩)
  else (elemReset, ropElem rop view x.2 y.2)

/-- The identity of a scan. -/
def scanIdentity (rop view : Nat) : Elem × Elem :=
  if rop = 3 then (⟨viewBool view true, .none⟩, elemReset)
  else (elemReset, ⟨ropIdentity rop view, .none⟩)

/-- One pass of the loop of R141 with distance `d`; values carry their flags. -/
def scanPass {α : Type} (op : α → α → α) (d : Nat) (xs : List (α × Bool)) : List (α × Bool) :=
  let before := List.replicate d none ++ xs.map some
  (before.zip xs).map fun p =>
    match p.1, p.2 with
    | some (px, pf), (x, false) => (op px x, pf)
    | _, x => x

/-- The inclusive scan of a sequence (R141): distances 1, 2, 4, … below its length. -/
def scanSeq {α : Type} (op : α → α → α) (xs : List (α × Bool)) : List (α × Bool) :=
  (List.range (ceilLog2 xs.length)).foldl (fun xs k => scanPass op (2 ^ k) xs) xs

/-- Every value whose final flag is clear becomes op(carry, x); an absent carry changes nothing. -/
def scanChain {α : Type} (op : α → α → α) (carry : Option α) (xs : List (α × Bool)) : List α :=
  xs.map fun p => match p, carry with
    | (x, false), some c => op c x
    | (x, _), _ => x

/-- The FLAT scan of rows (R141): inclusive results row by row. -/
def scanFlat {α : Type} (op : α → α → α) (carry : Option α) (rows : List (List (α × Bool))) :
    List (List α) :=
  let rows := rows.map (scanSeq op)
  let totals := scanSeq op (rows.filterMap List.getLast?)
  rows.mapIdx fun r xs =>
    let e := if r = 0 then carry
      else match totals[r - 1]?, carry with
        | some (t, false), some c => some (op c t)
        | some (t, _), _ => some t
        | none, _ => none
    scanChain op e xs

/-- The exclusive result of a sequence from its inclusive one (R141). -/
def scanExcl {α : Type} (pad : α) (carry : Option α) (heads : List Bool) (incl : List α) : List α :=
  let before := carry.getD pad :: incl
  (heads.zip before).map fun p => if p.1 then pad else p.2

/-- The segment of each of `n` elements under a row of lengths, and none beyond the last (R140). -/
def segIds (lens : List Nat) (s n : Nat) : List (Option Nat) :=
  match lens with
  | [] => List.replicate n none
  | l :: rest => let k := min l n; List.replicate k (some s) ++ segIds rest (s + 1) (n - k)

/-- The lengths of a row: below 0 counts as 0 (R140). -/
def lengthsOf (row : List Elem) : List Nat :=
  row.map fun e => e.bits.toInt.toNat

/-- The heads of a list of segments: the first element of each (R140). -/
def segHeads (ids : List (Option Nat)) : List Bool :=
  (ids.zip (none :: ids)).map fun p => p.1.isSome && p.1 != p.2

/-- The causes that the lengths give an element of segment `s`, or one of no segment: those of
every length that places it. -/
def segCause (row : List Elem) (id : Option Nat) : Cause :=
  match id with
  | some s => causeJoinAll ((row.take (s + 1)).map (·.cause))
  | none => causeJoinAll (row.map (·.cause))

/-- An element whose cause joins another. -/
def joinCause (c : Cause) (e : Elem) : Elem := { e with cause := causeJoin e.cause c }

/-- A scanned sequence: the inputs with their heads, and for each element whether it lies in a
segment and the cause its flag or lengths give it. -/
structure ScanIn where
  x : Elem × Elem
  head : Bool
  live : Bool
  cause : Cause
deriving DecidableEq, Repr

/-- The inputs of a scan as they enter it: the identity outside the segments, the flag's cause joined. (DEDUCED, log 17) -/
def scanEnter (pad : Elem × Elem) (e : ScanIn) : (Elem × Elem) × Bool :=
  (if e.live then (e.x.1, joinCause e.cause e.x.2) else pad, e.head)

/-- The values of a scanned sequence (R141, R140): inclusive or exclusive, the identity outside the
segments. -/
def scanOut (excl : Bool) (pad : Elem × Elem) (carry : Option (Elem × Elem)) (ins : List ScanIn)
    (incl : List (Elem × Elem)) : List Elem :=
  let vals := if excl then scanExcl pad carry (ins.map (·.head)) incl else incl
  (ins.zip vals).map fun p => joinCause p.1.cause (if p.1.live then p.2.2 else pad.2)

/-- Split a list into rows of `n`. -/
def rowsOf {α : Type} (n : Nat) (xs : List α) (k : Nat) : List (List α) :=
  (List.range k).map fun i => (xs.drop (n * i)).take n

/-- The whole of a scan over its rows (R139 to R141): the result rows, and the carries out by place. -/
def scanRows (v : VecSlot) (carry : Option (List (Elem × Elem))) (rows : List (List ScanIn)) :
    List (List Elem) × List Elem :=
  let view := v.view.toNat
  let op := scanOp (vRop v) view
  let pad := scanIdentity (vRop v) view
  let excl := vExcl v
  let n := viewCount view
  let blank : ScanIn := ⟨pad, false, true, .none⟩
  match vAxis v with
  | 0 => (rows.map fun r =>
      scanOut excl pad none r (scanChain op none (scanSeq op (r.map (scanEnter pad)))), [])
  | 1 =>
    let cols := (List.range n).map fun c =>
      let ins := columnOf blank rows c
      let cv := carry.map fun cs => cs.getD c pad
      let incl := scanChain op cv (scanSeq op (ins.map (scanEnter pad)))
      (scanOut excl pad cv ins incl, (incl.getLastD pad).2)
    ((List.range rows.length).map fun r => cols.map fun c => c.1.getD r elemReset, cols.map (·.2))
  | _ =>
    let cv := carry.map fun cs => cs.getD 0 pad
    let incl := scanFlat op cv (rows.map fun r => r.map (scanEnter pad))
    let out := scanOut excl pad cv rows.flatten incl.flatten
    (rowsOf n out rows.length, [(incl.flatten.getLastD pad).2])

/-- The inputs of a scan with their heads and segments (R140). -/
def scanInputs (v : VecSlot) (xs : List (List (Elem × Elem))) (flags : List (List (Bool × Cause)))
    (lens : List Elem) : List (List ScanIn) :=
  let n := viewCount v.view.toNat
  match vSeg v with
  | 1 => xs.mapIdx fun r row => row.mapIdx fun c x =>
      let f := (flags.getD r []).getD c (false, .none)
      ⟨x, f.1, true, f.2⟩
  | 2 =>
    let ls := lengthsOf lens
    let mk := fun (ids : List (Option Nat)) (hs : List Bool) (i : Nat) (x : Elem × Elem) =>
      let id := ids.getD i none
      (⟨x, hs.getD i false, id.isSome, segCause lens id⟩ : ScanIn)
    match vAxis v with
    | 0 => let ids := segIds ls 0 n
           let hs := segHeads ids
           xs.map fun row => row.mapIdx fun c x => mk ids hs c x
    | 1 => let ids := segIds ls 0 xs.length
           let hs := segHeads ids
           xs.mapIdx fun r row => row.map fun x => mk ids hs r x
    | _ => let ids := segIds ls 0 (n * xs.length)
           let hs := segHeads ids
           xs.mapIdx fun r row => row.mapIdx fun c x => mk ids hs (n * r + c) x
  | _ => xs.map fun row => row.map fun x => ⟨x, false, true, .none⟩

/-- One row of VSCAN. -/
def scanRow (s : State) (t : Nat) (r : VecRun) (lat : Nat) : State :=
  let v := r.slot
  let view := v.view.toNat
  let row := v.row.toNat + r.row
  let due := r.issue + r.row + lat
  let (s, a) := readVals s t v.va.toNat row view
  let (s, b) := if vRop v = 3 then readB s t v r.row else (s, [])
  let (s, f) := if vSeg v = 1 then readVals s t v.vc.toNat row view else (s, [])
  let (s, lens) := if vSeg v = 2 then readCacheVals s t v.orow.toNat 1 else (s, [])
  -- the rows read so far; the head flags are kept with their causes as elements
  let (ra, rb, rf) := if vAxis v = 0 then ([a], [b], [f])
    else (r.seenA ++ [a], r.seenB ++ [b], r.seenF ++ [f])
  let s := s.modRun t fun q => { q with seenA := ra, seenB := rb, seenF := rf }
  if vAxis v = 0 ∨ lastRow r then
    let xs : List (List (Elem × Elem)) := (ra.zip rb).map fun p =>
      if vRop v = 3 then p.1.zip p.2 else p.1.map fun e => (elemReset, e)
    let flags := rf.map fun row => row.map fun e => (e.bits != 0, e.cause)
    let carry := if vSeg v = 2 then none else r.carryIn.map fun cs => cs.map fun e =>
      ((⟨viewBool view true, .none⟩ : Elem), e)
    let (out, cout) := scanRows v carry (scanInputs v xs flags lens)
    let base := if vAxis v = 0 then row else v.row.toNat
    let s := (out.zip (List.range out.length)).foldl (fun s p =>
      enqueue s t due r.issue (.treg v.vd.toNat (base + p.2) (rowLanes (viewRow view p.1)))) s
    if vSeg v = 2 ∨ vAxis v = 0 then s
    else if vAxis v = 1 then enqueue s t due r.issue (.carry (rowLanes (viewRow view cout)))
    else enqueue s t due r.issue (.carry (cout.map (valueLane view 0)))
  else s

/-! ### Segmented reduction (R142) -/

/-- The lengths of a list that ends at its last positive entry. -/
def trimLens (lens : List Nat) : List Nat := (lens.reverse.dropWhile (· == 0)).reverse

/-- The results of the segments of a sequence, in order (R142). -/
def segReduce (op : Elem → Elem → Elem) (pad : Elem) (lens : List Nat) (xs : List Elem) : List Elem :=
  match lens with
  | [] => []
  | l :: rest => reduceTree op pad (xs.take l) :: segReduce op pad rest (xs.drop l)

/-- One row of VSEGRED. -/
def segredRow (s : State) (t : Nat) (r : VecRun) (lat : Nat) : State :=
  let v := r.slot
  let view := v.view.toNat
  let (s, a) := readVals s t v.va.toNat (v.row.toNat + r.row) view
  let (s, row) := readCacheVals s t v.orow.toNat 1
  let rows := r.seenA ++ [a]
  let s := s.modRun t fun q => { q with seenA := rows }
  if lastRow r then
    let op := ropElem (vRop v) view
    let res := segReduce op ⟨ropIdentity (vRop v) view, .none⟩ (trimLens (lengthsOf row)) rows.flatten
    enqueue s t (r.issue + r.row + lat) r.issue (.treg v.vd.toNat (vDrow v)
      (res.mapIdx fun i e => valueLane view i (joinCause (segCause row (some i)) e)))
  else s

/-! ### Sorting (R143) -/

/-- A pair of key and index with its place. -/
structure SortPair where
  key : Elem
  index : Elem
deriving DecidableEq, Repr

/-- The place of a key in the total order: NaN below −∞, −0 below +0 (R143). -/
def keyRank (k : BitVec 32) : Int :=
  let mag : Nat := k.toNat % 2 ^ 31
  if 0x7F800000 < mag then (-1099511627776 : Int) else if k.getLsbD 31 then -(mag : Int) - 1 else mag

/-- Whether `a` comes strictly before `b` in descending order by rules 1 and 2. -/
def pairBefore (a b : SortPair) : Bool :=
  decide (keyRank b.key.bits < keyRank a.key.bits)
    || (keyRank b.key.bits == keyRank a.key.bits && a.index.bits.slt b.index.bits)

/-- Insert a pair behind every pair that does not come strictly after it (rule 3). -/
def sortInsert (p : SortPair) (l : List SortPair) : List SortPair :=
  match l with
  | [] => [p]
  | q :: rest => if pairBefore p q then p :: q :: rest else q :: sortInsert p rest

/-- The stable descending order of R143. -/
def sortPairs (l : List SortPair) : List SortPair := l.foldl (fun acc p => sortInsert p acc) []

/-- Pairs of a key row and an index row. -/
def pairsOf (ks is : List Elem) : List SortPair := (ks.zip is).map fun p => ⟨p.1, p.2⟩

/-- The cause of an output pair: that of its own key and index (R143). -/
def pairCause (p : SortPair) : Cause := causeJoin p.key.cause p.index.cause

/-- A row of a register as an instruction reads it before any of its own results (R132). (DEDUCED, log 25) -/
def readOwn (s : State) (t : Nat) (r : VecRun) (reg row view : Nat) : State × List Elem :=
  match r.own.find? fun e => e.1 == 32 * reg + row with
  | some e => (s, viewVals view e.2)
  | none => readVals s t reg row view

/-- One row of VSORT or VMERGE. -/
def sortRow (s : State) (t : Nat) (r : VecRun) (lat : Nat) : State :=
  let v := r.slot
  let row := v.row.toNat + r.row
  let due := r.issue + r.row + lat
  let (s, k1) := readVals s t v.va.toNat row 0
  let (s, i1) := readVals s t v.vb.toNat row 1
  let (s, ps) :=
    if r.vop = 0x3C then (s, pairsOf k1 i1)
    else
      let (s, k2) := readOwn s t r v.vc.toNat (vRow2 v + r.row) 0
      let (s, i2) := readOwn s t r (vVe v) (vRow2 v + r.row) 1
      (s, pairsOf k1 i1 ++ pairsOf k2 i2)
  let out := (sortPairs ps).take 64
  let s := enqueue s t due r.issue (.treg v.vd.toNat row (rowLanes (out.map fun p => ⟨p.key.bits, pairCause p⟩)))
  enqueue s t due r.issue (.treg (vVf v) row (rowLanes (out.map fun p => ⟨p.index.bits, pairCause p⟩)))

/-! ### The finished-tile queue and wide areas (R128 to R130) -/

/-- A wide word converted to FP32 under R77, R82, R90 and R91, with its cause. -/
def wideElem (s : State) (t : Nat) (rnd : Rnd) (draw : Nat) (w : Wide) : State × Elem :=
  let (w', c) := drainCheck w
  (raiseVec s t c, ⟨BitVec.ofNat 32 (wideToElem .fp32 rnd draw w), w'.cause⟩)

/-- Convert a list of wide words, each with its draw. -/
def wideElems (s : State) (t : Nat) (rnd : Rnd) (ds : List Nat) (ws : List Wide) : State × List Elem :=
  (ws.zip (List.range ws.length)).foldl (fun (acc : State × List Elem) p =>
    let (s, e) := wideElem acc.1 t rnd (ds.getD p.2 0) p.1
    (s, acc.2 ++ [e])) (s, [])

/-- The 32 wide words of the row pair at `row` of the cache, 4 words of the cache each; a marked word
gives its cause to the wide word (R128). -/
def wideOfRow (row : List Elem) : List Wide :=
  (List.range (row.length / 4)).map fun k =>
    let ws := (row.drop (4 * k)).take 4
    let w := wideOfBits (BitVec.ofNat 128 (ws.foldr (fun e acc => e.bits.toNat + 2 ^ 32 * acc) 0))
    { w with cause := causeJoin w.cause (causeJoinAll (ws.map (·.cause))) }

/-- `n` rows of the cache from `row`, as elements. -/
def readCacheRows (s : State) (t row n : Nat) : State × List Elem :=
  (List.range n).foldl (fun (acc : State × List Elem) i =>
    let s := readHazard acc.1 t (landsOcache ((row + i) % 256))
    let (s, r) := readOcache s t (row + i)
    (s, acc.2 ++ r)) (s, [])

/-- Take the oldest entry of the finished-tile queue (R130); a pop from an empty queue breaks a
promise. -/
def popQueue (s : State) (t : Nat) : State × Option QEntry :=
  match (s.vec t).queue with
  | [] => (s.breakPromise t .queue, none)
  | e :: rest => (s.modVec t fun v => { v with queue := rest }, some e)

/-- One row of VQPOP or VWCVT (R130): row `i` holds arrays 2i and 2i + 1. -/
def popRow (s : State) (t : Nat) (r : VecRun) (lat : Nat) : State :=
  let v := r.slot
  let due := r.issue + r.row + lat
  let (s, out) :=
    if r.vop = 0x42 then
      -- 64 wide words of the area: four cache rows
      let (s, row) := readCacheRows s t (v.orow.toNat + 4 * r.row) 4
      let (ds, s) := vecDraws s t r (64 * r.row) 64
      wideElems s t (vRnd v) ds (wideOfRow row)
    else match r.popped with
      | some (.narrow vs) => (s, (vs.drop (64 * r.row)).take 64)
      | some (.wide ws) =>
        let (ds, s) := vecDraws s t r (64 * r.row) 64
        wideElems s t (vRnd v) ds ((ws.drop (64 * r.row)).take 64)
      | none => (s, List.replicate 64 elemReset)
  enqueue s t due r.issue (.treg v.vd.toNat (v.row.toNat + r.row) (rowLanes out))

/-- The cache words of wide words, unmarked (R128). -/
def wideLanes (ws : List Wide) : List Lane :=
  (ws.zip (List.range ws.length)).flatMap fun p =>
    (List.range 4).map fun q =>
      ⟨4 * p.2 + q, none, (wideBits p.1).extractLsb' (32 * q) 32, .none⟩

/-- Wide words with free bits, where the manual gives no source for them. (DEDUCED, log 19) -/
def freeWides (s : State) : State × List Wide :=
  let (v, s) := s.free
  (s, (List.range 128).map fun i => wideOfBits (BitVec.ofNat 128 (v / 2 ^ (128 * i))))

/-- VWADD (R79, R130): all 128 words at once, in the first row's cycle. -/
def wideAddRow (s : State) (t : Nat) (r : VecRun) (lat : Nat) : State :=
  let v := r.slot
  if r.row ≠ 0 then s
  else
    let (s, src) :=
      if vmode v 53 1 = 1 then
        let (s, row) := readCacheRows s t (vmode v 54 8) 8
        (s, wideOfRow row)
      else match r.popped with
        | some (.wide ws) => (s, ws)
        | _ => freeWides s
    if vmode v 52 1 = 1 then enqueue s t (r.issue + lat) r.issue (.ocache v.orow.toNat (wideLanes src))
    else
      let (s, row) := readCacheRows s t v.orow.toNat 8
      let (s, out) := ((wideOfRow row).zip src).foldl (fun (acc : State × List Wide) p =>
        let (w, newly) := wideAdd p.1 p.2
        (newly.foldl (fun s c => raiseVec s t c) acc.1, acc.2 ++ [w])) (s, [])
      enqueue s t (r.issue + lat) r.issue (.ocache v.orow.toNat (wideLanes out))

/-! ### Memory instructions (R128, R135, R184) -/

/-- The scratchpad offset of row `i` (R184): (SADDR + j × STEP + i × RSTRIDE) mod 2^14 lines. -/
def vecAddr (r : VecRun) : Nat :=
  let v := r.slot
  let step := signed 8 (vmode v 81 8)
  ((((vmode v 52 14 : Nat) : Int) + (r.ind : Int) * step + ((r.row * vmode v 70 8 : Nat) : Int)) % (16384 : Int)).toNat * 64

/-- Bytes of a row of `n` values in a format (R135): MX blocks carry one scale byte each. -/
def rowBytes (f : Fmt) (n : Nat) : Nat :=
  n * fmtBits f / 8 + (if fmtScaled f then n / 32 else 0)

/-- The raw elements of a row of bytes in a format, with the cause of each and its scale byte. -/
def unpackRow (f : Fmt) (n : Nat) (bs : List (BitVec 8)) (cs : List Cause) : List (Nat × Nat × Cause) :=
  let w := fmtBits f
  let body := n * w / 8
  (List.range n).map fun k =>
    let off := k * w / 8
    let len := max 1 (w / 8)
    let raw := leNat ((bs.drop off).take len)
    let raw := if w = 4 then (raw / 16 ^ (k % 2)) % 16 else raw
    let c := causeJoinAll ((cs.drop off).take len)
    if fmtScaled f then
      (raw, (bs.getD (body + k / 32) 0).toNat, causeJoin c (cs.getD (body + k / 32) .none))
    else (raw, 127, c)

/-- One row of VLD (R135). -/
def loadRow (s : State) (t : Nat) (r : VecRun) (lat : Nat) : State :=
  let v := r.slot
  let view := v.view.toNat
  let n := viewCount view
  let f := (fmtOfCode (vFmt v)).getD .fp32
  let off := vecAddr r
  let len := rowBytes f n
  let s := (spadHazard s t off len).takePorts t (r.issue + r.row) off len
  let (s, d) := s.spadRead t off len
  let raws := unpackRow f n d.bytes d.causes
  let (ds, s) := vecDraws s t r (n * r.row) n
  let (s, out) :=
    if f = .wide then
      wideElems s t (vRnd v) ds (raws.map fun e =>
        let w := wideOfBits (BitVec.ofNat 128 e.1)
        { w with cause := causeJoin w.cause e.2.2 })
    else (s, raws.mapIdx fun k e =>
      let c := e.2.2
      (⟨BitVec.ofNat 32 (if c = .none then
          floatBits (viewFmt view) (vRnd v) (ds.getD k 0) (blockVal f e.2.1 e.1)
        else poisonBits (viewFormat view)), c⟩ : Elem))
  enqueue s t (r.issue + r.row + lat) r.issue
    (.treg v.vd.toNat (v.row.toNat + r.row) (rowLanes (viewRow view out)))

/-- The bytes of a stored row, with the cause of each (R135, R82, R92): MX blocks of 32 put their
element bytes first, their scale bytes after them. -/
def storeBytes (f : Fmt) (rnd : Rnd) (ds : List Nat) (row : List Elem) : List (BitVec 8) × List Cause :=
  if fmtScaled f then
    let blocks := (List.range (row.length / 32)).map fun b =>
      let es := (row.drop (32 * b)).take 32
      let vs := es.map fun e => if e.cause = .none then fp32Val e.bits else FVal.nan
      let (sc, raws) := mxBits f rnd (ds.drop (32 * b)) vs
      (packElems f raws, sc, causeJoinAll (es.map Elem.cause))
    (blocks.flatMap (fun b => b.1) ++ blocks.map (fun b => BitVec.ofNat 8 b.2.1),
      blocks.flatMap (fun b => b.1.map fun _ => b.2.2) ++ blocks.map (fun b => b.2.2))
  else
    let es := row.mapIdx fun i e =>
      (if e.cause = .none then elemBits f rnd (ds.getD i 0) (fp32Val e.bits) else poisonBits f, e.cause)
    (es.flatMap fun e => leBytes (fmtBits f / 8) e.1,
      es.flatMap fun e => List.replicate (fmtBits f / 8) e.2)

/-- One row of VST (R135). -/
def storeRow (s : State) (t : Nat) (r : VecRun) (lat : Nat) : State :=
  let v := r.slot
  let f := (fmtOfCode (vFmt v)).getD .fp32
  let (s, row) := readVals s t v.va.toNat (v.row.toNat + r.row) 0
  let (ds, s) := vecDraws s t r (64 * r.row) 64
  let (bs, cs) := storeBytes f (vRnd v) ds row
  enqueue s t (r.issue + r.row + lat) r.issue (.spad (vecAddr r) bs cs)

/-- One row of VOCLD (R128): 256 bytes to cache row OROW + i. (DEDUCED, log 24) -/
def cacheLoadRow (s : State) (t : Nat) (r : VecRun) (lat : Nat) : State :=
  let off := vecAddr r
  let s := (spadHazard s t off 256).takePorts t (r.issue + r.row) off 256
  let (s, d) := s.spadRead t off 256
  let lanes := (List.range 64).map fun k =>
    (⟨k, none, BitVec.ofNat 32 (leNat ((d.bytes.drop (4 * k)).take 4)),
      causeJoinAll ((d.causes.drop (4 * k)).take 4)⟩ : Lane)
  enqueue s t (r.issue + r.row + lat) r.issue (.ocache ((r.slot.orow.toNat + r.row) % 256) lanes)

/-- One row of VOCST (R128). -/
def cacheStoreRow (s : State) (t : Nat) (r : VecRun) (lat : Nat) : State :=
  let row := (r.slot.orow.toNat + r.row) % 256
  let s := readHazard s t (landsOcache row)
  let (s, es) := readOcache s t row
  enqueue s t (r.issue + r.row + lat) r.issue
    (.spad (vecAddr r) (es.flatMap fun e => leBytes 4 e.bits.toNat)
      (es.flatMap fun e => List.replicate 4 e.cause))

/-! ### Issue (R131) -/

/-- The row of the instruction in issue that the current cycle processes. -/
def vecRowOf (s : State) (t : Nat) (r : VecRun) : State :=
  let lat := s.latency t (vecLatency r.vop (vAxis r.slot))
  if r.vop ≤ 0x2C then elemwiseRow s t r lat
  else if r.vop ≤ 0x32 then rngRow s t r lat
  else match r.vop with
    | 0x38 => redRow s t r lat
    | 0x39 => scanRow s t r lat
    | 0x3A => segredRow s t r lat
    | 0x3C => sortRow s t r lat
    | 0x3D => sortRow s t r lat
    | 0x40 => popRow s t r lat
    | 0x41 => wideAddRow s t r lat
    | 0x42 => popRow s t r lat
    | 0x48 => loadRow s t r lat
    | 0x49 => storeRow s t r lat
    | 0x4A => cacheLoadRow s t r lat
    | _ => cacheStoreRow s t r lat

/-- Process the next row of the instruction in issue, which ends with its last row (R131). -/
def vecRow (s : State) (t : Nat) : State :=
  match (s.vec t).run with
  | none => s
  | some r =>
    let next := fun (q : VecRun) => { q with row := r.row + 1 }
    (vecRowOf s t r).modVec t fun v => { v with run := if lastRow r then none else v.run.map next }

/-- Start a vector instruction in the current cycle (R131, R174, R238): `ind` is the iteration index it
uses. (DEDUCED, log 16) -/
def vecStart (s : State) (t vop : Nat) (v : VecSlot) (ind : Nat) : State :=
  let s := if (s.vec t).run.isSome then s.breakPromise t .slotOverlap else s
  if v.count.toNat = 0 then s.modVec t fun x => { x with run := none }
  else
    let base := s.cursorBase t (fld (s.reg (VEC_RNG_CFG t v.rstr.toNat)) 6 2)
    let carry := if vop = 0x39 ∧ vChain v ∧ vAxis v ≠ 0 ∧ vSeg v ≠ 2 then
      some (viewVals v.view.toNat (rowOf (s.vec t).carry 0)) else none
    let pops : Bool := vop == 0x40 || (vop == 0x41 && vmode v 53 1 == 0)
    let (s, e) := if pops then popQueue s t else (s, none)
    let r : VecRun := ⟨vop, v, s.cycle t, 0, ind, base, carry, [], [], [], e, [], []⟩
    vecRow (s.modVec t fun x => { x with run := some r }) t

/-- The iteration index an IND field selects (R177). -/
def indexOf (c : Ctl) (ind : Nat) : Nat := if 4 ≤ ind then (ctlJ c (ind - 4)).toNat else 0

/-- A vector instruction as a command: malformed fields act as in a malformed bundle (R175). -/
def vecIssue (s : State) (t vop : Nat) (v : VecSlot) : State :=
  if vecMalformed vop v then badBundle s t
  else
    let mem : Bool := decide (0x48 ≤ vop) && decide (vop ≤ 0x4B)
    vecStart s t vop v (if mem then indexOf (s.tile t).ctl (vInd v) else 0)

/-- Vector-engine state at cycle 0 of a frame (R126): the operand cache stays. -/
def clearVec (v : Vec) : Vec :=
  { vecReset with ocache := v.ocache, ocacheErr := v.ocacheErr, cacheSeed := v.cacheSeed }

end Sys2Proof.Machine
end

