-- ==== Sys2Proof/Machine/VectorCmds.lean ====
section
/-! DEFINITION. The commands of the vector slot: one meaning for each operation of R183, each the issue of
its VOP in the tile's current cycle (R131), and VEC_RESULT_WRITE. -/

namespace Sys2Proof.Machine

/-- VADD (R134). -/
def execVadd (t : Nat) (v : VecSlot) (s : State) : Host.Outcome State Fault Refusal :=
  onIssue s t fun s => vecIssue s t 0x01 v

/-- VSUB (R134). -/
def execVsub (t : Nat) (v : VecSlot) (s : State) : Host.Outcome State Fault Refusal :=
  onIssue s t fun s => vecIssue s t 0x02 v

/-- VMUL (R134). -/
def execVmul (t : Nat) (v : VecSlot) (s : State) : Host.Outcome State Fault Refusal :=
  onIssue s t fun s => vecIssue s t 0x03 v

/-- VFMA (R134). -/
def execVfma (t : Nat) (v : VecSlot) (s : State) : Host.Outcome State Fault Refusal :=
  onIssue s t fun s => vecIssue s t 0x04 v

/-- VMIN (R134). -/
def execVmin (t : Nat) (v : VecSlot) (s : State) : Host.Outcome State Fault Refusal :=
  onIssue s t fun s => vecIssue s t 0x05 v

/-- VMAX (R134). -/
def execVmax (t : Nat) (v : VecSlot) (s : State) : Host.Outcome State Fault Refusal :=
  onIssue s t fun s => vecIssue s t 0x06 v

/-- VABS (R134). -/
def execVabs (t : Nat) (v : VecSlot) (s : State) : Host.Outcome State Fault Refusal :=
  onIssue s t fun s => vecIssue s t 0x07 v

/-- VNEG (R134). -/
def execVneg (t : Nat) (v : VecSlot) (s : State) : Host.Outcome State Fault Refusal :=
  onIssue s t fun s => vecIssue s t 0x08 v

/-- VCMP (R134). -/
def execVcmp (t : Nat) (v : VecSlot) (s : State) : Host.Outcome State Fault Refusal :=
  onIssue s t fun s => vecIssue s t 0x09 v

/-- VSEL (R134). -/
def execVsel (t : Nat) (v : VecSlot) (s : State) : Host.Outcome State Fault Refusal :=
  onIssue s t fun s => vecIssue s t 0x0A v

/-- VMOV (R183). -/
def execVmov (t : Nat) (v : VecSlot) (s : State) : Host.Outcome State Fault Refusal :=
  onIssue s t fun s => vecIssue s t 0x0B v

/-- VIADD (R134). -/
def execViadd (t : Nat) (v : VecSlot) (s : State) : Host.Outcome State Fault Refusal :=
  onIssue s t fun s => vecIssue s t 0x10 v

/-- VISUB (R134). -/
def execVisub (t : Nat) (v : VecSlot) (s : State) : Host.Outcome State Fault Refusal :=
  onIssue s t fun s => vecIssue s t 0x11 v

/-- VIMUL (R134). -/
def execVimul (t : Nat) (v : VecSlot) (s : State) : Host.Outcome State Fault Refusal :=
  onIssue s t fun s => vecIssue s t 0x12 v

/-- VAND (R134). -/
def execVand (t : Nat) (v : VecSlot) (s : State) : Host.Outcome State Fault Refusal :=
  onIssue s t fun s => vecIssue s t 0x13 v

/-- VOR (R134). -/
def execVor (t : Nat) (v : VecSlot) (s : State) : Host.Outcome State Fault Refusal :=
  onIssue s t fun s => vecIssue s t 0x14 v

/-- VXOR (R134). -/
def execVxor (t : Nat) (v : VecSlot) (s : State) : Host.Outcome State Fault Refusal :=
  onIssue s t fun s => vecIssue s t 0x15 v

/-- VSHL (R134). -/
def execVshl (t : Nat) (v : VecSlot) (s : State) : Host.Outcome State Fault Refusal :=
  onIssue s t fun s => vecIssue s t 0x16 v

/-- VSHR (R134). -/
def execVshr (t : Nat) (v : VecSlot) (s : State) : Host.Outcome State Fault Refusal :=
  onIssue s t fun s => vecIssue s t 0x17 v

/-- VSRA (R134). -/
def execVsra (t : Nat) (v : VecSlot) (s : State) : Host.Outcome State Fault Refusal :=
  onIssue s t fun s => vecIssue s t 0x18 v

/-- VICMP (R134). -/
def execVicmp (t : Nat) (v : VecSlot) (s : State) : Host.Outcome State Fault Refusal :=
  onIssue s t fun s => vecIssue s t 0x19 v

/-- VIOTA (R134). -/
def execViota (t : Nat) (v : VecSlot) (s : State) : Host.Outcome State Fault Refusal :=
  onIssue s t fun s => vecIssue s t 0x1A v

/-- VCVT (R135). -/
def execVcvt (t : Nat) (v : VecSlot) (s : State) : Host.Outcome State Fault Refusal :=
  onIssue s t fun s => vecIssue s t 0x20 v

/-- VEXP (R136). -/
def execVexp (t : Nat) (v : VecSlot) (s : State) : Host.Outcome State Fault Refusal :=
  onIssue s t fun s => vecIssue s t 0x21 v

/-- VEXP2 (R136). -/
def execVexp2 (t : Nat) (v : VecSlot) (s : State) : Host.Outcome State Fault Refusal :=
  onIssue s t fun s => vecIssue s t 0x22 v

/-- VLOG (R136). -/
def execVlog (t : Nat) (v : VecSlot) (s : State) : Host.Outcome State Fault Refusal :=
  onIssue s t fun s => vecIssue s t 0x23 v

/-- VLOG2 (R136). -/
def execVlog2 (t : Nat) (v : VecSlot) (s : State) : Host.Outcome State Fault Refusal :=
  onIssue s t fun s => vecIssue s t 0x24 v

/-- VRCP (R136). -/
def execVrcp (t : Nat) (v : VecSlot) (s : State) : Host.Outcome State Fault Refusal :=
  onIssue s t fun s => vecIssue s t 0x25 v

/-- VRSQRT (R136). -/
def execVrsqrt (t : Nat) (v : VecSlot) (s : State) : Host.Outcome State Fault Refusal :=
  onIssue s t fun s => vecIssue s t 0x26 v

/-- VSQRT (R136). -/
def execVsqrt (t : Nat) (v : VecSlot) (s : State) : Host.Outcome State Fault Refusal :=
  onIssue s t fun s => vecIssue s t 0x27 v

/-- VTANH (R136). -/
def execVtanh (t : Nat) (v : VecSlot) (s : State) : Host.Outcome State Fault Refusal :=
  onIssue s t fun s => vecIssue s t 0x28 v

/-- VSIGM (R136). -/
def execVsigm (t : Nat) (v : VecSlot) (s : State) : Host.Outcome State Fault Refusal :=
  onIssue s t fun s => vecIssue s t 0x29 v

/-- VERF (R136). -/
def execVerf (t : Nat) (v : VecSlot) (s : State) : Host.Outcome State Fault Refusal :=
  onIssue s t fun s => vecIssue s t 0x2A v

/-- VSINPI (R136). -/
def execVsinpi (t : Nat) (v : VecSlot) (s : State) : Host.Outcome State Fault Refusal :=
  onIssue s t fun s => vecIssue s t 0x2B v

/-- VCOSPI (R136). -/
def execVcospi (t : Nat) (v : VecSlot) (s : State) : Host.Outcome State Fault Refusal :=
  onIssue s t fun s => vecIssue s t 0x2C v

/-- VRNGU (R137). -/
def execVrngu (t : Nat) (v : VecSlot) (s : State) : Host.Outcome State Fault Refusal :=
  onIssue s t fun s => vecIssue s t 0x30 v

/-- VRNGB (R137). -/
def execVrngb (t : Nat) (v : VecSlot) (s : State) : Host.Outcome State Fault Refusal :=
  onIssue s t fun s => vecIssue s t 0x31 v

/-- VRNGN (R137). -/
def execVrngn (t : Nat) (v : VecSlot) (s : State) : Host.Outcome State Fault Refusal :=
  onIssue s t fun s => vecIssue s t 0x32 v

/-- VRED (R138). -/
def execVred (t : Nat) (v : VecSlot) (s : State) : Host.Outcome State Fault Refusal :=
  onIssue s t fun s => vecIssue s t 0x38 v

/-- VSCAN (R141). -/
def execVscan (t : Nat) (v : VecSlot) (s : State) : Host.Outcome State Fault Refusal :=
  onIssue s t fun s => vecIssue s t 0x39 v

/-- VSEGRED (R142). -/
def execVsegred (t : Nat) (v : VecSlot) (s : State) : Host.Outcome State Fault Refusal :=
  onIssue s t fun s => vecIssue s t 0x3A v

/-- VSORT (R143). -/
def execVsort (t : Nat) (v : VecSlot) (s : State) : Host.Outcome State Fault Refusal :=
  onIssue s t fun s => vecIssue s t 0x3C v

/-- VMERGE (R143). -/
def execVmerge (t : Nat) (v : VecSlot) (s : State) : Host.Outcome State Fault Refusal :=
  onIssue s t fun s => vecIssue s t 0x3D v

/-- VQPOP (R130). -/
def execVqpop (t : Nat) (v : VecSlot) (s : State) : Host.Outcome State Fault Refusal :=
  onIssue s t fun s => vecIssue s t 0x40 v

/-- VWADD (R130). -/
def execVwadd (t : Nat) (v : VecSlot) (s : State) : Host.Outcome State Fault Refusal :=
  onIssue s t fun s => vecIssue s t 0x41 v

/-- VWCVT (R130). -/
def execVwcvt (t : Nat) (v : VecSlot) (s : State) : Host.Outcome State Fault Refusal :=
  onIssue s t fun s => vecIssue s t 0x42 v

/-- VLD (R135). -/
def execVld (t : Nat) (v : VecSlot) (s : State) : Host.Outcome State Fault Refusal :=
  onIssue s t fun s => vecIssue s t 0x48 v

/-- VST (R135). -/
def execVst (t : Nat) (v : VecSlot) (s : State) : Host.Outcome State Fault Refusal :=
  onIssue s t fun s => vecIssue s t 0x49 v

/-- VOCLD (R128). -/
def execVocld (t : Nat) (v : VecSlot) (s : State) : Host.Outcome State Fault Refusal :=
  onIssue s t fun s => vecIssue s t 0x4A v

/-- VOCST (R128). -/
def execVocst (t : Nat) (v : VecSlot) (s : State) : Host.Outcome State Fault Refusal :=
  onIssue s t fun s => vecIssue s t 0x4B v

/-- VEC_RESULT_WRITE (R131): the next result whose cycle has come is written. -/
def execVecResultWrite (t : Nat) (s : State) : Host.Outcome State Fault Refusal :=
  onRun s t fun s => vecResultWrite s t

end Sys2Proof.Machine
end

