-- ==== Sys2Proof/Machine/Bundle.lean ====
section
/-! DEFINITION. Bundle issue (R170 to R175, R190, R191): the fetch, the slots of a bundle, and what the
units of a tile do in the same cycle. -/

namespace Sys2Proof.Machine

/-! ### The bundle (R173, R176, R177) -/

/-- A bundle: eight little-endian words (R173). -/
abbrev Bundle := BitVec 256

/-- Bits `lo + w − 1` to `lo` of a bundle, as a number. -/
def bnd (b : Bundle) (lo w : Nat) : Nat := (b.toNat / 2 ^ lo) % 2 ^ w

/-- Whether a PRED or IND field holds one of its reserved values 1 to 3. -/
def resv3 (p : Nat) : Bool := decide (1 ≤ p) && decide (p ≤ 3)

/-- Whether a slot with predicate field `p` acts (R176). -/
def predicate (c : Ctl) (p : Nat) : Bool := p == 0 || (decide (4 ≤ p) && ctlQ c (p - 4))

/-- The fields of the vector slot (R182). -/
def vecSlotOf (b : Bundle) : VecSlot :=
  { view := b.extractLsb' 26 2, row := b.extractLsb' 28 5, count := b.extractLsb' 33 6,
    vd := b.extractLsb' 39 3, va := b.extractLsb' 42 3, vb := b.extractLsb' 45 3,
    vc := b.extractLsb' 48 3, bsrc := b.extractLsb' 51 2, orow := b.extractLsb' 53 8,
    rnd := b.extractLsb' 61 3, rstr := b.extractLsb' 64 3, mode := b.extractLsb' 68 44 }

/-- VOP of a bundle. -/
def bndVop (b : Bundle) : Nat := bnd b 16 7
/-- SOP of a bundle. -/
def bndSop (b : Bundle) : Nat := bnd b 112 3
/-- MOP of a bundle's message slot. -/
def bndMsg (b : Bundle) : Nat := bnd b 144 3
/-- OP of a bundle's Mule-interface slot. -/
def bndMif (b : Bundle) : Nat := bnd b 184 2
/-- COP of a bundle. -/
def bndCop (b : Bundle) : Nat := bnd b 192 4

/-- Whether a bundle is malformed (R175). PRED and IND fields are checked whatever the operation
(DEDUCED, log 20). (DEDUCED, log 14) -/
def bundleMalformed (b : Bundle) : Bool :=
  bnd b 240 16 != 0
    || decide (2 ≤ bnd b 0 2) || resv3 (bnd b 8 3) || resv3 (bnd b 11 3) || bnd b 14 2 != 0
    || resv3 (bnd b 23 3) || bnd b 67 1 != 0 || (bndVop b != 0 && vecMalformed (bndVop b) (vecSlotOf b))
    || decide (5 ≤ bndSop b) || resv3 (bnd b 115 3) || resv3 (bnd b 131 3) || bnd b 134 10 != 0
    || decide (4 ≤ bndMsg b) || resv3 (bnd b 147 3) || resv3 (bnd b 175 3)
    || (bndMsg b == 2 && bnd b 171 1 != 0)
    || bnd b 191 1 != 0 || decide (7 ≤ bndCop b) || bnd b 239 1 != 0

/-! ### Fetch (R190, R191) -/

/-- Fetch the bundle at the pc: empty once the program has ended, and where the word cannot be
corrected. -/
def fetchBundle (s : State) (t : Nat) : State × Bundle :=
  let c := (s.tile t).ctl
  if c.ended then (s, 0)
  else
    let b := mapGet 0 (s.tile t).imem c.pc.toNat
    match mapFind (s.tile t).imemErr c.pc.toNat with
    | none => (s, b)
    | some .single => ((s.incReg (TIL_IECC_CORR t)).raiseTile t .eccCorr 0, b)
    | some .double =>
      (((s.incReg (TIL_IECC_UNC t)).orReg (TIL_EVENT t) 2).raiseTile t .imemEcc 0, 0)

/-! ### The slots (R174) -/

/-- The matrix slot. -/
def matrixSlot (s : State) (t : Nat) (c : Ctl) (b : Bundle) : State :=
  if bnd b 0 2 = 1 ∧ predicate c (bnd b 8 3) then passStart s t (passIndex s t (bnd b 2 6) (bnd b 11 3))
  else s

/-- The vector slot: a new instruction, or the next row of the one in issue (R131). -/
def vectorSlot (s : State) (t : Nat) (c : Ctl) (b : Bundle) : State :=
  if bndVop b ≠ 0 ∧ predicate c (bnd b 23 3) then vecIssue s t (bndVop b) (vecSlotOf b)
  else vecRow s t

/-- The stream slot. -/
def streamSlot (s : State) (t : Nat) (c : Ctl) (b : Bundle) : State :=
  if bndSop b ≠ 0 ∧ predicate c (bnd b 115 3) then
    streamOp s t (bndSop b) (bnd b 118 2) (bnd b 120 5) (bnd b 125 5) (bnd b 131 3) (bnd b 130 1 == 1)
  else s

/-- The message slot. -/
def messageSlot (s : State) (t : Nat) (c : Ctl) (b : Bundle) : State :=
  if !predicate c (bnd b 147 3) then s
  else match bndMsg b with
    | 1 => msend s t (bnd b 150 5) (bnd b 155 17) (bnd b 174 1 == 1) (bnd b 175 3) (bnd b 178 6)
    | 2 => msig s t (bnd b 150 5) (bnd b 155 16) (bnd b 174 1 == 1)
    | 3 => mfence s t (bnd b 172 2)
    | _ => s

/-- The pc and the blocks after a bundle that neither jumps nor opens a block (R171, R179). -/
def advance (s : State) (t : Nat) : State :=
  let c := (s.tile t).ctl
  let ends := match c.reps with
    | r :: _ => r.last == c.pc.toNat
    | [] => false
  if ends then repIterationEnd s t else s.modCtl t fun c => { c with pc := c.pc + 1 }

/-- The control slot (R178). -/
def controlSlot (s : State) (t : Nat) (b : Bundle) : State :=
  let k := bnd b 196 2
  let q := bnd b 198 2
  let imm : BitVec 16 := BitVec.ofNat 16 (bnd b 202 16)
  let target : BitVec 11 := BitVec.ofNat 11 (bnd b 218 11)
  match bndCop b with
  | 1 => advance (kset s t k imm) t
  | 2 => rep s t k (bnd b 229 10)
  | 3 => jmp s t target
  | 4 => jq s t q target
  | 5 => advance (qcmp s t q k (bnd b 200 2) imm) t
  | 6 => endProgram s t
  | _ => advance s t

/-! ### What else a cycle does -/

/-- Apply an action as often as a fuel says. -/
def repeatS (n : Nat) (f : State → State) (s : State) : State :=
  match n with
  | 0 => s
  | n + 1 => repeatS n f (f s)

/-- Whether a message in flight is due at a tile by now. -/
def flightDue (s : State) (t : Nat) (f : Flight) : Bool :=
  f.msg.tile.toNat == t && f.msg.port != 1 && decide (f.due ≤ s.cycle t)

/-- Step 2 of R155 and what follows it: messages of the die whose delivery falls in this cycle, signals, the
check point's releases, landings, and answers (R269, R273, R274). -/
def arrivals (s : State) (t op : Nat) : State :=
  let due := s.flight.filter (flightDue s t)
  let late := fun (f : Flight) => f.msg.be && f.msg.port != 0
  let s := (due.filter fun f => !late f).foldl (fun s f => receiveFlight s f) s
  let s := (List.range 32).foldl (fun s n => applySigs s t n false) s
  let s := if op ≠ 0 then checkPoint s t else s
  let s := (s.dueLandings t).foldl (fun s l => landHeld s t l) s
  let s := (due.filter late).foldl (fun s f => receiveFlight s f) s
  let back := s.answers.filter fun a => sourceTile a.source == some t && decide (a.due ≤ s.cycle t)
  let s := back.foldl (fun (s : State) a =>
    messageAnswered { s with answers := s.answers.erase a } a.source a.code) s
  repeatS (s.tile t).held.length (fun s => fenceReleaseSend s t) s

/-- The events of the matrix unit, the results of the vector engine whose cycle is this one, and the signals of the
stream runs that have completed (R112, R131, R187). -/
def unitEvents (s : State) (t : Nat) : State :=
  let n := (s.tile t).passes.length + 1
  let s := repeatS n (fun s => passStep s t) s
  let s := repeatS n (fun s => checksumCompare s t) s
  let s := repeatS n (fun s => accumulate s t) s
  let s := repeatS n (fun s => bf16CombineStep s t) s
  let s := repeatS n (fun s => drain s t) s
  let s := landDue s t (s.cycle t)
  let s := (List.range 4).foldl (fun s ch => streamComplete s t ch) s
  dropPasses (fallLags s t) t

/-- The cycle passes: the pc of the last bundle stays (R199). -/
def endCycle (s : State) (t : Nat) (pc : BitVec 11) : State :=
  let last := decide (s.armedC ≤ s.cycle t + 1)
  s.modTile t fun x => { x with
    ctl := { x.ctl with cycle := x.ctl.cycle + 1, pc := if last then pc else x.ctl.pc }
    portUse := mapClear x.portUse fun k => decide (k / 32 + 64 < x.ctl.cycle) }

/-- Issue the bundle of a tile's current cycle (R170, R174, R175). (DEDUCED, log 29) -/
def bundleIssue (s : State) (t : Nat) : State :=
  let c := (s.tile t).ctl
  let (s, b0) := fetchBundle s t
  let bad := bundleMalformed b0
  let s := if bad then badBundle s t else s
  let b : Bundle := if bad then 0 else b0
  let s := cpSem s t (bndMif b) (bnd b 186 5)
  let s := arrivals s t (bndMif b)
  let s := messageSlot s t c b
  let s := streamSlot s t c b
  let s := (List.range 4).foldl (fun s ch => streamCycle s t ch) s
  let s := rowArrival s t
  let s := vectorSlot s t c b
  let s := matrixSlot s t c b
  let s := if c.ended then s else controlSlot s t b
  endCycle (unitEvents s t) t c.pc

/-- BUNDLE_ISSUE (R170). -/
def execBundleIssue (t : Nat) (s : State) : Host.Outcome State Fault Refusal :=
  onIssue s t fun s => bundleIssue s t

end Sys2Proof.Machine
end

