-- ==== Sys2Proof/Machine/Collectives.lean ====
section
/-! DEFINITION. The collectives engine (R332 to R346) and the shadow copies it keeps of gathered shards (R400
to R404). -/

namespace Sys2Proof.Machine

/-! ### Descriptor fields (R346) -/

/-- The committed words of descriptor `d`. -/
def State.colDesc (s : State) (d : Nat) : List (BitVec 32) := (List.range 16).map fun w => s.reg (COL_DESC d w)

def colW (w : List (BitVec 32)) (i : Nat) : BitVec 32 := w.getD i 0
def colOp (w : List (BitVec 32)) : Nat := fld (colW w 0) 0 3
def colRop (w : List (BitVec 32)) : Nat := fld (colW w 0) 3 2
def colDtype (w : List (BitVec 32)) : Fmt := (fmtOfCode (fld (colW w 0) 5 4)).getD .fp32
def colOfmt (w : List (BitVec 32)) : Fmt := (fmtOfCode (fld (colW w 0) 9 4)).getD .fp32
def colRnd (w : List (BitVec 32)) : Rnd := (rndOfCode (fld (colW w 0) 13 3)).getD .rne
def colTree (w : List (BitVec 32)) : Bool := bit (colW w 0) 16
def colCounted (w : List (BitVec 32)) : Bool := bit (colW w 0) 17
def colShortOk (w : List (BitVec 32)) : Bool := bit (colW w 0) 18
def colShadow (w : List (BitVec 32)) : Bool := bit (colW w 0) 19
def colProg (w : List (BitVec 32)) : Nat := fld (colW w 0) 20 6
def colEnable (w : List (BitVec 32)) : Bool := bit (colW w 0) 31
def colStart (w : List (BitVec 32)) : Nat := (colW w 1).toNat
def colBase (w : List (BitVec 32)) : Nat := fld (colW w 2) 0 13
def colSize (w : List (BitVec 32)) : Nat := fld (colW w 2) 16 13
def colStride (w : List (BitVec 32)) : Nat := fld (colW w 3) 0 12
def colRoot (w : List (BitVec 32)) : Nat := fld (colW w 3) 16 13
def colLen (w : List (BitVec 32)) : Nat := (colW w 4).toNat
def colSem (w : List (BitVec 32)) : Nat := fld (colW w 5) 0 16
def colSemEn (w : List (BitVec 32)) : Bool := bit (colW w 5) 16
def colAddr (w : List (BitVec 32)) (i : Nat) : Nat := (colW w i).toNat + 2 ^ 32 * (colW w (i + 1)).toNat
def colXferBase (w : List (BitVec 32)) : Nat := fld (colW w 14) 0 16
def colShd (w : List (BitVec 32)) : Nat := fld (colW w 15) 0 6

/-- The slice's region. -/
def colRegion (d : Nat) : Nat := 56 + d % 4

/-- The rank of member `i` (R333). -/
def colRank (w : List (BitVec 32)) (i : Nat) : Nat := colBase w + colStride w * i

/-- The group index of a rank (R333). -/
def colIndex (w : List (BitVec 32)) (rank : Nat) : Nat := (rank - colBase w) / max 1 (colStride w)

/-- Elements c of a full chunk (R333). -/
def colChunk (w : List (BitVec 32)) : Nat := (colLen w + colSize w - 1) / max 1 (colSize w)

/-- Elements of chunk `j` (R333). -/
def colChunkLen (w : List (BitVec 32)) (j : Nat) : Nat :=
  min ((j + 1) * colChunk w) (colLen w) - min (j * colChunk w) (colLen w)

/-- Bytes of an element of a format. -/
def colBytes (f : Fmt) : Nat := fmtBits f / 8

/-- The format of what the descriptor writes: all-gather and broadcast move bytes unchanged (R335). -/
def colOutFmt (w : List (BitVec 32)) : Fmt := if colOp w ≤ 2 then colOfmt w else colDtype w

/-! ### Combining one element (R335 to R337, R339) -/

/-- An element of a contribution: its bits and its poison cause. -/
structure ColElem where
  bits : Nat
  cause : Cause
deriving DecidableEq, Repr

/-- Element `k` of a contribution in a format. -/
def colElem (f : Fmt) (p : ColPart) (k : Nat) : ColElem :=
  let b := colBytes f
  ⟨leNat ((p.bytes.drop (k * b)).take b), causeJoinAll ((p.causes.drop (k * b)).take b)⟩

/-- An element as a wide word: a wide word with the cause of its line, or an integer with W = 0 and
TERMS = 1. -/
def colWide (f : Fmt) (e : ColElem) : Wide :=
  match f with
  | .wide => let x := wideOfBits (BitVec.ofNat 128 e.bits); { x with cause := causeJoin x.cause e.cause }
  | _ => ⟨(BitVec.ofNat 32 e.bits).signExtend 96, 0, 1, e.cause⟩

/-- An exact quotient by a whole number, close enough for every rounding of R88: its lowest bit is set where
anything was cut off. -/
def valDivNat (v : FVal) (n : Nat) : FVal :=
  match v with
  | .fin neg m e =>
    let l := 64 + n.log2
    let q := m * 2 ^ l / max 1 n
    let r := m * 2 ^ l % max 1 n
    .fin neg (2 * q + (if r = 0 then 0 else 1)) (e - l - 1)
  | v => v

/-- The exact sum of wide words, and the causes it newly sets (R79, R82). -/
def colWideSum (xs : List Wide) : Wide × List Cause :=
  match xs with
  | [] => (wideClear 0, [])
  | x :: rest => rest.foldl (fun acc y =>
    let (z, cs) := wideAdd acc.1 y
    (z, acc.2 ++ cs)) (x, [])

/-- The narrow result of a wide sum: poisoned where the sum is, divided by the total under MEAN. -/
def colWideResult (w : List (BitVec 32)) (total : Nat) (x : Wide) : ColElem × List Cause :=
  let (y, c) := drainCheck x
  let newly := if c = .none then [] else [c]
  if y.cause ≠ .none then (⟨poisonBits .fp32, y.cause⟩, newly)
  else if colRop w = 3 then
    (⟨if total = 0 then 0 else elemBits .fp32 (colRnd w) 0 (valDivNat (wideVal y) total), .none⟩, newly)
  else (⟨elemBits .fp32 (colRnd w) 0 (wideVal y), .none⟩, newly)

/-- The combined FP32 value of FP32 or BF16 contributions (R336): `none` is a missing leaf. -/
def colFloat (rop : Nat) (tree : Bool) (leaves arrived : List (Option Elem)) : Elem :=
  let op := ropElem (if rop = 3 then 0 else rop) 0
  let pad : Elem := ⟨ropIdentity (if rop = 3 then 0 else rop) 0, .none⟩
  match leaves with
  | [x] => x.getD pad
  | _ =>
    if tree then reduceTree op pad (leaves.map fun x => x.getD pad)
    else arrived.foldl (fun acc x => op acc (x.getD pad)) pad

/-- A BF16 or FP32 element as an FP32 element. -/
def colFp32 (f : Fmt) (e : ColElem) : Elem :=
  ⟨BitVec.ofNat 32 (if f = .bf16 then e.bits * 65536 else e.bits), e.cause⟩

/-- The result of an FP32 or BF16 combination: divided by the total under MEAN, poisoned where it is. -/
def colFloatResult (w : List (BitVec 32)) (total : Nat) (x : Elem) : ColElem :=
  let f := colDtype w
  let q : BitVec 32 := if colRop w ≠ 3 then x.bits
    else if total = 0 then 0
    else fp32Bits .rne (valDivNat (fp32Val x.bits) total)
  if x.cause ≠ .none then ⟨poisonBits f, x.cause⟩
  else if f = .bf16 then ⟨floatBits bf16F .rne 0 (fp32Val q), .none⟩
  else ⟨q.toNat, .none⟩

/-- Element `k` of a chunk combined from the contributions of a group of `n` (R335 to R337): the result and the
causes it newly sets. (DEDUCED, log 57) -/
def colCombine (w : List (BitVec 32)) (strict : Bool) (n total : Nat) (parts : List ColPart) (k : Nat) :
    ColElem × List Cause :=
  let f := colDtype w
  match f with
  | .wide =>
    let (x, cs) := colWideSum (parts.map fun p => colWide f (colElem f p k))
    if colOfmt w = .wide then (⟨(wideBits x).toNat, .none⟩, cs)
    else
      let (e, cs') := colWideResult w total x
      (e, cs ++ cs')
  | .int32 =>
    let es := parts.map fun p => colElem f p k
    let bad := causeJoinAll (es.map fun e => e.cause)
    if colRop w = 0 then
      let (x, cs) := colWideSum (es.map (colWide f))
      (if x.cause ≠ .none then ⟨poisonBits .int32, x.cause⟩
        else ⟨intBits 32 .rne 0 (wideVal x), .none⟩, cs)
    else
      let v := (es.map fun e => BitVec.ofNat 32 e.bits).foldl (ropBits (colRop w) 1)
        (ropIdentity (colRop w) 1)
      (if bad ≠ .none then ⟨poisonBits .int32, bad⟩ else ⟨v.toNat, .none⟩, [])
  | _ =>
    let tree := colTree w || (strict && (colRop w == 0 || colRop w == 3))
    let one := fun (p : ColPart) => colFp32 f (colElem f p k)
    let leaves := (List.range n).map fun i => (parts.find? fun p => p.member == i).map one
    (colFloatResult w total (colFloat (colRop w) tree leaves (parts.map fun p => some (one p))), [])

/-! ### Local memory and sends -/

/-- Read local bytes at a descriptor's address; bytes that cannot be read are free. -/
def colRead (s : State) (a n : Nat) : State × List (BitVec 8) × List Cause :=
  match s.localRead [] a n with
  | (s, st, bs, cs) =>
    if st = stDone then (s, bs, cs)
    else
      let (v, s) := s.free
      (s, leBytes n v, List.replicate n .none)

/-- Write local bytes at a descriptor's address. -/
def colWrite (s : State) (a : Nat) (bs : List (BitVec 8)) (cs : List Cause) : State := (s.localWrite [] a bs cs).1

/-- The poison cause of each 64-byte line of a packet's data (R300). -/
def dataMarks (cs : List Cause) (n : Nat) : List Cause :=
  (List.range ((n + 63) / 64)).map fun i => causeJoinAll ((cs.drop (64 * i)).take 64)

/-- The cause of each byte of a packet's data. -/
def marksBytes (marks : List Cause) (n : Nat) : List Cause :=
  (List.range n).map fun i => marks.getD (i / 64) .none

/-- Change a running descriptor. -/
def State.modColl (s : State) (d : Nat) (f : ColRun → ColRun) : State :=
  { s with colls := s.colls.map fun e => if e.1 = d then (e.1, f e.2) else e }

/-- Send data to member `i` in step `step` (R334): one transfer of the slot's route entries. (DEDUCED, log 116) -/
def colSend (s : State) (d : Nat) (r : ColRun) (step i : Nat) (bs : List (BitVec 8)) (cs : List Cause) : State :=
  let w := r.words
  let x := colXferBase w + Config.collectiveXfer (colOp w) (colSize w) step r.me i
  let p := requestPacket 5 (colRank w i) x 0 0 bs.length false false bs (dataMarks cs bs.length)
  match s.issue (.coll d) p with
  | (s, some _, _) => s.orReg COL_EVENT 2
  | (s, none, _) => s.modColl d fun r => { r with sends := x :: r.sends }

/-- Send the same data to every other member. -/
def colSendAll (s : State) (d : Nat) (r : ColRun) (step : Nat) (bs : List (BitVec 8)) (cs : List Cause) : State :=
  ((List.range (colSize r.words)).filter fun i => i != r.me).foldl (fun s i => colSend s d r step i bs cs) s

/-- The count word of a contribution or of a combined chunk, where the descriptor counts (R337). -/
def countBytes (w : List (BitVec 32)) (n : Nat) : List (BitVec 8) := if colCounted w then leBytes 8 n else []

/-- Raise the causes that a combination newly sets, each once for a run (R339). -/
def colRaise (s : State) (d : Nat) (cs : List Cause) : State :=
  cs.foldl (fun s c =>
    match mapFind s.colls d with
    | none => s
    | some r =>
      if c = .none ∨ r.raised.contains c then s
      else ((s.modColl d fun r => { r with raised := c :: r.raised }).orReg COL_EVENT 4).raiseRegion
        (colRegion d) (causeKind c) (causeCode c)) s

/-! ### The shadow copy (R400 to R404) -/

/-- The offset in space 2 of area `x` of shadow descriptor `n`. -/
def State.shdArea (s : State) (n x : Nat) : Nat :=
  (s.reg (COL_SHD n (1 + 2 * x))).toNat + 2 ^ 32 * fld (s.reg (COL_SHD n (2 + 2 * x))) 0 15

/-- SRC_IDX of a shadow descriptor. -/
def State.shdIndex (s : State) (n : Nat) : Nat := fld (s.reg (COL_SHD n 0)) 0 13

/-- Bytes of the chunk a shadow record keeps (R401). -/
def shdLen (w : List (BitVec 32)) : Nat := colChunk w * colBytes (colDtype w)

/-- The header of a shadow record (R402). -/
def shdHeader (state : Nat) (poison : Bool) (tick len rank d n digest : Nat) : List (BitVec 8) :=
  leBytes 4 0x48535A4E ++ leBytes 2 1 ++ leBytes 1 state ++ leBytes 1 poison.toNat ++ leBytes 8 tick
    ++ leBytes 8 len ++ leBytes 2 rank ++ leBytes 1 d ++ leBytes 1 n ++ leBytes 4 0 ++ leBytes 16 digest
    ++ leBytes 16 0

/-- Write the header of the area that a run fills. -/
def shdWriteHeader (s : State) (d : Nat) (r : ColRun) (x state : Nat) (poison : Bool) (digest : Nat) : State :=
  let n := colShd r.words
  let h := shdHeader state poison (s.reg64 FRM_TICK_LO).toNat
    (colChunkLen r.words (s.shdIndex n) * colBytes (colDtype r.words))
    (colRank r.words (s.shdIndex n)) d n digest
  s.spaceWrite 2 (s.shdArea n x) h []

/-- The start of a shadow record (R404 steps 1 and 2): the area, and its header. (DEDUCED, log 59) -/
def shdBegin (s : State) (d : Nat) (r : ColRun) : State :=
  if !colShadow r.words then s
  else
    let n := colShd r.words
    let st := s.reg (COL_SHD_STATE n)
    let x := if bit st 1 then 1 - fld st 0 1 else 0
    let s := shdWriteHeader s d r x 1 false 0
    let s := s.setReg (COL_SHD_STATE n) (setFld st 2 1 1)
    s.modColl d fun r => { r with shadow := some x }

/-- Add to the sum of line hashes of a shadow record (R403). -/
def shdDigest (lines : List (List (BitVec 8) × Cause)) : Nat :=
  ((lines.zip (List.range lines.length)).foldl (fun (acc : BitVec 128) e =>
    acc + lineHash e.2 e.1.1 (if e.1.2 = .none then 0 else 0xF)) 0).toNat

/-- The lines of a chunk, the last filled with zero bytes (R402). -/
def shdLines (bs : List (BitVec 8)) (cs : List Cause) : List (List (BitVec 8) × Cause) :=
  (List.range ((bs.length + 63) / 64)).map fun i =>
    let b := (bs.drop (64 * i)).take 64
    (b ++ List.replicate (64 - b.length) 0, causeJoinAll ((cs.drop (64 * i)).take 64))

/-- The chunk of a shadow record has arrived (R404 steps 3 to 5). The bits of the poison pattern are not
given, so the digest of a record with a poisoned line is free. -/
def shdComplete (s : State) (d : Nat) (r : ColRun) (x : Nat) (bs : List (BitVec 8)) (cs : List Cause) : State :=
  let n := colShd r.words
  let lines := shdLines bs cs
  let poison := lines.any fun l => l.2 != .none
  let s := (lines.zip (List.range lines.length)).foldl (fun s e =>
    s.spaceWrite 2 (s.shdArea n x + 64 + 64 * e.2) e.1.1 (List.replicate 64 e.1.2)) s
  let (digest, s) := if poison then s.free else (shdDigest lines, s)
  let s := shdWriteHeader s d r x 2 poison digest
  let s := s.setReg (COL_SHD_STATE n) (BitVec.ofNat 32 (x + 2))
  let s := if poison then (s.orReg COL_SHD_EVENT 2).setReg COL_SHD_LAST (BitVec.ofNat 32 (n + 2 ^ 31)) else s
  s.modColl d fun r => { r with shadow := none }

/-- A shadow record ends INCOMPLETE (R343, R404). -/
def shdIncomplete (s : State) (d : Nat) (r : ColRun) : State :=
  match r.shadow with
  | none => s
  | some x =>
    let n := colShd r.words
    let s := shdWriteHeader s d r x 3 false 0
    let s := s.setReg (COL_SHD_STATE n) (setFld (s.reg (COL_SHD_STATE n)) 2 1 0)
    let s := (s.orReg COL_SHD_EVENT 1).setReg COL_SHD_LAST (BitVec.ofNat 32 (n + 2 ^ 31))
    s.modColl d fun r => { r with shadow := none }

/-! ### The run -/

/-- Write chunk `j`, or a broadcast vector, that has arrived or been combined, at DST; a chunk that a shadow
keeps goes to its area too. -/
def colPlace (s : State) (d : Nat) (r : ColRun) (j total : Nat) (bs : List (BitVec 8)) (cs : List Cause) : State :=
  let w := r.words
  let at' := if colOp w = 2 ∨ colOp w = 4 then 0 else j * colChunk w * colBytes (colOutFmt w)
  let s := colWrite s (colAddr w 8 + at') bs cs
  let s := match r.shadow with
    | some x => if colShadow w ∧ j = s.shdIndex (colShd w) then shdComplete s d r x bs cs else s
    | none => s
  s.modColl d fun r => { r with got := r.got ++ [(j, total)] }

/-- The total of the own chunk (R337): the count words received, or the contributions. -/
def colTotal (r : ColRun) : Nat :=
  if colCounted r.words then r.parts.foldl (fun n p => (n + p.count) % 2 ^ 64) 0 else r.parts.length

/-- An element of a chunk that the two datapaths combined differently (R389): poison of cause ECC, in the word itself
where the result is wide. -/
def colSpoil (w : List (BitVec 32)) (e : ColElem) : ColElem :=
  if colOutFmt w = .wide then
    let x := wideOfBits (BitVec.ofNat 128 e.bits)
    ⟨(wideBits { x with cause := .ecc }).toNat, .none⟩
  else ⟨e.bits, .ecc⟩

/-- Combine and write the own chunk once every contribution has arrived or is missing, and start the gather
(R334, R336); `differs` says that the two datapaths of the slice did not agree (R389). -/
def colReduce (s : State) (d : Nat) (differs : Bool) : State :=
  match mapFind s.colls d with
  | none => s
  | some r =>
    let w := r.words
    if 2 < colOp w ∨ r.combined ∨ r.parts.length + r.missing.length < colSize w then s
    else
      let total := colTotal r
      let out := (List.range (colChunkLen w r.me)).map fun k =>
        let e := colCombine w s.strict (colSize w) total r.parts k
        if differs then (colSpoil w e.1, e.2) else e
      let b := colBytes (colOutFmt w)
      let bs := out.flatMap fun e => leBytes b e.1.bits
      let cs := out.flatMap fun e => List.replicate b e.1.cause
      let s := s.modColl d fun r => { r with combined := true }
      let s := colRaise s d (out.flatMap fun e => e.2)
      let s := if differs then s.raiseRegion (colRegion d) .colLockstep 0 else s
      let s := colPlace s d r r.me total bs cs
      if colOp w = 1 then colSendAll s d r 2 (bs ++ countBytes w total) cs else s

/-- The own count word (R337). (DEDUCED, log 58) -/
def colOwnCount (s : State) (w : List (BitVec 32)) : State × Nat :=
  if colCounted w then
    match colRead s (colAddr w 10) 8 with
    | (s, bs, _) => (s, leNat bs)
  else (s, 1)

/-- Start the first step of ALL_REDUCE or REDUCE_SCATTER. -/
def colStartReduce (s : State) (d : Nat) (r : ColRun) : State :=
  let w := r.words
  let b := colBytes (colDtype w)
  let (s, count) := colOwnCount s w
  let s := (List.range (colSize w)).foldl (fun s j =>
    match colRead s (colAddr w 6 + j * colChunk w * b) (colChunkLen w j * b) with
    | (s, bs, cs) =>
      if j = r.me then s.modColl d fun r => { r with parts := r.parts ++ [⟨j, count, bs, cs⟩] }
      else colSend s d r 1 j (bs ++ countBytes w count) cs) s
  colReduce s d false

/-- Start ALL_GATHER. -/
def colStartGather (s : State) (d : Nat) (r : ColRun) : State :=
  let w := r.words
  match colRead s (colAddr w 6) (colChunkLen w r.me * colBytes (colDtype w)) with
  | (s, bs, cs) =>
    let s := colPlace (shdBegin s d r) d r r.me 0 bs cs
    colSendAll s d r 2 bs cs

/-- Start BROADCAST: only ROOT reads and sends. -/
def colStartBroadcast (s : State) (d : Nat) (r : ColRun) : State :=
  let w := r.words
  if r.me ≠ colRoot w then s
  else match colRead s (colAddr w 6) (colLen w * colBytes (colDtype w)) with
    | (s, bs, cs) => colSendAll (colPlace s d r r.me 0 bs cs) d r 2 bs cs

/-- Whether descriptor `d` may start in cycle `cyc` (R332, R343). -/
def State.colReady (s : State) (d cyc : Nat) : Bool :=
  let w := s.colDesc d
  colEnable w && s.frame.released && !s.frame.stopped && s.frame.safe.isNone && s.frame.armed == some (colProg w)
    && bit (s.reg (FRM_PROG_CFG (colProg w))) 17 && colStart w == cyc && !s.colStarted.contains d
    && (List.range d).all fun e =>
      !(e % 4 == d % 4 && colEnable (s.colDesc e) && colProg (s.colDesc e) == colProg w
        && colStart (s.colDesc e) == cyc) || s.colStarted.contains e

/-- COLLECTIVE_START (R332, R341): a descriptor of no elements moves nothing. -/
def collectiveStart (s : State) (d cyc : Nat) : State :=
  if !s.colReady d cyc then s
  else
    let w := s.colDesc d
    let r : ColRun := ⟨w, colIndex w s.ownRank, [], [], false, [], [], [], [], none⟩
    let s := State.noteWork { s with colls := mapPut s.colls d r, colStarted := s.colStarted ++ [d] } (colRegion d) cyc
    if colLen w = 0 then
      s.modColl d fun r => { r with combined := true, got := (List.range (colSize w)).map fun j => (j, 0) }
    else if colOp w ≤ 2 then colStartReduce s d r
    else if colOp w = 3 then colStartGather s d r
    else colStartBroadcast s d r

/-- COL_CONTRIBUTION (R336, R338): a whole chunk from member `i`, with its count word. -/
def colContribution (s : State) (c : ColStep) (count : Nat) (bs : List (BitVec 8)) (marks : List Cause)
    (differs : Bool) : State :=
  match mapFind s.colls c.desc with
  | none => s
  | some r =>
    let cs := marksBytes marks bs.length
    if c.step = 1 then
      if 2 < colOp r.words ∨ r.missing.contains c.member ∨ (r.parts.any fun p => p.member == c.member)
          ∨ colSize r.words ≤ c.member then s
      else colReduce (s.modColl c.desc fun r => { r with parts := r.parts ++ [⟨c.member, count, bs, cs⟩] }) c.desc differs
    else if r.lost.contains c.member ∨ (r.got.any fun g => g.1 == c.member) ∨ colOp r.words = 2
        ∨ colSize r.words ≤ c.member ∨ c.member = r.me
        ∨ (colOp r.words = 4 ∧ c.member ≠ colRoot r.words) then s
    else colPlace s c.desc r c.member count bs cs

/-- A transfer to this member has timed out (R338): a missing contribution, or a chunk that never comes.
`region` is the region of its link. -/
def colMissing (s : State) (c : ColStep) (region xfer : Nat) : State :=
  match mapFind s.colls c.desc with
  | none => (s.fabTimeout region xfer).orReg COL_EVENT 2
  | some r =>
    let s := s.orReg COL_EVENT 2
    if c.step = 1 then
      let short := colCounted r.words && colShortOk r.words
      let s := if short then
          let s := (s.orReg COL_EVENT 1).incReg COL_SHORT_COUNT
          let s := s.setReg COL_SHORT_LAST (BitVec.ofNat 32 (c.desc + c.member * 2 ^ 16 + 2 ^ 31))
          s.raiseRegion (colRegion c.desc) .colShort c.member
        else s.fabTimeout region xfer
      colReduce (s.modColl c.desc fun r => { r with missing := c.member :: r.missing }) c.desc false
    else
      let s := s.fabTimeout region xfer
      let s := if colShadow r.words ∧ c.member = s.shdIndex (colShd r.words) then shdIncomplete s c.desc r else s
      s.modColl c.desc fun r => { r with lost := c.member :: r.lost }

/-- The answer to a send, or its timeout (R340). -/
def colAnswer (s : State) (d xfer st : Nat) : State :=
  let s := if st = stDone then s else s.orReg COL_EVENT 2
  s.modColl d fun r => { r with sends := r.sends.filter fun x => x != xfer }

/-- Whether every local write of a run is done and every send is answered (R340). -/
def colDone (r : ColRun) : Bool :=
  let n := colSize r.words
  let all := (List.range n).all fun j => (r.got.any fun g => g.1 == j) || r.lost.contains j
  r.sends.isEmpty && (match colOp r.words with
    | 1 => r.combined && all
    | 2 => r.combined
    | 3 => all
    | _ => (r.got.any fun g => g.1 == colRoot r.words) || r.lost.contains (colRoot r.words))

/-- COLLECTIVE_COMPLETE (R337, R340): CNT_OUT is written and SEM signalled. -/
def collectiveComplete (s : State) (d : Nat) : State :=
  match mapFind s.colls d with
  | none => s
  | some r =>
    if !colDone r then s
    else
      let w := r.words
      let total := match r.got with
        | [] => 0
        | g :: rest => rest.foldl (fun n x => min n x.2) g.2
      let s := if colCounted w ∧ colOp w ≤ 2 then colWrite s (colAddr w 12) (leBytes 8 total) [] else s
      let s := State.incReg { s with colls := mapDel s.colls d } COL_DONE_COUNT
      if colSemEn w then signalTarget s (colSem w) 1 else s

/-- The frame overruns or the safe state is entered (R343): runs are drained; sends not yet issued are not
sent. -/
def colAbort (s : State) : State :=
  let s := s.colls.foldl (fun s e => shdIncomplete s e.1 e.2) s
  let coll := fun (e : NetEntry) => match e.source with
    | .coll _ => true
    | _ => false
  { s with colls := [], entries := s.entries.filter fun e => !(coll e && !e.sent) }

/-- COL_STATUS (R346). -/
def colStatus (s : State) : Nat :=
  (List.range 4).foldl (fun n k => n + (if s.colls.any fun e => e.1 % 4 == k then 2 ^ k else 0)) 0

/-! ### Commands -/

/-- COLLECTIVE_START (R332): descriptor `d` in cycle `cyc`. -/
def execCollectiveStart (d : Fin 64) (cyc : Nat) (s : State) : Host.Outcome State Fault Refusal :=
  .next (collectiveStart s d cyc)

/-- COL_CONTRIBUTION (R336); `differs` is a lockstep mismatch of the combine it completes (R389). -/
def execColContribution (c : ColStep) (count : BitVec 64) (bs : List (BitVec 8)) (marks : List Cause) (differs : Bool)
    (s : State) : Host.Outcome State Fault Refusal :=
  .next (colContribution s c count.toNat bs marks differs)

/-- COLLECTIVE_COMPLETE (R340). -/
def execCollectiveComplete (d : Fin 64) (s : State) : Host.Outcome State Fault Refusal :=
  .next (collectiveComplete s d)

end Sys2Proof.Machine
end

