-- ==== Sys2Proof/Machine/Sequence.lean ====
section
/-! DEFINITION. The frame sequence table and its walk (R49 to R51), weight pairs (R412 to R416) and the shadow
restore (R407 to R409). -/

namespace Sys2Proof.Machine

/-! ### The sequence table (R50, R67) -/

def seqProg (e : BitVec 32) : Nat := fld e 0 6
def seqRepeat (e : BitVec 32) : Nat := fld e 8 8
def seqNext (e : BitVec 32) : Nat := fld e 16 8
def seqIdle (e : BitVec 32) : Bool := bit e 24
def seqStop (e : BitVec 32) : Bool := bit e 25

/-- The first `fuel` entries that a walk from `e` meets; it ends after a STOP entry that takes a tick. (DEDUCED, log 38) -/
def seqPath (rd : Nat → BitVec 32) (fuel e : Nat) : List Nat :=
  match fuel with
  | 0 => []
  | n + 1 =>
    let w := rd e
    e :: (if seqRepeat w ≠ 0 ∧ seqStop w then [] else seqPath rd n (seqNext w))

/-- Whether a walk from `e` meets 256 empty entries in a row: a walk of 512 entries that ends in them. -/
def seqEmpty (rd : Nat → BitVec 32) (e : Nat) : Bool :=
  let p := seqPath rd 512 e
  p.length == 512 && (p.drop 256).all fun n => seqRepeat (rd n) == 0

/-- The entries that a walk reaches and that take a tick and name a program (R51). -/
def seqReached (rd : Nat → BitVec 32) (e : Nat) : List Nat :=
  ((seqPath rd 512 e).take 256).filter fun n => seqRepeat (rd n) != 0 && !seqIdle (rd n)

/-- The program slots in use under a table and a start (R49). -/
def slotsOf (rd : Nat → BitVec 32) (e : Nat) : List Nat := ((seqReached rd e).map fun n => seqProg (rd n)).eraseDups

/-- The program slots in use. -/
def State.slotsInUse (s : State) : List Nat :=
  slotsOf (fun n => s.reg (FRM_SEQ n)) (fld (s.reg FRM_SEQ_START) 0 8)

/-- The first entry at or after `e` that takes a tick, among `fuel`. -/
def seqSkip (s : State) (fuel e : Nat) : Option Nat :=
  match fuel with
  | 0 => none
  | n + 1 => if seqRepeat (s.reg (FRM_SEQ e)) ≠ 0 then some e else seqSkip s n (seqNext (s.reg (FRM_SEQ e)))

/-- What the walk gives for a tick. -/
structure SeqStep where
  /-- the program slot to arm -/
  prog : Option Nat
  /-- the walk has just moved to a new entry -/
  moved : Bool
deriving DecidableEq, Repr

/-- The walk moves to the first entry from `e` on that takes a tick. -/
def seqEnter (s : State) (e : Nat) : State × SeqStep :=
  match seqSkip s 256 e with
  | none => (s, ⟨none, false⟩)
  | some e =>
    let w := s.reg (FRM_SEQ e)
    (s.setReg FRM_SEQ_POS (BitVec.ofNat 32 (e + seqRepeat w * 2 ^ 8)),
      ⟨if seqIdle w then none else some (seqProg w), true⟩)

/-- One tick of the walk (R50), while RUN is set. -/
def seqWalk (s : State) : State × SeqStep :=
  let pos := s.reg FRM_SEQ_POS
  let e := fld pos 0 8
  let left := fld pos 8 8
  let w := s.reg (FRM_SEQ e)
  if !s.frame.walking then
    seqEnter { s with frame := { s.frame with walking := true } } (fld (s.reg FRM_SEQ_START) 0 8)
  else if 1 < left then
    (s.setReg FRM_SEQ_POS (BitVec.ofNat 32 (e + (left - 1) * 2 ^ 8)),
      ⟨if seqIdle w then none else some (seqProg w), false⟩)
  else if seqStop w then
    let s := s.setReg FRM_CTRL (setFld (s.reg FRM_CTRL) 0 1 0)
    ({ s with frame := { s.frame with walking := false } }, ⟨none, false⟩)
  else seqEnter s (seqNext w)

/-! ### Weight pairs (R412 to R416) -/

/-- What a weight pair keeps. -/
def State.wpair (s : State) (j : Nat) : WPair := mapGet ⟨0, none⟩ s.wpairs j

/-- Change a weight pair. -/
def State.modWpair (s : State) (j : Nat) (f : WPair → WPair) : State :=
  { s with wpairs := mapSet ⟨0, none⟩ s.wpairs j (f (s.wpair j)) }

/-- The copy of pair `j` that the current batch has latched: true for B. -/
def State.pairCur (s : State) (j : Nat) : Bool := bit (s.reg (FRM_WPAIR_STATUS j)) 0

/-- Whether a copy of a pair is in use (R416): by the current batch, or by a run or an engine copy of a batch that
latched it. (DEDUCED, log 64) -/
def State.copyInUse (s : State) (j : Nat) (b : Bool) : Bool :=
  let latched := fun (m : SMap Bool) => mapGet false m j == b
  s.pairSize j != 0 &&
    (s.pairCur j == b
      || (s.tiles.any fun t => t.2.chans.any fun c => match c.2.run with
          | some r => r.ended.isNone && latched r.copies
          | none => false)
      || s.agp.any fun e => e.2.copies.any fun c => latched c.copies)

/-- A batch starts (R413, R414). -/
def batchStart (s : State) : State :=
  let n := (s.reg64 FRM_WBATCH_COUNT_LO).toNat + 1
  let s := s.setReg64 FRM_WBATCH_COUNT_LO (BitVec.ofNat 64 n)
  (List.range 4).foldl (fun s j =>
    let st := s.reg (FRM_WPAIR_STATUS j)
    if s.pairSize j ≠ 0 ∧ fld st 8 2 = 1 ∧ (s.wpair j).fromBatch ≤ n then
      let old := bit st 0
      let new := bit st 1
      let s := s.setReg (FRM_WPAIR_STATUS j) (setFld (setFld st 8 2 3) 0 1 new.toNat)
      if old = new then s else s.modWpair j fun w => { w with old := some old }
    else s) s

/-- Whether program slot `p` starts batches (R413). -/
def State.startsBatch (s : State) (p : Nat) : Bool :=
  bit (s.reg (if p < 32 then FRM_WBATCH_LO else FRM_WBATCH_HI)) (p % 32)

/-- A write of FRM_WPAIR_SWITCH_j (R415). -/
def pairSwitch (s : State) (j : Nat) (v : BitVec 32) : State :=
  if !bit v 31 then s
  else
    let n := (s.reg64 (FRM_WPAIR_FROM_LO j)).toNat
    let st := s.reg (FRM_WPAIR_STATUS j)
    if n ≤ (s.reg64 FRM_WBATCH_COUNT_LO).toNat then
      (s.setReg (FRM_WPAIR_STATUS j) (setFld st 8 2 2)).orReg FRM_WEVENT (BitVec.ofNat 32 (2 ^ (8 + j)))
    else
      (s.setReg (FRM_WPAIR_STATUS j) (setFld (setFld st 8 2 1) 1 1 (fld v 0 1))).modWpair j fun w =>
        { w with fromBatch := n }

/-- COPY_RELEASED (R416): the copy that pair `j` switched away from is no longer in use. -/
def copyReleased (s : State) (j : Nat) : State :=
  match (s.wpair j).old with
  | none => s
  | some b =>
    if s.copyInUse j b then s
    else
      let s := (s.modWpair j fun w => { w with old := none }).orReg FRM_WEVENT (BitVec.ofNat 32 (2 ^ j))
      { s with frame := { s.frame with released4 := s.frame.released4 ||| BitVec.ofNat 4 (2 ^ j) } }

/-- FRM_WPAIR_STATUS_j as it reads (R421). -/
def pairStatus (s : State) (j : Nat) : BitVec 32 :=
  s.reg (FRM_WPAIR_STATUS j) ||| bitAt (s.copyInUse j false) 4 ||| bitAt (s.copyInUse j true) 5

/-! ### The shadow restore (R407 to R409) -/

/-- The state fields of the jobs of the device management core. -/
def State.loadState (s : State) : Nat := fld (s.reg DMC_LOAD_STATUS) 8 3
def State.ctxState (s : State) : Nat := fld (s.reg DMC_CTX_STATUS) 8 3
def State.shrState (s : State) : Nat := fld (s.reg DMC_SHR_STATUS) 8 3

/-- DMC_SHR_CTRL.START (R407). -/
def shrStart (s : State) (sel : Nat) : State :=
  let refuse := fun (code : Nat) => s.setReg DMC_SHR_STATUS (setFld (s.reg DMC_SHR_STATUS) 0 8 code)
  let src := fun (lo : Nat) =>
    let a := (s.reg64 lo).toNat
    s.rankLocal (addrRank a) || addrSpace a != 2 || a % 64 != 0
  let dst := (s.reg64 DMC_SHR_DST_LO).toNat
  if s.shrState ≠ 0 ∨ s.ctxState ≠ 0 ∨ s.loadState ≠ 0 then refuse 2
  else if sel = 3 ∨ s.ownRank = selfRank ∨ src DMC_SHR_SRC0_LO ∨ src DMC_SHR_SRC1_LO
      ∨ !s.rankLocal (addrRank dst) ∨ 3 ≤ addrSpace dst ∨ dst % 64 ≠ 0 ∨ s.reg DMC_SHR_MAXLEN = 0 then refuse 3
  else { s.setReg DMC_SHR_STATUS 0x100 with shr := some sel }

/-- The first offset at which a header's format fails (R408 check 2). -/
def shrFormat (h : List (BitVec 8)) : Option Nat :=
  let b := fun (i : Nat) => (h.getD i 0).toNat
  let bad : List (Nat × Bool) :=
    [(0x00, leNat (h.take 4) != 0x48535A4E), (0x04, b 4 + 256 * b 5 != 1),
     (0x06, b 6 == 0 || decide (3 < b 6)), (0x07, decide (2 ≤ b 7)),
     (0x1C, leNat ((h.drop 0x1C).take 4) != 0), (0x30, leNat ((h.drop 0x30).take 16) != 0)]
  (bad.find? fun p => p.2).map fun p => p.1

/-- The end of a shadow restore: its code, DETAIL and area. -/
def shrEnd (s : State) (code detail area : Nat) : State :=
  let s := s.setReg DMC_SHR_STATUS (BitVec.ofNat 32 (code + area * 2 ^ 12))
  { s.setReg DMC_SHR_DETAIL (BitVec.ofNat 32 detail) with shr := none }

/-- The data of a shadow restore: the lines of the record of area `x`, as read in turn (R408 checks 6 to 8,
R409). -/
def shrData (s : State) (x len tick digest : Nat) (poison : Bool) (lines : List ShrLine) : State :=
  let dst := addrOff (s.reg64 DMC_SHR_DST_LO).toNat
  let sp := addrSpace (s.reg64 DMC_SHR_DST_LO).toNat
  let n := (len + 63) / 64
  let line := fun (i : Nat) => lines.getD i ⟨false, [], false⟩
  let put := fun (s : State) (i : Nat) => s.spaceWrite sp (dst + 64 * i) (((line i).bytes.take 64).take (len - 64 * i)) []
  let mark := fun (s : State) (k : Nat) => (List.range k).foldl (fun s i =>
    let m := min 64 (len - 64 * i)
    match s.spaceRead sp (dst + 64 * i) m with
    | (s, bs, _) => s.spaceWrite sp (dst + 64 * i) bs (List.replicate m .ecc)) s
  match (List.range n).find? fun i => !(line i).ok with
  | some i => shrEnd (mark ((List.range i).foldl put s) i) 4 (x * 2 ^ 31 + i) x
  | none =>
    let s := (List.range n).foldl put s
    match (List.range n).find? fun i => (line i).poison with
    | some i => shrEnd (mark s n) 9 i x
    | none =>
      if poison then shrEnd (mark s n) 9 0 x
      else if shdDigest ((List.range n).map fun i => ((line i).bytes, .none)) ≠ digest then
        shrEnd (mark s n) 10 0 x
      else (shrEnd s 1 0 x).setReg64 DMC_SHR_TICK_LO (BitVec.ofNat 64 tick)

/-- SHADOW_RESTORE_END (R408): what the reads of the headers and of the data lines brought decides how the
restore ends. (DEDUCED, log 63) -/
def shrRun (s : State) (h0 h1 : ShrLine) (lines : List ShrLine) : State :=
  match s.shr with
  | none => s
  | some sel =>
    let areas : List (Nat × ShrLine) :=
      if sel = 0 then [(0, h0), (1, h1)] else if sel = 1 then [(0, h0)] else [(1, h1)]
    let state := fun (h : ShrLine) => (h.bytes.getD 6 0).toNat
    let tick := fun (h : ShrLine) => leNat ((h.bytes.drop 8).take 8)
    match areas.find? fun a => !a.2.ok with
    | some a => shrEnd s 4 (a.1 * 2 ^ 31) 0
    | none =>
      match areas.find? fun a => (shrFormat a.2.bytes).isSome with
      | some a => shrEnd s 5 (a.1 * 2 ^ 31 + (shrFormat a.2.bytes).getD 0) 0
      | none =>
        let rank := fun (h : ShrLine) => leNat ((h.bytes.drop 0x18).take 2)
        match areas.find? fun a => rank a.2 != s.ownRank with
        | some a => shrEnd s 6 (rank a.2) 0
        | none =>
          let done := areas.filter fun a => state a.2 == 2
          let pick := match done with
            | [a, b] => some (if tick a.2 < tick b.2 then b else a)
            | [a] => some a
            | _ => none
          match pick with
          | none => shrEnd s 7 ((areas.getLast?.map fun a => state a.2).getD 0) 0
          | some (x, h) =>
            let len := leNat ((h.bytes.drop 0x10).take 8)
            let dst := (s.reg64 DMC_SHR_DST_LO).toNat
            if (s.reg DMC_SHR_MAXLEN).toNat < len ∨ s.spaceEnd (addrSpace dst) < addrOff dst + len then
              shrEnd s 8 (len % 2 ^ 32) x
            else shrData s x len (tick h) (leNat ((h.bytes.drop 0x20).take 16)) (h.bytes.getD 7 0 != 0) lines

/-- A reset during a shadow restore ends it (R409). -/
def shrAbort (s : State) : State := if s.shr.isSome then shrEnd s 11 0 0 else s

/-! ### Commands -/

/-- FRM_WPAIR_SWITCH (R415): the value written to the register of pair `j`. -/
def execFrmWpairSwitch (j : Fin 4) (v : BitVec 32) (s : State) : Host.Outcome State Fault Refusal :=
  .next (pairSwitch s j v)

/-- COPY_RELEASED (R416). -/
def execCopyReleased (j : Fin 4) (s : State) : Host.Outcome State Fault Refusal := .next (copyReleased s j)

/-- SHR_START (R407). -/
def execShrStart (sel : BitVec 2) (s : State) : Host.Outcome State Fault Refusal := .next (shrStart s sel.toNat)

/-- SHADOW_RESTORE_END (R408). -/
def execShadowRestoreEnd (h0 h1 : ShrLine) (lines : List ShrLine) (s : State) :
    Host.Outcome State Fault Refusal :=
  .next (shrRun s h0 h1 lines)

end Sys2Proof.Machine
end

