-- ==== Sys2Proof/Machine/TileRegs.lean ====
section
/-! DEFINITION. The register window of a tile (R33 to R38, R122, R145, R167, R190, R198, R260, R261, R286,
R398): what its registers read, what a write does, and the statuses of an access. -/

namespace Sys2Proof.Machine

/-! ### Reading and writing by access code (R14, R15, R34) -/

/-- A number for each master. -/
def masterKey : Master → Nat
  | .dmc => 0
  | .sideBand => 1
  | .host p => 2 + p
  | .mule t => 4 + t

/-- The effects of a read whose register shows `v` (R14, R34): an RC register returns to its reset value, a
_LO register latches its _HI half, whose value is `hi`, and the _HI register after it answers what was
latched for the master. -/
def regReadEffect (s : State) (m : Master) (off : Nat) (g : RegGroup) (v hi : BitVec 32) : State × BitVec 32 :=
  let key := masterKey m * 2 ^ 32 + off
  if g.lo then ({ s with hiLatch := mapPut s.hiLatch (key + 4) hi }, v)
  else match mapFind s.hiLatch key with
    | some h => ({ s with hiLatch := mapDel s.hiLatch key }, h)
    | none => if g.access = .rc then (s.setReg off g.reset, v) else (s, v)

/-- What a register without a typed home shows: an SH register its shadow, a WO register 0 (R14). -/
def plainView (s : State) (off : Nat) (g : RegGroup) : BitVec 32 :=
  match g.access with
  | .wo => 0
  | .sh => s.shReg off
  | _ => s.reg off

/-- A write by access code alone (R14, R15). -/
def plainWrite (s : State) (off : Nat) (g : RegGroup) (v : BitVec 32) : State :=
  match g.access with
  | .rw => s.setReg off ((s.reg off &&& ~~~ g.mask) ||| (v &&& g.mask))
  | .w1c => s.setReg off (s.reg off &&& ~~~ (v &&& g.mask))
  | .sh => { s with shadow := mapPut s.shadow off v }
  | _ => s

/-! ### What a tile's registers read -/

/-- The code of a format (R70). -/
def fmtCode (f : Fmt) : Nat := ((List.range 11).find? fun n => fmtOfCode n == some f).getD 0

/-- MXA_STATUS (R123). -/
def mxaStatus (s : State) (t a : Nat) : Nat :=
  let m := s.array t a
  (if m.overflowed then 7 else min 4 (maxLag m)) + (match m.block with
    | some b => 8 + 16 * fmtCode b.fmt
    | none => 0)

/-- MXA_ACC_j_w (R122). -/
def mxaAcc (s : State) (t a j w : Nat) : BitVec 32 :=
  let m := s.array t a
  if m.lastBf16 then (if w = 0 then mapGet 0 m.combined j else 0)
  else (wideBits (accOf m j)).extractLsb' (32 * w) 32

/-- MXA_UNIT (R123). -/
def mxaUnit (s : State) (t : Nat) : Nat :=
  let x := s.tile t
  x.unitDesc + (match (x.passes.filter fun p => decide (p.nextStep < passSteps p)).getLast? with
    | some p => 256 + 512 * (p.nextStep % 32)
    | none => 0)

/-- VEC_STATUS (R146). -/
def vecStatus (s : State) (t : Nat) : Nat :=
  let v := s.vec t
  let wide := fun (i : Nat) => match v.queue[i]? with
    | some (.wide _) => 2 ^ (4 + i)
    | _ => 0
  v.queue.length + wide 0 + wide 1 + wide 2 + wide 3 + (match v.run with
    | some r => 256 + 512 * ((r.slot.count.toNat - r.row) % 32)
    | none => 0)

/-- The code of a Mule's state (R168). -/
def muleStateCode : MuleState → Nat
  | .halted => 0 | .running => 1 | .waiting => 2 | .handler => 3 | .fault => 4

/-- STR_STATUS of a channel (R261). -/
def strStatus (s : State) (t c : Nat) : Nat :=
  let ch := s.chan t c
  match ch.run with
  | some r =>
    (if descMode r.words = 1 then 2 else 1) + 4 * r.desc + 256 * ((runCount r - r.done) % 2 ^ 24)
  | none => 4 * ch.lastDesc

/-- SPD_STATUS (R260). -/
def spdStatus (s : State) (t : Nat) : Nat :=
  let x := s.tile t
  let n := (List.range 16).foldl (fun m b => max m (x.writeBacks.filter fun w => (w / 8) % 16 == b).length) 0
  (if x.scrubBusy then 1 else 0) + 16 * n

/-- VEC_RNG_CUR: the position of a stream; a BOUND stream's follows from its channel's cursor (R101). -/
def rngCur (s : State) (t k : Nat) : BitVec 64 :=
  let cfg := s.reg (VEC_RNG_CFG t k)
  if fld cfg 4 2 = 1 then
    s.reg64 (VEC_RNG_POS_LO t k) + (s.chan t (fld cfg 6 2)).cur * BitVec.ofNat 64 (fld cfg 8 8)
  else (s.rngOf t k).cur

/-- The value a register of the TIL, MXA, VEC, MUL, SPD, STR, MSG or SYN window shows that has a typed home;
none for the others. `o` is the offset in the tile's window. -/
def tileTyped (s : State) (t o : Nat) : Option (BitVec 32) :=
  let x := s.tile t
  let n := fun (v : Nat) => some (BitVec.ofNat 32 v)
  let lo := fun (v : BitVec 64) => some (v.setWidth 32 : BitVec 32)
  let hi := fun (v : BitVec 64) => some ((v >>> 32).setWidth 32 : BitVec 32)
  if 0x20000 ≤ o ∧ o < 0x30000 then
    some ((mapGet 0 x.imem ((o - 0x20000) / 32)).extractLsb' (32 * (o / 4 % 8)) 32)
  else if 0x10000 ≤ o ∧ o < 0x14000 then some (mapGet 0 x.mule.imem ((o - 0x10000) / 4))
  else if 0x14000 ≤ o ∧ o < 0x16000 then
    n (leNat ((List.range 4).map fun i => mapGet 0 x.mule.dmem (o - 0x14000 + i)))
  else if 0x1000 ≤ o ∧ o < 0x5000 then
    let a := o / 0x1000 - 1
    let p := o % 0x1000
    if p = 0 then n (mxaStatus s t a)
    else if p = 0x10 ∧ a = 0 then n (mxaUnit s t)
    else if 0x100 ≤ p ∧ p < 0x300 then some (mxaAcc s t a ((p - 0x100) / 16) (p / 4 % 4))
    else if 0x300 ≤ p ∧ p < 0x310 then
      some (((s.array t a).chk.setWidth 128).extractLsb' (32 * (p / 4 % 4)) 32)
    else none
  else if 0x5100 ≤ o ∧ o < 0x5200 then some (mapGet elemReset x.vec.carry ((o - 0x5100) / 4)).bits
  else if 0x5900 ≤ o ∧ o < 0x5A00 ∧ o % 32 = 0x10 then lo (rngCur s t ((o - 0x5900) / 32))
  else if 0x5900 ≤ o ∧ o < 0x5A00 ∧ o % 32 = 0x14 then hi (rngCur s t ((o - 0x5900) / 32))
  else if 0x8000 ≤ o ∧ o < 0x8010 then n (strStatus s t ((o - 0x8000) / 4))
  else if 0x8020 ≤ o ∧ o < 0x8040 then
    if o % 8 = 0 then lo (s.chan t ((o - 0x8020) / 8)).cur else hi (s.chan t ((o - 0x8020) / 8)).cur
  else if 0xA080 ≤ o ∧ o < 0xA090 then n (s.fence t ((o - 0xA080) / 4))
  else match o with
    | 0x0 => n s.part.stepping
    | 0x8 => n x.ctl.pc.toNat
    | 0xC => n (if s.armedC = 0 then x.ctl.cycle else min x.ctl.cycle (s.armedC - 1))
    | 0x10 => n ((ctlK x.ctl 0).toNat + 2 ^ 16 * (ctlK x.ctl 1).toNat)
    | 0x14 => n ((ctlK x.ctl 2).toNat + 2 ^ 16 * (ctlK x.ctl 3).toNat)
    | 0x18 => n ((List.range 4).foldl (fun v i => v + (if ctlQ x.ctl i then 2 ^ i else 0)
        + (if ctlActive x.ctl i then 2 ^ (4 + i) else 0)) 0 + (if x.ctl.ended then 256 else 0))
    | 0x5000 => n (vecStatus s t)
    | 0x6004 => n (muleStateCode x.mule.state + 16 * x.mule.fcode + 256 * x.mule.inbox.length)
    | 0x600C => n (x.mule.pc.toNat % 2 ^ 16)
    | 0x6010 => n (x.mule.faultPc.toNat % 2 ^ 17)
    | 0x7000 => n (spdStatus s t)
    | 0x9004 => n (x.outstanding.length + (if x.mule.sendDest.isSome then 256 else 0))
    | _ => none

/-- What a read of a tile's register shows. -/
def tileView (s : State) (t o : Nat) (g : RegGroup) : BitVec 32 :=
  (tileTyped s t o).getD (plainView s (tileBase t + o) g)

/-! ### The Mule's controls (R168) -/

/-- Change the Mule of a tile. -/
def State.modMule (s : State) (t : Nat) (f : Mule → Mule) : State :=
  s.modTile t fun x => { x with mule := f x.mule }

/-- Whether a Mule can be started: HALTED or FAULT, on a powered tile. -/
def muleStopped (x : Tile) : Bool := (x.mule.state == .halted || x.mule.state == .fault) && !x.gated

/-- MUL_CTRL.START (R168): from HALTED or FAULT, run from MUL_BOOT. (DESIGN CHOICE, log 32) -/
def muleStart (s : State) (t : Nat) : State :=
  if muleStopped (s.tile t) then
    s.modMule t fun m => { m with
      pc := BitVec.ofNat 32 (fld (s.reg (MUL_BOOT t)) 0 12 * 4)
      state := .running
      fcode := 0
      haltedByHalt := false
      inHandler := false
      stopAsked := false }
  else s

/-- MUL_CTRL.STOP (R168): halt at the next instruction boundary. A WAIT is abandoned with its pc unchanged, as
R166 has it; a SEND completes first. -/
def muleStop (s : State) (t : Nat) : State :=
  s.modMule t fun m =>
    if m.state = .halted ∨ m.state = .fault then m
    else if m.sendDest.isSome then { m with stopAsked := true }
    else { m with state := .halted, haltedByHalt := false, waitSem := none }

/-- MUL_CTRL.RESUME (R168): from HALTED or FAULT, run from MUL_PC. -/
def muleResume (s : State) (t : Nat) : State :=
  if muleStopped (s.tile t) then
    s.modMule t fun m => { m with
      state := if m.inHandler then .handler else .running
      fcode := 0
      haltedByHalt := false
      stopAsked := false }
  else s

/-- A write of MUL_CTRL: its command bits act in ascending order (DESIGN CHOICE, log 21). -/
def muleControl (s : State) (t : Nat) (g : RegGroup) (v : BitVec 32) : State :=
  let s := plainWrite s (MUL_CTRL t) g v
  let s := if bit v 0 then muleStart s t else s
  let s := if bit v 1 then muleStop s t else s
  if bit v 2 then muleResume s t else s

/-- A write to Mule instruction memory: applied while the Mule is HALTED or FAULT, else ACCESS_DENIED
(R167). -/
def muleImemWrite (s : State) (t word : Nat) (v : BitVec 32) : State × Nat :=
  if (s.tile t).mule.state = .halted ∨ (s.tile t).mule.state = .fault then
    (s.modMule t fun m => { m with imem := mapSet 0 m.imem word v, imemErr := mapDel m.imemErr word }, stDone)
  else (s, stAccessDenied)

/-- Write bytes of Mule data memory; a word that is written whole is stored afresh. -/
def muleDmemWrite (s : State) (t off : Nat) (bs : List (BitVec 8)) : State :=
  s.modMule t fun m => { m with
    dmem := ((List.range bs.length).zip bs).foldl (fun d e => mapSet 0 d (off + e.1) e.2) m.dmem
    dmemErr := if bs.length = 4 then mapDel m.dmemErr (off / 4) else m.dmemErr }

/-! ### Instruction memory (R190) -/

/-- A write to words 0 to 6 of a bundle goes to the master's staging register. -/
def imemStage (s : State) (t : Nat) (m : Master) (word : Nat) (v : BitVec 32) : State :=
  s.modTile t fun x => { x with staging := mapSet 0 x.staging (8 * masterKey m + word) v }

/-- A write to word 7 writes the whole bundle; the staging register reads 0 again. -/
def imemBundle (s : State) (t : Nat) (m : Master) (b : Nat) (v : BitVec 32) : State :=
  s.modTile t fun x =>
    let w := fun (i : Nat) => (mapGet 0 x.staging (8 * masterKey m + i)).toNat * 2 ^ (32 * i)
    let all := (List.range 7).foldl (fun n i => n + w i) (v.toNat * 2 ^ 224)
    { x with
      imem := mapSet 0 x.imem b (BitVec.ofNat 256 all)
      imemErr := mapDel x.imemErr b
      staging := mapClear x.staging fun k => k / 8 == masterKey m }

/-- A write at byte `o` of TIL_IMEM. -/
def imemWrite (s : State) (t : Nat) (m : Master) (o : Nat) (v : BitVec 32) : State :=
  if o / 4 % 8 = 7 then imemBundle s t m (o / 32) v else imemStage s t m (o / 4 % 8) v

/-! ### The scratchpad scrub and the landing ports -/

/-- SPD_SCRUB.START (R237): start or restart zeroing the slice. -/
def scrubStart (s : State) (t : Nat) : State :=
  if (s.tile t).gated then s
  else s.modTile t fun x => { x with
    scrubBusy := true
    scrub := (List.range 16).map fun b => (b, 0) }

/-- Close the landing ports that a mask names (R275). -/
def landClose (s : State) (t mask : Nat) : State :=
  s.modTile t fun x => { x with
    landOpen := (List.range 4).foldl (fun m q => if (mask / 2 ^ q) % 2 = 1 then mapSet false m q false else m)
      x.landOpen }

/-! ### Accesses -/

/-- Whether an offset of a tile's window lies in a window that power gating takes away (R37). -/
def gatedWindow (o : Nat) : Bool :=
  (decide (0x1000 ≤ o) && decide (o < 0x7000)) || (decide (0x8000 ≤ o) && decide (o < 0x9000))
    || (decide (0x10000 ≤ o) && decide (o < 0x16000)) || (decide (0x30000 ≤ o) && decide (o < 0x31000))

/-- The status of an access to a tile's window whose offset is assigned (R37). -/
def tileStatus (s : State) (t o : Nat) : Nat :=
  if (s.tile t).inReset ∨ ((s.tile t).gated ∧ gatedWindow o) then stTargetOff else stDone

/-- Read the register at offset `o` of a tile's window: state, status and value. -/
def tileRead (s : State) (m : Master) (t o : Nat) : State × Nat × BitVec 32 :=
  match regGroupOf (tileBase t + o) with
  | none => (s, stAddrInvalid, 0)
  | some g =>
    let st := tileStatus s t o
    if st ≠ stDone then (s, st, 0)
    else
      let hi := match regGroupOf (tileBase t + o + 4) with
        | some h => tileView s t (o + 4) h
        | none => 0
      let (s, v) := regReadEffect s m (tileBase t + o) g (tileView s t o g) hi
      (s, stDone, v)

/-- Write the register at offset `o` of a tile's window: state and status. (DEDUCED, log 113) -/
def tileWrite (s : State) (m : Master) (t o : Nat) (v : BitVec 32) : State × Nat :=
  match regGroupOf (tileBase t + o) with
  | none => (s, stAddrInvalid)
  | some g =>
    let st := tileStatus s t o
    if st ≠ stDone then
      -- a signal to a tile in tile-row reset is dropped and counted (R272)
      (if (s.tile t).inReset ∧ o = 0xA090 then s.incReg MSG_SIG_DROP else s, st)
    else if 0x20000 ≤ o ∧ o < 0x30000 then (imemWrite s t m (o - 0x20000) v, stDone)
    else if 0x10000 ≤ o ∧ o < 0x14000 then muleImemWrite s t ((o - 0x10000) / 4) v
    else if 0x14000 ≤ o ∧ o < 0x16000 then
      (muleDmemWrite s t (o - 0x14000) (leBytes 4 v.toNat), stDone)
    else match o with
      | 0x6000 => (muleControl s t g v, stDone)
      | 0x7004 => (if bit v 0 then scrubStart s t else s, stDone)
      | 0x9040 => (landClose s t (fld v 0 4), stDone)
      | 0xA090 => (s.modTile t fun x => { x with
          sigs := x.sigs ++ [⟨fld v 0 5, fld v 16 16, some x.ctl.cycle⟩] }, stDone)
      | _ => (plainWrite s (tileBase t + o) g v, stDone)

end Sys2Proof.Machine
end

