-- ==== Sys2Proof/Machine/Nif.lean ====
section
/-! DEFINITION. The NIF container (R214 to R221) and the checks of an image load (R224 to R226). -/

namespace Sys2Proof.Machine

/-! ### Reading fields -/

/-- The little-endian field of `n` bytes at an offset of an image. -/
def nifField (bs : List (BitVec 8)) (o n : Nat) : Nat := leNat ((bs.drop o).take n)

/-- The first of several results that is there. -/
def firstSome {α : Type} (xs : List (Option α)) : Option α := (xs.find? fun x => x.isSome).join

/-- A failed check, where its condition holds: code and detail (R224). -/
def failIf (bad : Bool) (code detail : Nat) : Option (Nat × Nat) := if bad then some (code, detail) else none

/-- The result codes of a load (R231). -/
def loadDone : Nat := 0x01
def loadBusy : Nat := 0x02
def loadRequest : Nat := 0x03
def loadMemory : Nat := 0x04
def loadFormat : Nat := 0x05
def loadDigest : Nat := 0x06
def loadNoNative : Nat := 0x07
def loadTiles : Nat := 0x08
def loadLatency : Nat := 0x09
def loadStacks : Nat := 0x0A
def loadDdr : Nat := 0x0B
def loadRanks : Nat := 0x0C
def loadProgram : Nat := 0x0D
def loadBundle : Nat := 0x0E
def loadConfig : Nat := 0x0F
def loadRoutes : Nat := 0x10
def loadSlotBusy : Nat := 0x11
def loadMuleBusy : Nat := 0x12
def loadCommit : Nat := 0x13
def loadAborted : Nat := 0x14

/-! ### The header and the section table (R214 to R216) -/

/-- Check 1: the header. -/
def nifHeader (bs : List (BitVec 8)) (len : Nat) : Option (Nat × Nat) :=
  let f := nifField bs
  let strict := f 0x05 1 == 0
  firstSome
    [failIf (f 0 4 != 0x46495A4E) loadFormat 0x00, failIf (f 4 1 != 1) loadFormat 0x04,
     failIf (f 6 2 != 0x100) loadFormat 0x06, failIf (f 8 8 != len || decide (len < 0x140)) loadFormat 0x08,
     failIf (strict && decide (4 ≤ f 0x44 1)) loadFormat 0x44, failIf (strict && f 0x4A 6 != 0) loadFormat 0x4A,
     failIf (strict && f 0x6C 148 != 0) loadFormat 0x6C]

/-- The digest of an image (R216). -/
def nifDigest (bs : List (BitVec 8)) : List (BitVec 8) := sha384 (bs.take 0x10 ++ bs.drop 0x40)

/-- A section: type, length and first byte. -/
structure NifSection where
  type : Nat
  len : Nat
  off : Nat
deriving DecidableEq, Repr

/-- The section table. -/
def nifSections (bs : List (BitVec 8)) : List NifSection :=
  (List.range (nifField bs 0x45 1)).map fun e =>
    ⟨nifField bs (0x100 + 16 * e) 2, nifField bs (0x104 + 16 * e) 4, nifField bs (0x108 + 16 * e) 8⟩

/-- The section table's faults (R215). -/
def nifTable (bs : List (BitVec 8)) (len : Nat) : Option (Nat × Nat) :=
  let n := nifField bs 0x45 1
  let secs := nifSections bs
  let entry := fun (e : Nat) =>
    let o := 0x100 + 16 * e
    let x := secs.getD e ⟨0, 0, 0⟩
    firstSome
      [failIf (x.type == 0 || decide (7 < x.type) || (secs.take e).any fun y => y.type == x.type) loadFormat o,
       failIf (nifField bs (o + 2) 2 != 0) loadFormat (o + 2),
       failIf (x.off % 64 != 0 || decide (len < x.off + x.len) || decide (x.off < 0x100 + 16 * n)
         || ((secs.take e).any fun y => runsOverlap x.off x.len y.off y.len)) loadFormat (o + 8)]
  firstSome (failIf (n == 0 || decide (16 < n) || decide (len < 0x100 + 16 * n)) loadFormat 0x45
    :: (List.range n).map entry)

/-! ### Section contents (R217 to R221) -/

/-- A section with COUNT, four reserved bytes, and entries of `size` bytes that fill it. -/
def nifCounted (bs : List (BitVec 8)) (x : NifSection) (most size : Nat) : Option (Nat × Nat) :=
  let n := nifField bs x.off 4
  firstSome [failIf (decide (x.len < 8) || decide (most < n) || x.len != 8 + size * n) loadFormat x.off,
    failIf (nifField bs (x.off + 4) 4 != 0) loadFormat (x.off + 4)]

/-- Entry `i` of PROGRAMS. -/
def nifProg (bs : List (BitVec 8)) (x : NifSection) (i : Nat) : NifProg :=
  let o := x.off + 8 + 272 * i
  let f := fun (d n : Nat) => nifField bs (o + d) n
  ⟨f 0 1, f 1 1, f 2 2, f 4 4, f 8 4, f 0xC 2, f 0xE 2, f 0x10 128, f 0x90 128⟩

/-- The blocks of BUNDLES from a byte on: blocks with the offset of each, or the offset of a fault. -/
def nifBlocks (bs : List (BitVec 8)) (last fuel o : Nat) : Except Nat (List NifBlock) :=
  match fuel with
  | 0 => .ok []
  | k + 1 =>
    if last ≤ o then .ok []
    else if last < o + 8 then .error o
    else
      let n := nifField bs (o + 4) 2
      if last < o + 8 + 32 * n then .error (o + 4)
      else if nifField bs (o + 6) 2 ≠ 0 then .error (o + 6)
      else match nifBlocks bs last k (o + 8 + 32 * n) with
        | .error e => .error e
        | .ok rest => .ok (⟨nifField bs o 2, nifField bs (o + 2) 2,
            (List.range n).map fun i => BitVec.ofNat 256 (nifField bs (o + 8 + 32 * i) 32)⟩ :: rest)

/-- The blocks of MULE from a byte on. -/
def nifMules (bs : List (BitVec 8)) (last fuel o : Nat) : Except Nat (List NifMule) :=
  match fuel with
  | 0 => .ok []
  | k + 1 =>
    if last ≤ o then .ok []
    else if last < o + 8 then .error o
    else
      let boot := nifField bs (o + 2) 2
      let iw := nifField bs (o + 4) 2
      let db := nifField bs (o + 6) 2
      let used := 8 + 4 * iw + db
      let whole := (used + 7) / 8 * 8
      if 4096 ≤ boot then .error (o + 2)
      else if 4096 < iw then .error (o + 4)
      else if 8192 < db ∨ db % 4 ≠ 0 then .error (o + 6)
      else if last < o + whole then .error (o + 4)
      else if nifField bs (o + used) (whole - used) ≠ 0 then .error (o + used)
      else match nifMules bs last k (o + whole) with
        | .error e => .error e
        | .ok rest => .ok (⟨nifField bs o 2, boot,
            (List.range iw).map fun i => BitVec.ofNat 32 (nifField bs (o + 8 + 4 * i) 4),
            (bs.drop (o + 8 + 4 * iw)).take db⟩ :: rest)

/-- An entry of ROUTES (R221). A reserved FLAGS bit makes it read as the reserved ROLE, which check 14 refuses
as R225 does those of PROGRAMS. -/
def nifRoute (bs : List (BitVec 8)) (x : NifSection) (i : Nat) : Route :=
  let o := x.off + 8 + 16 * i
  let f := fun (d n : Nat) => nifField bs (o + d) n
  { xfer := f 0 2, prog := f 2 1, role := if 8 ≤ f 3 1 then 3 else f 3 1 % 4, twin := f 3 1 / 4 % 2 == 1, dest := f 4 2, inLink := f 6 1,
    outLink := f 7 1, due := f 8 4, lslot := f 0xC 2 }

/-- The reserved field of an entry of ROUTES. (DEDUCED, log 56) -/
def nifRouteReserved (bs : List (BitVec 8)) (x : NifSection) (i : Nat) : Option (Nat × Nat) :=
  let o := x.off + 8 + 16 * i
  failIf (nifField bs (o + 0xE) 2 != 0) loadFormat (o + 0xE)

/-- The faults of a section's contents. -/
def nifContent (bs : List (BitVec 8)) (x : NifSection) : Option (Nat × Nat) :=
  match x.type with
  | 1 => nifCounted bs x 64 272
  | 2 => match nifBlocks bs (x.off + x.len) x.len x.off with
    | .error o => some (loadFormat, o)
    | .ok _ => none
  | 3 => match nifMules bs (x.off + x.len) x.len x.off with
    | .error o => some (loadFormat, o)
    | .ok _ => none
  | 4 => nifCounted bs x (2 ^ 32) 8
  | 5 => firstSome (nifCounted bs x 32768 16
      :: (List.range (nifField bs x.off 4)).map fun i => nifRouteReserved bs x i)
  | _ => none

/-- The section of a type. -/
def nifSection (bs : List (BitVec 8)) (ty : Nat) : Option NifSection := (nifSections bs).find? fun x => x.type == ty

/-- The value of a part of an image, where its section is present and parses. -/
def nifPart {α : Type} (bs : List (BitVec 8)) (ty : Nat) (f : NifSection → List α) : List α :=
  match nifSection bs ty with
  | some x => f x
  | none => []

/-- The contents of an image whose header and sections have passed. -/
def nifRead (bs : List (BitVec 8)) : Nif :=
  let f := nifField bs
  { digest := (bs.drop 0x10).take 48, tiles := f 0x40 2, latency := f 0x42 1, stackCount := f 0x43 1,
    ddrUse := f 0x44 1, ddrBytes := f 0x50 8, ranks := f 0x46 2, rank := f 0x48 2,
    progs := nifPart bs 1 fun x => (List.range (nifField bs x.off 4)).map (nifProg bs x),
    blocks := nifPart bs 2 fun x => (nifBlocks bs (x.off + x.len) x.len x.off).toOption.getD [],
    mules := nifPart bs 3 fun x => (nifMules bs (x.off + x.len) x.len x.off).toOption.getD [],
    config := nifPart bs 4 fun x => (List.range (nifField bs x.off 4)).map fun i =>
      (nifField bs (x.off + 8 + 8 * i) 4, BitVec.ofNat 32 (nifField bs (x.off + 12 + 8 * i) 4)),
    routes := nifPart bs 5 fun x => (List.range (nifField bs x.off 4)).map (nifRoute bs x),
    native := (nifSection bs 1).isSome && (nifSection bs 2).isSome }

/-! ### Checks 6 to 16 (R224 to R226) -/

/-- Bit `t` of a mask. -/
def maskHas (m t : Nat) : Bool := m / 2 ^ t % 2 == 1

/-- The value of TIL_LATPIN that a latency table requires on this module; none where it is refused (R226). -/
def State.latPin (s : State) (id : Nat) : Option Nat :=
  if id = s.part.stepping then some 0
  else if id = 1 ∧ s.part.stepping = 2 then some 0x3FFFF
  else none

/-- FIRST, COUNT and LATID of a slot (R231). -/
def State.slotFirst (s : State) (p : Nat) : Nat := fld (s.reg (DMC_SLOT p)) 0 11
def State.slotCount (s : State) (p : Nat) : Nat := fld (s.reg (DMC_SLOT p)) 12 12
def State.slotLat (s : State) (p : Nat) : Nat := fld (s.reg (DMC_SLOT p)) 24 8

/-- Check 7. -/
def nifLatency (s : State) (n : Nif) : Option (Nat × Nat) :=
  match s.latPin n.latency with
  | none => some (loadLatency, n.latency)
  | some v =>
    let clash := fun (t : Nat) => (n.progs.any fun p => maskHas p.used t) && s.slotsInUse.any fun p =>
      s.maskBit (FRM_USED p 0) t && (match s.latPin (s.slotLat p) with
        | some v' => v != v'
        | none => false)
    ((List.range s.tileCount).find? clash).map fun t => (loadLatency, 0x100 + t)

/-- Whether an entry of PROGRAMS is invalid (R225). -/
def progBad (s : State) (n : Nif) (i : Nat) (p : NifProg) : Bool :=
  decide (63 < p.slot) || ((n.progs.take i).any fun q => q.slot == p.slot)
    || decide (p.ffloor < 1600) || decide (2800 < p.ffloor)
    || decide (p.r < (40 * p.ffloor + 999) / 1000) || decide (2048 < p.entry + p.len)
    || (p.len == 0 && decide (0 < p.c)) || p.active / 2 ^ s.tileCount != 0
    || (p.used &&& p.active) != p.used || decide (4 ≤ p.flags)

/-- Check 12 on a block, given the blocks before it: the first bundle up to which the block does not lie
within a program range on a tile of its USED, that is malformed, or that is written twice. -/
def blockBad (s : State) (n : Nif) (b : NifBlock) (before : List NifBlock) : Option (Nat × Nat) :=
  let bad := fun (e : Bundle × Nat) =>
    decide (s.tileCount ≤ b.tile)
      || !(n.progs.any fun p => decide (p.entry ≤ b.first)
        && decide (b.first + e.2 < p.entry + p.len) && maskHas p.used b.tile)
      || bundleMalformed e.1
      || before.any fun q => q.tile == b.tile && decide (q.first ≤ b.first + e.2)
        && decide (b.first + e.2 < q.first + q.bundles.length)
  ((b.bundles.zip (List.range b.bundles.length)).find? bad).map fun e =>
    (loadBundle, b.tile * 2048 + b.first + e.2)

/-- Whether an engine register may stand in CONFIG (R220). -/
def agpConfig (o : Nat) : Bool :=
  o == 0x8 || (decide (0x100 ≤ o) && decide (o < 0x150)) || (decide (0x800 ≤ o) && decide (o < 0x1000))

/-- Whether a CONFIG entry is permitted (R220, check 13). -/
def configOk (s : State) (o : Nat) : Bool :=
  match regGroupOf o with
  | none => false
  | some g =>
    if 0x40000000 ≤ o then
      let t := (o - 0x40000000) / 0x100000
      decide (t < s.tileCount) && g.access == .sh && o != TIL_LATPIN t
    else if 0xD0000 ≤ o ∧ o < 0xE0000 then
      let e := s.engine ((o - 0xD0000) / 0x1000)
      agpConfig (o % 0x1000) && (e.state == .halted || e.state == .fault)
    else g.access == .sh && ((decide (0x60000 ≤ o) && decide (o < 0x70000))
      || (decide (0x100000 ≤ o) && decide (o < 0x1A0000)))

/-- Whether an entry of ROUTES breaks R221. -/
def routeBad (n : Nif) (r : Route) : Bool :=
  let fabric := n.progs.any fun p => p.slot == r.prog && p.flags / 2 % 2 == 1
  let twins := (n.routes.filter fun q => q.role == 0 && q.prog == r.prog && q.xfer == r.xfer
    && q.twin != r.twin).length
  let same := (n.routes.filter fun q => q.role == 0 && q.prog == r.prog && q.xfer == r.xfer
    && q.twin == r.twin).length
  !fabric || r.role == 3 || decide (n.ranks ≤ r.dest)
    || (if r.role = 0 then r.inLink != 0x3F else decide (31 < r.inLink))
    || (if r.role = 2 then r.outLink != 0x3F else decide (31 < r.outLink))
    || (r.role == 0 && (twins != 1 || same != 1))

/-- Check 14. -/
def nifRoutesBad (s : State) (n : Nif) : Option (Nat × Nat) :=
  let used := s.slotsInUse
  let held := (s.routes.filter fun r => used.contains r.prog && !(n.progs.any fun p => p.slot == r.prog)).length
  firstSome (((n.routes.zip (List.range n.routes.length)).map fun e => failIf (routeBad n e.1) loadRoutes e.2)
    ++ [failIf (decide (32768 < held + n.routes.length)) loadRoutes (32768 - held)])

/-- Check 15. -/
def nifSlots (s : State) (n : Nif) : Option (Nat × Nat) :=
  let used := s.slotsInUse
  let overlap := fun (b : NifBlock) => used.any fun p =>
    runsOverlap b.first b.bundles.length (s.slotFirst p) (s.slotCount p) && s.maskBit (FRM_USED p 0) b.tile
  firstSome ((n.progs.map fun p => failIf (used.contains p.slot) loadSlotBusy p.slot)
    ++ n.blocks.map fun b => failIf (overlap b) loadSlotBusy (0x100 + b.tile))

/-- Check 16: a Mule that cannot take its block. -/
def muleBusy (s : State) (t : Nat) : Bool :=
  let x := s.tile t
  decide (s.tileCount ≤ t) || x.gated || x.inReset || !(x.mule.state == .halted || x.mule.state == .fault)

/-- Blocks with the blocks before each. -/
def withBefore (before : List NifBlock) (bs : List NifBlock) : List (NifBlock × List NifBlock) :=
  match bs with
  | [] => []
  | b :: rest => (b, before) :: withBefore (b :: before) rest

/-- Checks 5 to 16 on the contents of an image: the first that fails, with its detail. -/
def nifAccept (s : State) (n : Nif) : Option (Nat × Nat) :=
  let cap := s.spaceEnd 2
  let index := fun {α : Type} (xs : List α) => xs.zip (List.range xs.length)
  firstSome
    [failIf (!n.native) loadNoNative 0,
     failIf (n.tiles == 0 || n.tiles != s.tileCount) loadTiles n.tiles,
     nifLatency s n,
     failIf (n.stackCount != s.hbmStacks) loadStacks n.stackCount,
     failIf (decide (cap < n.ddrBytes) || (cap == 0 && n.ddrUse != 0)) loadDdr (cap / 2 ^ 20),
     failIf (n.ranks != fld (s.reg FAB_RANKS) 0 13 || n.rank != s.ownRank) loadRanks n.rank,
     firstSome ((index n.progs).map fun e => failIf (progBad s n e.2 e.1) loadProgram e.2),
     firstSome ((withBefore [] n.blocks).map fun e => blockBad s n e.1 e.2),
     firstSome ((index n.config).map fun e => failIf (!configOk s e.1.1) loadConfig e.2),
     nifRoutesBad s n,
     nifSlots s n,
     firstSome (n.mules.map fun m => failIf (muleBusy s m.tile) loadMuleBusy m.tile)]

/-- The checks of R224 on the bytes of an image and the cause each was read with: a failed check, or the
contents. (DEDUCED, log 54) -/
def nifCheck (s : State) (bs : List (BitVec 8)) (cs : List Cause) : Except (Nat × Nat) Nif :=
  let len := bs.length
  let memory := ((cs.zip (List.range cs.length)).find? fun e => e.1 != .none).map fun e => (loadMemory, e.2)
  let secs := sortBy (fun (a b : NifSection) => decide (a.off < b.off)) (nifSections bs)
  let fault := firstSome
    [nifHeader bs len, memory,
     failIf (nifDigest bs != (bs.drop 0x10).take 48) loadDigest 0,
     nifTable bs len]
  match fault with
  | some e => .error e
  | none =>
    match firstSome (secs.map (nifContent bs)) with
    | some e => .error e
    | none =>
      let n := nifRead bs
      match nifAccept s n with
      | some e => .error e
      | none => .ok n

end Sys2Proof.Machine
end

