-- ==== Sys2Proof/Machine/Links.lean ====
section
/-! DEFINITION. Fabric links (R288 to R296, R313 to R318): flits and replay, the states of a link, training and
the wiring rules, route notices and twin routes. -/

namespace Sys2Proof.Machine

/-! ### State of a link (R294, R321) -/

/-- STATE codes of FAB_LINK_STATUS. -/
def lkDown : Nat := 0
def lkTraining : Nat := 1
def lkUp : Nat := 2
def lkHeld : Nat := 3
def lkMiswired : Nat := 4
def lkDisabled : Nat := 5

/-- Whether a link carries flits: UP or HELD. -/
def State.linkCarries (s : State) (l : Nat) : Bool := s.linkState l == lkUp || s.linkState l == lkHeld

/-- Set STATE of a link. -/
def State.setLinkState (s : State) (l st : Nat) : State := s.setRegFld (linkStatus l) 0 3 st

/-- The lanes a link may use: good in training, not marked bad and not forced off (R292). -/
def State.usableLanes (s : State) (l : Nat) (good : BitVec 4) : BitVec 4 :=
  good &&& ~~~ (s.link l).bad &&& ~~~ (BitVec.ofNat 4 (fld (s.reg (linkCfg l)) 4 4))

/-- The width code that lanes allow (R292): four lanes, two of a pair, one. -/
def laneWidth (g : BitVec 4) : Nat :=
  if g = 0xF then 3
  else if g.getLsbD 0 && g.getLsbD 1 || g.getLsbD 2 && g.getLsbD 3 then 2
  else if g ≠ 0 then 1
  else 0

/-- Whether a link comes back at a width (R292): at least MINW, and below four lanes with AUTO_NARROW
only. -/
def State.widthAllowed (s : State) (l w : Nat) : Bool :=
  let cfg := s.reg (linkCfg l)
  decide (fld cfg 2 2 + 1 ≤ w) && (w == 3 || bit cfg 1)

/-! ### Route notices and twin routes (R314, R315) -/

/-- Send a route notice on a link. -/
def State.sendNotice (s : State) (l : Nat) (n : Notice) : State :=
  { s with fab := { s.fab with notices := s.fab.notices ++ [(l, n)] } }

/-- An origin learns that the primary route of a transfer has failed: the twin from the next tick. -/
def State.selectTwin (s : State) (prog xfer : Nat) : State :=
  let hasTwin := s.routes.any fun r => r.prog == prog && r.xfer == xfer && r.role == 0 && r.twin
  if hasTwin ∧ !s.twins.contains (prog, xfer) ∧ !s.twinsNext.contains (prog, xfer) then
    { s with twinsNext := s.twinsNext ++ [(prog, xfer)] }
  else s

/-- What a module does for its route entries when a link goes down (R314, R315). -/
def State.linkLost (s : State) (l : Nat) : State :=
  s.routes.foldl (fun s r =>
    if r.outLink ≠ l then s
    else if r.role = 1 then s.sendNotice r.inLink (.transfer r.prog r.xfer r.twin)
    else if r.role = 0 ∧ !r.twin then s.selectTwin r.prog r.xfer
    else s) s

/-- A link goes DOWN (R290 to R294): the replay buffer is discarded, and training starts again where the
configuration and the lanes allow it. A host port notes the time (R430). (DEDUCED, log 49) -/
def State.linkDown (s : State) (l cause : Nat) : State :=
  if !s.linkCarries l then s
  else
    let lost := ((s.link l).replay.filter fun e => e.2.isSome).length
    let cfg := s.reg (linkCfg l)
    let w := s.linkWidth l
    let good := s.usableLanes l 0xF
    let st := if bit cfg 0 ∧ s.widthAllowed l (laneWidth good) then lkTraining else lkDown
    let s := s.setReg (linkStatus l) (BitVec.ofNat 32 (st + good.toNat * 2 ^ 8 + cause * 2 ^ 12))
    let s := s.incReg (linkDowns l)
    let s := s.modLink l fun k => { k with
      rx := 0, tx := 0, replay := [], replays := 0, nakDue := false, lastWidth := w, peerForward := false,
      announced := false }
    if 32 ≤ l then
      let s := s.orReg HLK_EVENT (BitVec.ofNat 32 (2 ^ (4 + (l - 32))))
      { s with hlk := { s.hlk with downAt := mapPut s.hlk.downAt (l - 32) s.us } }
    else
      let s := (List.range lost).foldl (fun s _ => s.discard) (s.orReg FAB_EVENT 1)
      (s.setReg (FAB_TDLY l) 0).linkLost l

/-! ### Flits (R290, R291) -/

/-- The replay buffer once flits up to `a` are acknowledged; itself where `a` is not in it. (DESIGN CHOICE, log 50) -/
def ackReplay (a : BitVec 12) (q : List (BitVec 12 × Option Packet)) : List (BitVec 12 × Option Packet) :=
  if q.any fun e => e.1 == a then (q.dropWhile fun e => e.1 != a).drop 1 else q

/-- The receiver asks for a replay: one flit replayed more than RETRY times in a row takes the link DOWN. -/
def linkNak (s : State) (l : Nat) (want : BitVec 12) : State :=
  let old := (s.link l).replay
  let new := ackReplay (want - 1) old
  let n := if new.head? = old.head? then (s.link l).replays + 1 else 1
  let s := s.modLink l fun k => { k with replay := new, replays := n }
  if fld (s.reg (linkCfg l)) 13 3 < n then s.linkDown l 2
  else (s.incReg (linkRetry l)).raiseRegion (linkRegion l) .linkReplay 0

/-- FLIT_RECEIVE (R290): a flit that fails FEC or CRC is not used and is asked for again. -/
def flitReceive (s : State) (l : Nat) (f : Flit) : State :=
  if !s.linkCarries l then s
  else
    let s := s.addReg (linkFec l) f.corrected
    if !f.good then s.modLink l fun k => { k with nakDue := true }
    else
      let used := f.idle || f.seq == (s.link l).rx
      let s := if f.idle then s
        else if used then s.modLink l fun k => { k with rx := k.rx + 1, nakDue := false }
        else s.modLink l fun k => { k with nakDue := true }
      let s := if used && f.forward then s.modLink l fun k => { k with announced := true } else s
      if f.nak then linkNak s l f.ackseq
      else
        let q := ackReplay f.ackseq (s.link l).replay
        s.modLink l fun k => { k with
          replay := q
          replays := if q.length = k.replay.length then k.replays else 0 }

/-- LANE_BAD (R292): a lane of an UP link loses lock or reaches its FEC threshold. -/
def laneBad (s : State) (l : Nat) (lane : Nat) (lock : Bool) : State :=
  if !s.linkCarries l then s
  else (s.modLink l fun k => { k with bad := k.bad ||| BitVec.ofNat 4 (2 ^ lane) }).linkDown l (if lock then 1 else 3)

/-! ### Training and the wiring rules (R294 to R296) -/

/-- The peer that the wiring rules give a port: flock and member; none where it is left unconnected. -/
def State.wiredPeer (s : State) (l : Nat) : Option (Nat × Nat) :=
  let f := s.ownFlock
  let m := s.ownMember
  if l < 16 then some (f, (m + l + 1) % 17)
  else
    let i := if m < 16 then 16 * m + (l - 16) else l - 16 + 1
    let g := f ^^^ i
    if g = f ∨ s.flocks ≤ g then none else some (g, m)

/-! ### Bring-up stages (R471, R472) -/

/-- Whether training of a link has ended: UP, HELD, MISWIRED or DISABLED. -/
def State.linkSettled (s : State) (l : Nat) : Bool := decide (lkUp ≤ s.linkState l)

/-- The members of the flock that are present (R472): itself, and those whose flock link is UP or HELD. (DEDUCED, log 85) -/
def State.flockPresent (s : State) : Nat :=
  (List.range 17).foldl (fun v m =>
    v + (if m = s.ownMember ∨ s.linkCarries (flockPort s.ownMember m) then 2 ^ m else 0)) 0

/-- FAB_HALL_STATUS.STAGE. -/
def State.hallStage (s : State) : Nat := fld (s.reg FAB_HALL_STATUS) 0 3

/-- Whether the stage after the present one is complete (R471); stage 4 is that of the election. -/
def State.stageDone (s : State) : Bool :=
  match s.hallStage with
  | 0 => (List.range 16).all s.linkSettled
  | 1 => true
  | 2 => (List.range 16).all fun i => s.linkSettled (16 + i)
  | 4 => (List.range 32).all fun l => !s.linkCarries l || bit (s.reg (FAB_TDLY l)) 31
  | 5 => fld (s.reg DMC_BOOT) 0 4 == 4
  | _ => false

/-- The stages that are complete are passed, at most `n`; FAB_FLOCK_PRESENT is final at stage 2. -/
def hallPass (n : Nat) (s : State) : State :=
  match n with
  | 0 => s
  | n + 1 =>
    let s := if s.hallStage < 2 then s.setReg FAB_FLOCK_PRESENT (BitVec.ofNat 32 s.flockPresent) else s
    if s.stageDone then hallPass n (s.setRegFld FAB_HALL_STATUS 0 3 (s.hallStage + 1)) else s

/-- The bring-up stages after a link, a calibration or the boot has come further. -/
def hallAdvance (s : State) : State := if s.power.mainGood then hallPass 6 s else s

/-- Training of a host port ends (R292, R425). -/
def portTrained (s : State) (p : Nat) (good : BitVec 4) : State :=
  let l := 32 + p
  if s.linkState l ≠ lkTraining ∨ !bit (s.reg (linkCfg l)) 0 then s
  else
    let lanes := s.usableLanes l good
    let w := laneWidth lanes
    if !s.widthAllowed l w then (s.setRegFld (linkStatus l) 8 4 lanes.toNat).setLinkState l lkDown
    else
      let cause := fld (s.reg (linkStatus l)) 12 4
      let s := s.setReg (linkStatus l)
        (BitVec.ofNat 32 (lkUp + w * 2 ^ 4 + lanes.toNat * 2 ^ 8 + cause * 2 ^ 12))
      let s := s.modLink l fun k => { k with lastWidth := w }
      { s with hlk := { s.hlk with downAt := mapDel s.hlk.downAt p } }

/-- LINK_TRAINED (R292, R294, R296): training ends with the lanes that are good, the peer's identity and
whether it forwards, the round trip, and the tick delay of the link. -/
def linkTrained (s : State) (l : Nat) (peer : Nat × Nat) (peerForward : Bool) (good : BitVec 4)
    (rtt tdly : BitVec 32) : State :=
  let cfg := s.reg (FAB_LINK_CFG l)
  if s.linkState l ≠ lkTraining ∨ !bit cfg 0 then s
  else match s.wiredPeer l with
    | none => s.setLinkState l lkDisabled
    | some p =>
      let lanes := s.usableLanes l good
      let w := laneWidth lanes
      if !s.widthAllowed l w then
        (s.setRegFld (FAB_LINK_STATUS l) 8 4 lanes.toNat).setLinkState l lkDown
      else
        let s := s.setReg (FAB_LINK_PEER l) (BitVec.ofNat 32 (peer.1 % 256 + peer.2 % 32 * 256 + 2 ^ 31))
        let s := s.setReg (FAB_LINK_RTT l) (rtt &&& 0xFFFF)
        if peer ≠ p then (s.setLinkState l lkMiswired).orReg FAB_EVENT 4
        else
          let s := if w < (s.link l).lastWidth then s.orReg FAB_EVENT 2 else s
          let st := if bit (s.reg FAB_CTRL) 0 ∧ peerForward then lkUp else lkHeld
          let cause := fld (s.reg (FAB_LINK_STATUS l)) 12 4
          let s := s.setReg (FAB_LINK_STATUS l)
            (BitVec.ofNat 32 (st + w * 2 ^ 4 + lanes.toNat * 2 ^ 8 + cause * 2 ^ 12))
          (s.modLink l fun k => { k with peerForward := peerForward, lastWidth := w }).setReg (FAB_TDLY l) tdly

/-- RETRAIN (R317): a link reset; bad lanes are forgotten (R292). -/
def linkRetrain (s : State) (l : Nat) : State :=
  let s := s.linkDown l 5
  let s := s.modLink l fun k => { k with bad := 0 }
  if bit (s.reg (linkCfg l)) 0 then s.setLinkState l lkTraining else s.setLinkState l lkDown

/-! ### Forwarding (R318) -/

/-- A write of FAB_CTRL.FORWARD. (DEDUCED, log 51) -/
def setForward (s : State) (on : Bool) : State :=
  let was := bit (s.reg FAB_CTRL) 0
  let s := s.setReg FAB_CTRL (if on then 1 else 0)
  let stage := if on && !was then 1 else if on then s.fab.forwardStage else 0
  { s with fab := { s.fab with forwardStage := stage } }

/-- Remove a module from the exclusion set. -/
def State.unexclude (s : State) (fm : Nat × Nat) : State :=
  (List.range 64).foldl (fun s n =>
    let e := s.reg (FAB_EXCL n)
    if bit e 31 && fld e 0 8 == fm.1 && fld e 8 5 == fm.2 then s.setReg (FAB_EXCL n) 0 else s) s

/-- What a tick does to forwarding: an announcement that has been received, and one that this module made a
tick ago, bring HELD links UP. -/
def forwardTick (s : State) : State :=
  let stage := s.fab.forwardStage
  let s := (List.range 32).foldl (fun s l =>
    let k := s.link l
    let s := if k.announced then
        (s.modLink l fun k => { k with peerForward := true, announced := false }).unexclude
          (fld (s.reg (FAB_LINK_PEER l)) 0 8, fld (s.reg (FAB_LINK_PEER l)) 8 5)
      else s
    let peer := k.announced || k.peerForward
    let mine := bit (s.reg FAB_CTRL) 0 && stage != 1
    if s.linkState l = lkHeld ∧ peer ∧ mine then s.setLinkState l lkUp else s) s
  { s with fab := { s.fab with forwardStage := if stage = 1 then 2 else 0 } }

/-- What a tick does to the twin selections (R315), and to the transfers of the frame that ends. -/
def twinTick (s : State) : State :=
  let base := if s.twinClear then [] else s.twins
  let new := s.twinsNext.filter fun x => !base.contains x
  let s := { s with
    twins := base ++ new
    twinsNext := []
    twinClear := false
    fab := { s.fab with arrived := [], timedOut := [], noticed := [] } }
  match new.getLast? with
  | some (p, x) =>
    (s.setReg FAB_TWIN_LAST (BitVec.ofNat 32 (x + p * 2 ^ 16 + 2 ^ 31))).orReg FAB_EVENT 0x40
  | none => s

/-- Add a module to the exclusion set (R314). -/
def State.exclude (s : State) (f m : Nat) : State :=
  if s.excluded (f, m) then s
  else match (List.range 64).find? fun n => !bit (s.reg (FAB_EXCL n)) 31 with
    | some n => s.setReg (FAB_EXCL n) (BitVec.ofNat 32 (f % 256 + m % 32 * 256 + 2 ^ 31))
    | none => s.orReg FAB_EVENT 0x80

/-- ROUTE_NOTICE (R314, R315): a notice for a transfer is passed on by a forwarder and reaches its origin;
one for a module excludes it. -/
def routeNotice (s : State) (n : Notice) : State :=
  let s := (s.incReg FAB_NOTICES).orReg FAB_EVENT 0x10
  match n with
  | .module f m => s.exclude f m
  | .transfer prog xfer twin =>
    s.routes.foldl (fun s r =>
      if r.prog = prog ∧ r.xfer = xfer ∧ r.twin = twin then
        if r.role = 1 then s.sendNotice r.inLink n
        else if r.role = 0 then
          let s := { s with fab := { s.fab with noticed := s.fab.noticed ++ [xfer] } }
          if twin then s else s.selectTwin prog xfer
        else s
      else s) s

/-- FAB_STATUS (R321). -/
def fabStatus (s : State) : Nat :=
  let up := (List.range 32).filter s.linkUp
  let excl := ((List.range 64).filter fun n => bit (s.reg (FAB_EXCL n)) 31).length
  up.length + (up.filter fun l => s.linkWidth l != 3).length * 2 ^ 6 + (if s.twins.isEmpty then 0 else 2 ^ 12)
    + excl * 2 ^ 13

/-! ### Commands -/

/-- FLIT_RECEIVE (R290). -/
def execFlitReceive (l : Fin 34) (f : Flit) (s : State) : Host.Outcome State Fault Refusal :=
  .next (flitReceive s l f)

/-- LINK_SILENCE (R291): no valid flit for 1 µs, or lane lock or alignment is lost. -/
def execLinkSilence (l : Fin 34) (lock : Bool) (s : State) : Host.Outcome State Fault Refusal :=
  .next (s.linkDown l (if lock then 1 else 4))

/-- LANE_BAD (R292). -/
def execLaneBad (l : Fin 34) (lane : Fin 4) (lock : Bool) (s : State) : Host.Outcome State Fault Refusal :=
  .next (laneBad s l lane lock)

/-- LINK_TRAINED (R294). -/
def execLinkTrained (l : Fin 34) (flock : BitVec 8) (member : BitVec 5) (peerForward : Bool) (good : BitVec 4)
    (rtt tdly : BitVec 32) (s : State) : Host.Outcome State Fault Refusal :=
  .next (if l.val < 32 then hallAdvance (linkTrained s l (flock.toNat, member.toNat) peerForward good rtt tdly)
    else portTrained s (l - 32) good)

/-- RETRAIN (R317). -/
def execRetrain (l : Fin 32) (s : State) : Host.Outcome State Fault Refusal := .next (linkRetrain s l)

/-- FORWARD (R318). -/
def execForward (s : State) : Host.Outcome State Fault Refusal := .next (setForward s true)

/-- ROUTE_NOTICE (R314). -/
def execRouteNotice (n : Notice) (s : State) : Host.Outcome State Fault Refusal := .next (routeNotice s n)

/-- FAB_TWIN_CLEAR (R315). -/
def execFabTwinClear (s : State) : Host.Outcome State Fault Refusal := .next { s with twinClear := true }

end Sys2Proof.Machine
end

