-- ==== Sys2Proof/Machine/Remote.lean ====
section
/-! DEFINITION. Traffic between ranks (R299 to R312, R322 to R331): scheduled slots, arrivals and timeouts,
access windows, answers, and the completion of a waiting request. -/

namespace Sys2Proof.Machine

/-! ### Hops and completion -/

/-- The position of the next hop (R303): the lowest after `pos` of the kind of link `l`. -/
def nextPos (pos l : Nat) : Nat := if l < 16 then (pos / 2 + 1) * 2 else (pos + 1) / 2 * 2 + 1

/-- A request completes with a status, and with data for a read (R326, R329). -/
def completeRequest (s : State) (tid st : Nat) (bs : List (BitVec 8)) (cs : List Cause) : State :=
  match s.entryOf tid with
  | none => s
  | some e =>
    let s := tidFreeSend (s.dropEntry tid)
    match e.source with
    | .stream t c elem off => streamAnswer s t c elem off st bs cs
    | .agp n k off => if e.pkt.kind = 1 then agpReadReply s n k off st bs cs else agpWriteAck s n k off st
    | .coll d => colAnswer s d e.pkt.xfer st
    | src => messageAnswered s src st

/-- Send an answer back to the rank of a packet (R310, R326): in the class it came in, on link `l` where that is
the scheduled one. -/
def replyTo (s : State) (l : Nat) (p : Packet) (kind : Nat) (bs : List (BitVec 8)) (marks : List Cause) : State :=
  let r : Packet := ⟨p.src, s.ownRank, kind, 1, p.be, false, p.twin, 0, (bs.length + 15) / 16, p.tid, p.xfer, 0, 0, bs,
    marks, []⟩
  if p.be then match s.rankModule p.src with
    | some (f, m) => s.bePacket f m r
    | none => s.discard
  else s.emit l { r with pos := firstPos l }

/-- An ANSWER packet with a code in byte 0 (R326). -/
def answerPacket (s : State) (l : Nat) (p : Packet) (code : Nat) : State :=
  replyTo s l p 4 (BitVec.ofNat 8 code :: List.replicate 15 0) [.none]

/-! ### Windows (R322 to R327) -/

def State.winSpace (s : State) (w : Nat) : Nat := fld (s.reg (FAB_WIN_BASE_HI w)) 16 2
def State.winBase (s : State) (w : Nat) : Nat :=
  (s.reg (FAB_WIN_BASE_LO w)).toNat + 2 ^ 32 * fld (s.reg (FAB_WIN_BASE_HI w)) 0 15
def State.winSize (s : State) (w : Nat) : Nat :=
  (s.reg (FAB_WIN_SIZE_LO w)).toNat + 2 ^ 32 * fld (s.reg (FAB_WIN_SIZE_HI w)) 0 15

/-- Whether window `w` permits an access (R323). -/
def State.winPermits (s : State) (w : Nat) (write : Bool) (src space off len : Nat) : Bool :=
  let ranks := s.reg (FAB_WIN_RANKS w)
  s.winSize w != 0 && s.winSpace w == space && decide (s.winBase w ≤ off)
    && decide (off + len ≤ s.winBase w + s.winSize w)
    && decide (fld ranks 0 13 ≤ src) && decide (src ≤ fld ranks 16 13)
    && bit (s.reg (FAB_WIN_CFG w)) (if write then 1 else 0)

/-- The lowest-numbered window that permits an access. -/
def State.winFor (s : State) (write : Bool) (src space off len : Nat) : Option Nat :=
  (List.range 64).find? fun w => s.winPermits w write src space off len

/-- The checks of R323: a code, and the window. (DEDUCED, log 52) -/
def State.winCheck (s : State) (write : Bool) (p : Packet) : Nat × Option Nat :=
  let len := 16 * p.len
  if 4 ≤ p.space ∨ (p.space < 3 ∧ s.spaceEnd p.space < p.offset + len) then (stAddrInvalid, none)
  else match (if p.space = 3 then none else s.winFor write p.src p.space p.offset len) with
    | none => (stAccessDenied, none)
    | some w =>
      if s.frame.safe.isSome ∨ s.spaceStatus p.space p.offset len ≠ stDone
          ∨ s.spaceStatus p.space (p.offset + (len - 1)) 1 ≠ stDone then (stTargetOff, none)
      else (stDone, some w)

/-- A remote access is refused (R323). -/
def winDeny (s : State) (p : Packet) (code : Nat) : State :=
  (s.incReg FAB_WIN_DENY).setReg FAB_WIN_DENY_LAST
    (BitVec.ofNat 32 (p.src % 2 ^ 13 + code * 2 ^ 16 + p.space % 16 * 2 ^ 18 + 2 ^ 31))

/-- The signal of a window after an ordered write (R325). The transfer of a scheduled notify message is not
given: a free value. -/
def winNotify (s : State) (w : Nat) (p : Packet) : State :=
  let cfg := s.reg (FAB_WIN_CFG w)
  let n := s.reg (FAB_WIN_NOTIFY w)
  match fld cfg 2 2 with
  | 1 => signalTarget s (fld n 0 5 + 32 * fld n 8 10) 1
  | 2 => signalTarget s (2 ^ 15 + fld n 0 8) 1
  | 3 =>
    let m : Msg := { rank := BitVec.ofNat 13 (fld n 18 13), tile := BitVec.ofNat 10 (fld n 8 10), port := 0,
                     tag := BitVec.ofNat 16 (fld n 0 5), epoch := BitVec.ofNat 8 (fld cfg 8 8), ord := false,
                     be := p.be, notice := false, user := 0, payload := 1 }
    let (x, s) := if p.be then (0, s) else s.free
    sendMsg s (.notify w) 0 (x % 2 ^ 16) m
  | _ => s

/-- A WRITE from another rank (R323, R325, R327). -/
def remoteWrite (s : State) (l : Nat) (p : Packet) : State :=
  match s.winCheck true p with
  | (_, some w) =>
    let s := s.spaceWrite p.space p.offset p.data (marksBytes p.marks p.data.length)
    let s := answerPacket s l p stDone
    if p.ord then winNotify s w p else s
  | (code, none) => answerPacket (winDeny s p code) l p code

/-- A READ from another rank (R323, R326, R327). -/
def remoteRead (s : State) (l : Nat) (p : Packet) : State :=
  match s.winCheck false p with
  | (_, some _) =>
    match s.spaceRead p.space p.offset (16 * p.len) with
    | (s, bs, cs) => replyTo s l p 3 bs (dataMarks cs bs.length)
  | (code, none) => answerPacket (winDeny s p code) l p code

/-- READ_DATA at its source (R326). -/
def remoteData (s : State) (p : Packet) : State :=
  completeRequest s p.tid stDone p.data (marksBytes p.marks p.data.length)

/-- ANSWER at its source (R326): the code is byte 0. (DEDUCED, log 117) -/
def remoteAnswer (s : State) (p : Packet) : State := completeRequest s p.tid (p.data.headD 0).toNat [] []

/-- A message from another rank (R269); `due` is the due cycle of a scheduled one. -/
def remoteMessage (s : State) (l : Nat) (p : Packet) (due : Nat) : State :=
  receiveMsg s (msgOfBits (BitVec.ofNat 128 (leNat p.data))) (.rank p.src p.tid p.be l p.xfer) due

/-- A packet for this module does what its TYPE says (R300). The data of a COL packet goes to the engine: see
COL_CONTRIBUTION. -/
def deliver (s : State) (l : Nat) (p : Packet) (due : Nat) : State :=
  match p.kind with
  | 0 => remoteWrite s l p
  | 1 => remoteRead s l p
  | 2 => remoteMessage s l p due
  | 3 => remoteData s p
  | 4 => remoteAnswer s p
  | 5 => answerPacket s l p stDone
  | _ => s.discard

/-! ### Scheduled transfers (R306 to R309) -/

/-- The program slot whose transfers are under way: that of the armed frame, or, while an overrun drains, that of
the frame that overran (R58). -/
def State.transferProg (s : State) : Option Nat :=
  match s.frame.armed, s.frame.draining, s.entries.find? fun e => !e.pkt.be with
  | some a, _, _ => some a
  | none, true, some e => some e.prog
  | none, _, _ => none

/-- The routes of that program for a transfer on one of its two routes. -/
def State.transferRoutes (s : State) (xfer : Nat) (twin : Bool) : List Route :=
  match s.transferProg with
  | none => []
  | some a => s.routes.filter fun r => r.prog == a && r.xfer == xfer && r.twin == twin

/-- SLOT_SEND (R307): the slot of a transfer on link `l`: an origin sends the transfer's packets, a forwarder
those it holds. -/
def slotSend1 (s : State) (r : Route) : State :=
  let l := r.outLink
  if r.role = 0 then
    let mine := fun (e : NetEntry) => !e.pkt.be && !e.sent && e.pkt.xfer == r.xfer && e.prog == r.prog
      && e.pkt.twin == r.twin
    let out := s.entries.filter mine
    let s := { s with entries := s.entries.map fun e => if mine e then { e with sent := true } else e }
    out.foldl (fun s e =>
      if s.linkSched l then s.emit l { e.pkt with pos := firstPos l } else s.discard) s
  else if r.role = 1 then
    let mine := fun (f : Nat × Packet) => f.1 == l && f.2.xfer == r.xfer && f.2.twin == r.twin
    let out := s.fab.forwards.filter mine
    let s := { s with fab := { s.fab with forwards := s.fab.forwards.filter fun f => !mine f } }
    out.foldl (fun s f =>
      if s.linkSched l then s.emit l { f.2 with pos := nextPos f.2.pos l }
      else s.discard.sendNotice r.inLink (.transfer r.prog r.xfer r.twin)) s
  else s

/-- SLOT_SEND on a link. -/
def slotSendAll (s : State) (l xfer : Nat) (twin : Bool) : State :=
  if !s.frame.released then s
  else ((s.transferRoutes xfer twin).filter fun r => r.outLink == l && r.role != 2).foldl (fun s r =>
    slotSend1 (s.noteWork (linkRegion l) r.due) r) s

/-- A scheduled packet of a request arrives on link `l` (R307, R309, R312). (DEDUCED, log 53) -/
def scheduledIn (s : State) (l : Nat) (p : Packet) : State :=
  match (s.transferRoutes p.xfer p.twin).find? fun r => r.inLink == l && r.role != 0 with
  | none => s.discard
  | some r =>
    if s.fab.timedOut.contains (p.xfer, p.twin) then s.discard
    else
      let s := { s with fab := { s.fab with arrived := (p.xfer, p.twin) :: s.fab.arrived } }
      let s := s.noteWork (linkRegion l) r.due
      if r.role = 2 then deliver s l p r.due
      else if !bit (s.reg FAB_CTRL) 0 ∨ (s.rankModule p.dst).isNone then s.discard
      else if !s.linkSched r.outLink then s.discard.sendNotice l (.transfer r.prog r.xfer r.twin)
      else { s with fab := { s.fab with forwards := s.fab.forwards ++ [(r.outLink, p)] } }

/-- A scheduled answer arrives on link `l`: it travels back over the modules of its transfer. -/
def scheduledBack (s : State) (l : Nat) (p : Packet) : State :=
  match (s.transferRoutes p.xfer p.twin).find? fun r => r.outLink == l && r.role != 2 with
  | none => s.discard
  | some r =>
    if r.role = 1 then
      if s.linkUp r.inLink then s.emit r.inLink { p with pos := nextPos p.pos r.inLink } else s.discard
    else if s.fab.timedOut.contains (p.xfer, p.twin) then s.discard
    else deliver s l p r.due

/-- SCHEDULED_ARRIVAL (R307): a packet whose CRC fails at its destination is discarded (R312). -/
def scheduledArrival (s : State) (l : Nat) (crc : Bool) (p : Packet) : State :=
  if !s.linkUp l then s
  else if !crc && p.dst == s.ownRank then s.discard
  else if p.kind = 3 ∨ p.kind = 4 then scheduledBack s l p
  else scheduledIn s l p

/-- Whether this module still waits for a transfer: for its packet, or as its origin for an answer. -/
def State.awaits (s : State) (r : Route) : Bool :=
  (s.frame.released || s.frame.draining) && !s.fab.timedOut.contains (r.xfer, r.twin)
    && (if r.role = 0 then s.entries.any fun e => !e.pkt.be && e.pkt.xfer == r.xfer && e.prog == r.prog
          && e.pkt.twin == r.twin
        else !s.fab.arrived.contains (r.xfer, r.twin))

/-- The region that holds for a transfer. -/
def routeRegion (r : Route) : Nat := linkRegion (if r.role = 0 then r.outLink else r.inLink)

/-- A transfer times out at this module (R308, R314, R315, R338). -/
def transferTimeout (s : State) (r : Route) (part : Option ColStep) : State :=
  let s := { s with fab := { s.fab with timedOut := (r.xfer, r.twin) :: s.fab.timedOut } }
  match r.role with
  | 0 =>
    let s := s.fabTimeout (routeRegion r) r.xfer
    let mine := s.entries.filter fun e => !e.pkt.be && e.pkt.xfer == r.xfer && e.prog == r.prog
      && e.pkt.twin == r.twin
    let s := mine.foldl (fun s e => completeRequest s e.pkt.tid stTimeout [] []) s
    if r.twin then s else s.selectTwin r.prog r.xfer
  | 1 => s.fabTimeout (routeRegion r) r.xfer
  | _ =>
    let s := match part with
      | some c => colMissing s c (routeRegion r) r.xfer
      | none => s.fabTimeout (routeRegion r) r.xfer
    s.sendNotice r.inLink (.transfer r.prog r.xfer r.twin)

/-- DUE_HOLD (R308): the region holds for at most FAB_GRACE, or the transfer times out at once where its link is
DOWN or a notice has come. -/
def dueHold (s : State) (xfer : Nat) (twin : Bool) (part : Option ColStep) (ps : Nat) : State :=
  ((s.transferRoutes xfer twin).filter s.awaits).foldl (fun s r =>
    let lost := if r.role = 0 then s.fab.noticed.contains xfer else !s.linkSched r.inLink
    if lost then transferTimeout s r part
    else holdCharge s (routeRegion r) (min ps (fld (s.reg FAB_GRACE) 0 20 * 1000))) s

/-- TRANSFER_TIMEOUT (R308): the end of the grace. -/
def transferTimeouts (s : State) (xfer : Nat) (twin : Bool) (part : Option ColStep) : State :=
  ((s.transferRoutes xfer twin).filter s.awaits).foldl (fun s r => transferTimeout s r part) s

/-! ### Best-effort packets (R310 to R312) -/

/-- A best-effort packet for another rank is passed on along the route its source chose. -/
def bePass (s : State) (l : Nat) (p : Packet) : State :=
  if !bit (s.reg FAB_CTRL) 0 ∨ (s.rankModule p.dst).isNone then s.discard
  else match p.hops with
    | [] => s.discard
    | h :: rest =>
      if s.linkUp h then s.emit h { p with pos := nextPos p.pos h, hops := rest }
      else match s.wiredPeer h with
        | some (f, m) => s.discard.sendNotice l (.module f m)
        | none => s.discard

/-- A packet of a TYPE arrives on link `l`. -/
def packetIn (s : State) (l : Nat) (crc : Bool) (kind : Nat) (p : Packet) : State :=
  if p.kind ≠ kind ∨ !s.linkUp l then s
  else if !p.be then scheduledArrival s l crc p
  else if p.dst ≠ s.ownRank ∨ s.ownRank = selfRank then bePass s l p
  else if !crc then s.discard
  else deliver s l p 0

/-- BE_TIMEOUT (R311). -/
def beTimeout (s : State) (tid : Nat) : State :=
  match s.entryOf tid with
  | some e => if e.pkt.be then completeRequest s tid stTimeout [] [] else s
  | none => s

/-! ### Commands -/

/-- SLOT_SEND (R307): the slot of transfer `xfer` on link `l`. -/
def execSlotSend (l : Fin 32) (xfer : BitVec 16) (twin : Bool) (s : State) : Host.Outcome State Fault Refusal :=
  .next (slotSendAll s l xfer.toNat twin)

/-- SCHEDULED_ARRIVAL (R307). -/
def execScheduledArrival (l : Fin 32) (crc : Bool) (p : Packet) (s : State) : Host.Outcome State Fault Refusal :=
  .next (scheduledArrival s l crc p)

/-- DUE_HOLD (R308): the packet, or its answer, comes after `ps` picoseconds, or not at all. -/
def execDueHold (xfer : BitVec 16) (twin : Bool) (part : Option ColStep) (ps : Nat) (s : State) :
    Host.Outcome State Fault Refusal :=
  .next (dueHold s xfer.toNat twin part ps)

/-- TRANSFER_TIMEOUT (R308). -/
def execTransferTimeout (xfer : BitVec 16) (twin : Bool) (part : Option ColStep) (s : State) :
    Host.Outcome State Fault Refusal :=
  .next (transferTimeouts s xfer.toNat twin part)

/-- WRITE (R323). -/
def execWrite (l : Fin 32) (crc : Bool) (p : Packet) (s : State) : Host.Outcome State Fault Refusal :=
  .next (packetIn s l crc 0 p)

/-- READ (R323). -/
def execRead (l : Fin 32) (crc : Bool) (p : Packet) (s : State) : Host.Outcome State Fault Refusal :=
  .next (packetIn s l crc 1 p)

/-- READ_DATA (R326). -/
def execReadData (l : Fin 32) (crc : Bool) (p : Packet) (s : State) : Host.Outcome State Fault Refusal :=
  .next (packetIn s l crc 3 p)

/-- ANSWER (R326). -/
def execAnswer (l : Fin 32) (crc : Bool) (p : Packet) (s : State) : Host.Outcome State Fault Refusal :=
  .next (packetIn s l crc 4 p)

/-- BE_TIMEOUT (R311). -/
def execBeTimeout (tid : BitVec 14) (s : State) : Host.Outcome State Fault Refusal :=
  .next (beTimeout s tid.toNat)

/-- MESSAGE_RECEIVE (R269): a message that has come on a link, or else the oldest in flight on the die. -/
def execMessageReceive (arrival : Option (Fin 32 × Bool × Packet)) (s : State) : Host.Outcome State Fault Refusal :=
  .next (match arrival with
    | some (l, crc, p) => packetIn s l crc 2 p
    | none => match s.flight with
      | f :: _ => receiveFlight s f
      | [] => s)

end Sys2Proof.Machine
end

