-- ==== Sys2Proof/Machine/Commit.lean ====
section
/-! DEFINITION. The commit (R14, R62 to R64, R522) and the consistency rules that the chapters give it. -/

namespace Sys2Proof.Machine

/-! ### State of the frame controller (R67) -/

/-- The committed frame period, ns. -/
def State.period (s : State) : Nat := fld (s.reg FRM_PERIOD) 0 27

/-- FRM_STATE: 0 IDLE, 1 RUNNING, 2 DRAIN, 3 SAFE, 4 HOLDOVER. (DEDUCED, log 36) -/
def State.frmState (s : State) : Nat :=
  if s.frame.safe.isSome then 3
  else if s.frame.draining then 2
  else if s.frame.holdover.isSome then 4
  else if s.period = 0 ∨ !bit (s.reg FRM_CTRL) 0 ∨ !s.frame.acquired then 0
  else 1

/-! ### The combined set (R62) -/

/-- The registers as a commit of every shadow would leave them. -/
def applyShadow (s : State) : State :=
  { s with regs := s.shadow.foldl (fun m e => mapSet (regReset e.1) m e.1 e.2) s.regs, shadow := [] }

/-- Violations: pairs of a block and a register offset. -/
abbrev Viols := List (Nat × Nat)

/-- A violation of a rule that constrains the registers at the given offsets. -/
def viol (bad : Bool) (block : Nat) (offs : List Nat) : Viols := if bad then offs.map fun o => (block, o) else []

/-- Whether a violation is reported before another: the lowest block, then the lowest offset (R522). -/
def violBefore (a b : Nat × Nat) : Bool := decide (a.1 < b.1) || (a.1 == b.1 && decide (a.2 < b.2))

/-- The violation that is reported. -/
def firstViol (vs : Viols) : Option (Nat × Nat) :=
  match vs with
  | [] => none
  | v :: rest => some (rest.foldl (fun a b => if violBefore b a then b else a) v)

/-- Whether two runs of bytes of one space overlap. -/
def areasOverlap (a b : Nat × Nat) (n m : Nat) : Bool := a.1 == b.1 && runsOverlap a.2 n b.2 m

/-! ### Block 0: frames and weight pairs (R43, R49, R51, R67, R417) -/

/-- The header registers of slot `p` and its masks. -/
def slotReg (p o : Nat) : Bool :=
  (decide (FRM_PROG_CYCLES p ≤ o) && decide (o < FRM_PROG_CYCLES p + 0x10))
    || (decide (FRM_MASK p 0 ≤ o) && decide (o < FRM_MASK p 0 + 0x80))
    || (decide (FRM_USED p 0 ≤ o) && decide (o < FRM_USED p 0 + 0x80))

/-- The least reserve of a frequency floor, cycles (R53). -/
def leastReserve (ff : Nat) : Nat := (40 * ff + 999) / 1000

/-- Whether slot `p` fits a period (R53 check 6). -/
def State.slotFits (s : State) (p period : Nat) : Bool :=
  decide ((s.reg (FRM_PROG_CYCLES p)).toNat + (s.reg (FRM_PROG_RESERVE p)).toNat
    ≤ period * cfgFloor (s.reg (FRM_PROG_CFG p)) / 1000)

/-- Whether the used-tile mask of slot `p` lies in its active-tile mask. -/
def State.maskInside (s : State) (p : Nat) : Bool :=
  (List.range 32).all fun w => s.reg (FRM_USED p w) &&& ~~~ (s.reg (FRM_MASK p w)) == 0

/-- The rules on the sequence table and the slots it reaches. (DEDUCED, log 37) -/
def violFrames (s n : State) : Viols :=
  let rd := fun (k : Nat) => n.reg (FRM_SEQ k)
  let start := fld (n.reg FRM_SEQ_START) 0 8
  let slots := slotsOf rd start
  let sub := fld (n.reg FRM_SUBTICK) 0 24
  let changed := s.shadow.filter fun e => e.2 != s.reg e.1
  viol ((mapFind s.shadow FRM_PERIOD).isSome && (decide (n.period < 2000) || decide (100000000 < n.period)))
      0 [FRM_PERIOD]
    ++ viol (decide (1 ≤ sub) && decide (sub ≤ 499)) 0 [FRM_SUBTICK]
    ++ viol (seqEmpty rd start) 0 [FRM_SEQ_START]
    ++ slots.flatMap (fun p =>
      let cfg := n.reg (FRM_PROG_CFG p)
      viol (!bit cfg 31 || decide ((n.reg (FRM_PROG_RESERVE p)).toNat < leastReserve (cfgFloor cfg))
          || !n.maskInside p) 0 [FRM_SEQ_START]
        ++ viol (!n.slotFits p n.period) 0 [FRM_PERIOD]
        ++ viol (s.slotsInUse.contains p && changed.any fun e => slotReg p e.1) 0 [FRM_SEQ_START])

/-- The rules on weight pairs (R417). -/
def violPairs (s n : State) : Viols :=
  let live := (List.range 4).filter fun j => n.pairSize j != 0
  let moving := s.frmState == 1 || s.frmState == 2
  let changed := fun (o : Nat) => n.reg o != s.reg o
  let one := fun (j : Nat) =>
    let size := n.pairSize j
    let copy := fun (b : Bool) =>
      let lo := if b then FRM_WPAIR_B_LO j else FRM_WPAIR_A_LO j
      let hi := if b then FRM_WPAIR_B_HI j else FRM_WPAIR_A_HI j
      let c := n.pairCopy b j
      viol (c.2 % 65536 != 0) 0 [lo] ++ viol (c.1 != 1 && c.1 != 2) 0 [hi]
        ++ viol (decide (n.spaceEnd c.1 < c.2 + size)) 0 [lo]
        ++ viol (fld (n.reg hi) 15 1 != 0 || fld (n.reg hi) 18 14 != 0) 0 [hi]
    let clash := fun (k : Nat) => [false, true].any fun b => [false, true].any fun b' =>
      (k != j || b != b') && areasOverlap (n.pairCopy b j) (n.pairCopy b' k) size (n.pairSize k)
    copy false ++ copy true
      ++ live.flatMap (fun k => viol (clash k) 0 [FRM_WPAIR_A_LO (min j k)])
  live.flatMap one ++ (if moving then (List.range 4).flatMap (fun j =>
    [FRM_WPAIR_A_LO j, FRM_WPAIR_A_HI j, FRM_WPAIR_B_LO j, FRM_WPAIR_B_HI j].flatMap (fun o => viol (changed o) 0 [o])
      ++ viol (s.reg (FRM_WPAIR_SIZE j) != 0 && changed (FRM_WPAIR_SIZE j)) 0 [FRM_WPAIR_SIZE j]) else [])

/-! ### Block 1: clocks (R359) -/

/-- The committed floor: the largest f_floor of a VALID slot, from committed values. -/
def State.committedFloor (s : State) : Nat :=
  (List.range 64).foldl (fun m p =>
    let c := s.reg (FRM_PROG_CFG p)
    max m (if bit c 31 then cfgFloor c else 0)) 0

/-- The rules of R359. -/
def violClock (s n : State) : Viols :=
  let slots := n.slotsInUse
  let ctrl := n.reg CLK_DVFS_CTRL
  let step := n.reg CLK_DVFS_STEP
  let thr := n.reg CLK_THROT_CFG
  let droop := n.reg CLK_DROOP_CFG
  let fixed := fld ctrl 16 12
  let below := fun (f : Nat) => slots.any fun p => decide (f < pointOf (cfgFloor (n.reg (FRM_PROG_CFG p))))
  let rise := fld step 0 12
  let fall := fld step 16 12
  let floorSlot := (List.range 64).find? fun p => bit (n.reg (FRM_PROG_CFG p)) 31 || bit (s.reg (FRM_PROG_CFG p)) 31
  viol (decide (n.fMax < 1600) || decide (2800 < n.fMax) || fld (n.reg CLK_FMAX) 12 20 != 0) 1 [CLK_FMAX]
    ++ viol (below n.fMax) 1 [FRM_SEQ_START]
    ++ viol (bit ctrl 0 && (!isPoint fixed || decide (n.fMax < fixed))) 1 [CLK_DVFS_CTRL]
    ++ viol (bit ctrl 0 && below fixed) 1 [FRM_SEQ_START]
    ++ viol (fld ctrl 1 15 != 0 || fld ctrl 28 4 != 0) 1 [CLK_DVFS_CTRL]
    ++ viol (decide (n.period ≤ fld (n.reg CLK_DVFS_MARGIN) 0 27)) 1 [FRM_PERIOD]
    ++ viol (fld (n.reg CLK_DVFS_MARGIN) 27 5 != 0) 1 [CLK_DVFS_MARGIN]
    ++ viol (rise == 0 || fall == 0 || rise % 25 != 0 || fall % 25 != 0 || fld step 12 4 != 0 || fld step 28 4 != 0)
      1 [CLK_DVFS_STEP]
    ++ viol (fld (n.reg CLK_XMARGIN) 0 8 == 0 || fld (n.reg CLK_XMARGIN) 8 24 != 0) 1 [CLK_XMARGIN]
    ++ viol (fld droop 0 8 == 0 || fld droop 8 16 == 0 || fld droop 24 8 != 0) 1 [CLK_DROOP_CFG]
    ++ viol (fld thr 16 4 == 0 || decide (fld thr 8 8 < fld thr 0 8)) 1 [CLK_THROT_CFG]
    ++ viol (decide (s.committedFloor < n.committedFloor) && decide (s.fVolt < pointOf n.committedFloor)) 1
      (floorSlot.toList.map FRM_PROG_CFG)

/-! ### Block 5: fabric and windows (R298, R324) -/

/-- Lanes that LANE_OFF leaves fall short of MINW, or MINW is reserved. (DEDUCED, log 66) -/
def lanesShort (cfg : BitVec 32) : Bool :=
  let left := ((List.range 4).filter fun k => !bit cfg (4 + k)).length
  fld cfg 2 2 == 3 || decide (left < 2 ^ fld cfg 2 2)

/-- The rank entries that differ from their reset value, by rank. -/
def State.rankEntries (s : State) : List Nat :=
  (s.regs.filter fun e => decide (FAB_RANK 0 ≤ e.1) && decide (e.1 < FAB_RANK 4096)).map fun e => (e.1 - FAB_RANK 0) / 4

/-- The rules of R298. -/
def violFabric (n : State) : Viols :=
  let flocks := n.flocks
  let ranks := fld (n.reg FAB_RANKS) 0 13
  let own := n.ownRank
  let valid := n.rankEntries.filter fun r => bit (n.reg (FAB_RANK r)) 31
  let me := (n.ownFlock, n.ownMember)
  let mine := valid.filter fun r => n.rankModule r == some me
  viol (flocks == 0 || decide (256 < flocks)) 5 [FAB_FLOCKS]
    ++ viol (decide (4096 < ranks)) 5 [FAB_RANKS]
    ++ viol (((List.range ranks).any fun r => !bit (n.reg (FAB_RANK r)) 31) || valid.any fun r => decide (ranks ≤ r))
      5 [FAB_RANKS]
    ++ valid.flatMap (fun r =>
      viol (decide (flocks ≤ fld (n.reg (FAB_RANK r)) 0 8)) 5 [FAB_FLOCKS]
        ++ viol (decide (16 < fld (n.reg (FAB_RANK r)) 8 5)) 5 [FAB_RANK r]
        ++ viol (valid.any fun q => decide (r < q) && n.rankModule q == n.rankModule r) 5 [FAB_RANK r])
    ++ viol (own != selfRank && decide (ranks ≤ own)) 5 [FAB_RANKS, FAB_OWN_RANK]
    ++ viol (own != selfRank && n.rankModule own != some me) 5 [FAB_OWN_RANK, FAB_RANK own]
    ++ viol (own == selfRank && !mine.isEmpty) 5 (FAB_OWN_RANK :: mine.map FAB_RANK)
    ++ viol (fld (n.reg FAB_BE_TIMEOUT) 0 16 == 0) 5 [FAB_BE_TIMEOUT]
    ++ viol (decide (1000000 < fld (n.reg FAB_GRACE) 0 20)) 5 [FAB_GRACE]
    ++ (List.range 32).flatMap fun l => viol (lanesShort (n.reg (FAB_LINK_CFG l))) 5 [FAB_LINK_CFG l]

/-- The rules of R324. -/
def violWindows (n : State) : Viols :=
  ((List.range 64).filter fun w => n.winSize w != 0).flatMap fun w =>
    let base := n.winBase w
    let size := n.winSize w
    let ranks := n.reg (FAB_WIN_RANKS w)
    let cfg := n.reg (FAB_WIN_CFG w)
    let tgt := n.reg (FAB_WIN_NOTIFY w)
    let bh := n.reg (FAB_WIN_BASE_HI w)
    viol (n.winSpace w == 3 || fld bh 15 1 != 0 || fld bh 18 14 != 0) 5 [FAB_WIN_BASE_HI w]
      ++ viol (base % 64 != 0) 5 [FAB_WIN_BASE_LO w] ++ viol (size % 64 != 0) 5 [FAB_WIN_SIZE_LO w]
      ++ viol (decide (n.spaceEnd (n.winSpace w) < base + size)) 5 [FAB_WIN_BASE_LO w]
      ++ viol (decide (fld ranks 16 13 < fld ranks 0 13) || decide (4096 ≤ fld ranks 16 13) || fld ranks 13 3 != 0
        || fld ranks 29 3 != 0) 5 [FAB_WIN_RANKS w]
      ++ viol (fld cfg 2 2 == 3 && decide (fld (n.reg FAB_RANKS) 0 13 ≤ fld tgt 18 13)) 5 [FAB_RANKS]
      ++ viol (fld (n.reg (FAB_WIN_SIZE_HI w)) 15 17 != 0) 5 [FAB_WIN_SIZE_HI w]
      ++ viol (fld cfg 4 4 != 0 || fld cfg 16 16 != 0) 5 [FAB_WIN_CFG w]
      ++ viol (bit tgt 31) 5 [FAB_WIN_NOTIFY w]

/-! ### Block 6: collectives and shadows (R342, R401) -/

/-- Whether an operator is permitted for an element type (R335). -/
def ropOk (w : List (BitVec 32)) : Bool :=
  match colDtype w with
  | .wide => colRop w == 0 || (colRop w == 3 && colOfmt w == .fp32)
  | .int32 => colRop w != 3
  | _ => true

/-- The rules of R342 on one descriptor. -/
def violColl (n : State) (d : Nat) : Viols :=
  let w := n.colDesc d
  let at' := fun (i : Nat) => COL_DESC d i
  let p := colProg w
  let dt := fld (colW w 0) 5 4
  let of := fld (colW w 0) 9 4
  let ranks := fld (n.reg FAB_RANKS) 0 13
  let inGroup := (List.range (colSize w)).any fun i => colRank w i == n.ownRank
  let addr := fun (i align : Nat) =>
    let a := colAddr w i
    viol (addrRank a != selfRank || decide (3 ≤ addrSpace a)) 6 [at' (i + 1)]
      ++ viol (a % align != 0) 6 [at' i] ++ viol (decide (n.spaceEnd (addrSpace a) ≤ addrOff a)) 6 [at' i]
  let resv := [(0, 26, 5), (2, 13, 3), (2, 29, 3), (3, 12, 4), (3, 29, 3), (5, 17, 15), (14, 16, 16), (15, 6, 26)]
  viol (colOp w == 0 || decide (4 < colOp w) || decide (dt < 6) || decide (9 < dt)
      || !(of == dt || (dt == 9 && of == 7)) || !ropOk w
      || (dt == 9 && of == 7 && decide (4 ≤ fld (colW w 0) 13 3))
      || (colShortOk w && !colCounted w)) 6 [at' 0]
    ++ viol (colSize w == 0) 6 [at' 2] ++ viol (colStride w == 0) 6 [at' 3]
    ++ viol (decide (ranks ≤ colRank w (colSize w - 1))) 6 [FAB_RANKS]
    ++ viol (!inGroup) 6 [FAB_OWN_RANK]
    ++ viol (colOp w == 4 && decide (colSize w ≤ colRoot w)) 6 [at' 2]
    ++ addr 6 64 ++ addr 8 64 ++ addr 10 8 ++ addr 12 8
    ++ viol (colShortOk w && bit (n.reg (FRM_PROG_CFG p)) 16) 6 [FRM_PROG_CFG p]
    ++ viol (!bit (n.reg (FRM_PROG_CFG p)) 17) 6 [FRM_PROG_CFG p]
    ++ viol (decide ((n.reg (FRM_PROG_CYCLES p)).toNat ≤ colStart w)) 6 [FRM_PROG_CYCLES p]
    ++ resv.flatMap fun r => viol (fld (colW w r.1) r.2.1 r.2.2 != 0) 6 [at' r.1]

/-- SIZE of a shadow descriptor, bytes. -/
def State.shdSize (s : State) (k : Nat) : Nat :=
  (s.reg (COL_SHD k 5)).toNat + 2 ^ 32 * fld (s.reg (COL_SHD k 6)) 0 15

/-- The rules of R401 on one descriptor with SHADOW set; `users` are the enabled descriptors with SHADOW set. -/
def violShadow (n : State) (users : List Nat) (d : Nat) : Viols :=
  let w := n.colDesc d
  let k := colShd w
  let size := n.shdSize k
  let on := fun (q : Nat) => bit (n.reg (COL_SHD q 0)) 31
  let need := 64 + 64 * ((shdLen w + 63) / 64)
  let clash := fun (q : Nat) => [0, 1].any fun x => [0, 1].any fun y =>
    (q != k || x != y) && runsOverlap (n.shdArea k x) size (n.shdArea q y) (n.shdSize q)
  let h := fun (i lo len : Nat) => viol (fld (n.reg (COL_SHD k i)) lo len != 0) 6 [COL_SHD k i]
  viol (colOp w != 3) 6 [COL_DESC d 0]
    ++ viol (!on k) 6 [COL_DESC d 15]
    ++ users.flatMap (fun e => viol (e != d && colShd (n.colDesc e) == k) 6 [COL_DESC (min d e) 15])
    ++ viol (decide (colSize w ≤ n.shdIndex k)) 6 [COL_DESC d 2]
    ++ viol (n.shdIndex k == colIndex w n.ownRank) 6 [FAB_OWN_RANK]
    ++ viol (n.shdArea k 0 % 64 != 0) 6 [COL_SHD k 1] ++ viol (n.shdArea k 1 % 64 != 0) 6 [COL_SHD k 3]
    ++ viol (size % 64 != 0) 6 [COL_SHD k 5]
    ++ viol (decide (size < need)) 6 [COL_DESC d 0]
    ++ viol (decide (n.spaceEnd 2 < n.shdArea k 0 + size)) 6 [COL_SHD k 1]
    ++ viol (decide (n.spaceEnd 2 < n.shdArea k 1 + size)) 6 [COL_SHD k 3]
    ++ ((List.range 64).filter on).flatMap (fun q => viol (clash q) 6 [COL_SHD (min k q) 1])
    ++ h 0 13 18 ++ h 2 15 17 ++ h 4 15 17 ++ h 6 15 17 ++ h 7 0 32

/-- The rules of the collectives engine. -/
def violColls (n : State) : Viols :=
  let on := (List.range 64).filter fun d => colEnable (n.colDesc d)
  let users := on.filter fun d => colShadow (n.colDesc d)
  on.flatMap (violColl n) ++ users.flatMap (violShadow n users)

/-! ### Blocks 7, 11, 14 and 15 (R256, R259, R380, R426) -/

/-- The rules of R426. -/
def violPorts (n : State) : Viols :=
  [0, 1].flatMap fun p =>
    viol (lanesShort (n.reg (HLK_PORT_CFG p)) || fld (n.reg (HLK_PORT_CFG p)) 16 16 != 0) 7 [HLK_PORT_CFG p]

/-- The tiles a register of whose window differs from its reset value. -/
def State.touchedTiles (s : State) : List Nat :=
  (((s.regs.filter fun e => decide (0x40000000 ≤ e.1)).map fun e => (e.1 - 0x40000000) / 0x100000).eraseDups).filter
    fun t => decide (t < s.tileCount)

/-- The taps with MODE not 0: tile and tap. -/
def State.liveTaps (s : State) : List (Nat × Nat) :=
  s.touchedTiles.flatMap fun t => ((List.range 4).filter fun k => fld (s.reg (GOS_TAP t k 0)) 6 2 != 0).map fun k => (t, k)

/-- The rules of R380 that belong to the central Goose. -/
def violGoose (n : State) : Viols :=
  let taps := n.liveTaps
  let prog := fun (x : Nat × Nat) => fld (n.reg (GOS_TAP x.1 x.2 0)) 0 6
  let mode := fun (x : Nat × Nat) => fld (n.reg (GOS_TAP x.1 x.2 0)) 6 2
  (List.range 64).flatMap (fun p =>
    let two := taps.filter fun x => prog x == p && mode x == 2
    viol (decide (64 < two.length)) 11 (two.map fun x => GOS_TAP x.1 x.2 0))
    ++ n.slotsInUse.flatMap fun p =>
      viol (bit (n.reg (FRM_PROG_CFG p)) 16 && !taps.any fun x => prog x == p) 11 [FRM_SEQ_START]

/-- The rules of R256 on the READY stacks. -/
def violHbm (n : State) : Viols :=
  ((List.range 8).filter fun k => fld (n.reg (HBM_STATUS k)) 0 3 == 3).flatMap fun k =>
    let per := fld (n.reg (HBM_REF_PERIOD k)) 0 16
    let len := fld (n.reg (HBM_REF_LEN k)) 0 16
    let ph := fld (n.reg (HBM_REF_PHASE k)) 0 16
    viol (decide (len < 120)) 14 [HBM_REF_LEN k]
      ++ viol (decide (6240 < per) || decide (per ≤ len) || decide (per ≤ ph)) 14 [HBM_REF_PERIOD k]

/-- The rules of R259. -/
def violDdr (n : State) : Viols :=
  viol (n.reg (DDR_REF_PERIOD 0) != n.reg (DDR_REF_PERIOD 1)) 15 [DDR_REF_PERIOD 0]
    ++ viol (n.reg (DDR_REF_LEN 0) != n.reg (DDR_REF_LEN 1)) 15 [DDR_REF_LEN 0]
    ++ viol (n.reg (DDR_REF_PHASE 0) != n.reg (DDR_REF_PHASE 1)) 15 [DDR_REF_PHASE 0]
    ++ [0, 1].flatMap fun k =>
      let per := fld (n.reg (DDR_REF_PERIOD k)) 0 16
      let len := fld (n.reg (DDR_REF_LEN k)) 0 16
      let ph := fld (n.reg (DDR_REF_PHASE k)) 0 16
      viol (decide (len < 400)) 15 [DDR_REF_LEN k]
        ++ viol (decide (3120 < per) || decide (per ≤ len) || decide (per ≤ ph)) 15 [DDR_REF_PERIOD k]

/-! ### Block 17: tiles (R102, R110, R169, R195, R240, R275, R279, R380) -/

/-- The rules of R102 on stream `k` of a tile. -/
def violRng (n : State) (t k : Nat) : Viols :=
  let cfg := n.reg (VEC_RNG_CFG t k)
  if !bit cfg 31 then []
  else
    let bind := fld cfg 4 2
    viol (bit cfg 2 && n.strict) 17 [FRM_MODE]
      ++ viol (bind == 3 || ((bind == 1 || bind == 2) && fld cfg 8 8 == 0)) 17 [VEC_RNG_CFG t k]

/-- The addresses that control flow can reach from a bundle address, given those already known. -/
def flowFrom (imem : SMap (BitVec 256)) (fuel : Nat) (todo seen : List Nat) : List Nat :=
  match fuel with
  | 0 => seen
  | k + 1 =>
    match todo with
    | [] => seen
    | a :: rest =>
      if seen.contains a ∨ 2048 ≤ a then flowFrom imem k rest seen
      else
        let b := mapGet 0 imem a
        let next := match bndCop b with
          | 2 => [a + 1, a + bnd b 229 10 + 1]
          | 3 => [bnd b 218 11]
          | 4 => [a + 1, bnd b 218 11]
          | 6 => []
          | _ => [a + 1]
        flowFrom imem k (next ++ rest) (a :: seen)

/-- The bundle addresses of a program slot on a tile: the range the loader recorded, or where none is recorded
what control flow reaches from the entry. -/
def State.slotBundles (s : State) (p t : Nat) : List Nat :=
  let imem := (s.tile t).imem
  let addrs := if s.slotCount p = 0 then
      flowFrom imem 8192 [fld (s.reg (FRM_PROG_ENTRY p)) 0 11] []
    else (imem.map fun e => e.1).filter fun a => decide (s.slotFirst p ≤ a) && decide (a < s.slotFirst p + s.slotCount p)
  addrs.filter fun a => mapGet 0 imem a != 0

/-- The pass descriptors that the bundles of a slot on a tile can start (R110): each PASS with every value its
index can take. -/
def State.passDescs (s : State) (p t : Nat) : List Nat :=
  let bs := (s.slotBundles p t).map fun a => mapGet 0 (s.tile t).imem a
  let most := fun (k : Nat) => bs.foldl (fun m b =>
    if bndCop b = 1 ∧ bnd b 196 2 = k then max m (bnd b 202 16) else m) 0
  (bs.flatMap fun b =>
    if bnd b 0 2 ≠ 1 then []
    else
      let d := bnd b 2 6
      let ind := bnd b 11 3
      if ind < 4 then [d] else (List.range (min 64 (most (ind - 4) + 1))).map fun j => (d + j) % 64).eraseDups

/-- The rule of R110. -/
def violPasses (n : State) : Viols :=
  ((List.range 64).filter fun p => bit (n.reg (FRM_PROG_CFG p)) 31).flatMap fun p =>
    ((List.range n.tileCount).filter fun t => n.maskBit (FRM_USED p 0) t).flatMap fun t =>
      (n.passDescs p t).flatMap fun d =>
        match descBad fun i => n.reg (MXA_DESC t d i) with
        | some i => [(17, MXA_DESC t d i)]
        | none => []

/-- The rule of R169. -/
def violHandlers (n : State) (t : Nat) : Viols :=
  (List.range 16).flatMap fun k =>
    let m := n.reg (MUL_HMATCH t k)
    viol (bit (n.reg (MUL_HADDR t k)) 31 && m.extractLsb' 0 16 &&& ~~~ (m.extractLsb' 16 16) != 0) 17 [MUL_HMATCH t k]

/-- The stream descriptors of a tile with a word that differs from its reset value: channel and number. -/
def State.liveDescs (s : State) (t : Nat) : List (Nat × Nat) :=
  ((s.regs.filter fun e => decide (STR_DESC t 0 0 0 ≤ e.1) && decide (e.1 < STR_DESC t 0 0 0 + 0x1000)).map fun e =>
    ((e.1 - STR_DESC t 0 0 0) / 0x400, (e.1 - STR_DESC t 0 0 0) / 0x20 % 32)).eraseDups

/-- The rules of R240 on a descriptor. -/
def violStream (n : State) (t c d : Nat) : Viols :=
  let w := n.strDesc t c d
  let at' := fun (i : Nat) => STR_DESC t c d i
  let g := fun (i lo len : Nat) => fld (w.getD i 0) lo len
  let mode := descMode w
  let flat := mode == 0 || mode == 2
  let beyond := if descRowdir w then t % 32 else 31 - t % 32
  let size := descRsize w
  viol (mode == 3 || g 0 13 3 != 0) 17 [at' 0] ++ viol (g 1 20 12 != 0) 17 [at' 1]
    ++ viol (g 2 30 2 != 0) 17 [at' 2] ++ viol (g 3 24 8 != 0) 17 [at' 3]
    ++ viol (mode != 0 && g 6 0 32 != 0) 17 [at' 6]
    ++ viol (flat && size % 4 != 0) 17 [at' 2] ++ viol (flat && descLaddr w % 4 != 0) 17 [at' 1]
    ++ viol (decide (sliceBytes < descLaddr w + descCount w * size)) 17 [at' 1]
    ++ viol (mode == 2 && decide (sliceBytes < descIdx w + descCount w * (if descIfmt w then 2 else 4))) 17 [at' 0]
    ++ viol (mode == 1 && descLaddr w % 64 != 0) 17 [at' 1]
    ++ viol (mode == 1 && size != 16 && size != 32 && size != 64) 17 [at' 2]
    ++ viol (mode == 1 && decide (beyond < descReach w)) 17 [at' 0]

/-- Whether landing port `q` would be open after the commit (R275). -/
def portAfter (s n : State) (t q : Nat) : Bool :=
  let cfg := n.reg (MSG_LAND_CFG t q)
  if (mapFind s.shadow (MSG_LAND_CFG t q)).isSome then bit cfg 31 && fld cfg 14 8 != 0 else s.portOpen t q

/-- The rules of R275 on the ports of a tile that are open after the commit. -/
def violLanding (s n : State) (t : Nat) : Viols :=
  let ports := (List.range 4).filter (portAfter s n t)
  let cfg := fun (q : Nat) => n.reg (MSG_LAND_CFG t q)
  ports.flatMap fun q =>
    viol (decide (sliceBytes < fld (cfg q) 0 14 * 64 + fld (cfg q) 14 8 * 16)) 17 [MSG_LAND_CFG t q]
      ++ viol (ports.any fun r => decide (q < r) && fld (cfg q) 22 4 == fld (cfg r) 22 4) 17 [MSG_LAND_CFG t q]

/-- The rules of R279 on the templates of a tile. -/
def violTemplates (n : State) (t : Nat) : Viols :=
  (List.range 32).flatMap fun m =>
    viol (fld (n.template t m 0) 28 2 == 3 || bit (n.template t m 0) 31) 17 [MSG_TPL t m 0]
      ++ viol (fld (n.template t m 1) 28 4 != 0) 17 [MSG_TPL t m 1]
      ++ viol (n.template t m 3 != 0) 17 [MSG_TPL t m 3]

/-- The rules of R380 on a tap. -/
def violTap (n : State) (t k : Nat) : Viols :=
  let w := fun (i : Nat) => n.reg (GOS_TAP t k i)
  let mode := fld (w 0) 6 2
  let base := fld (w 1) 0 14
  let lines := fld (w 1) 16 15
  let ptile := fld (w 2) 0 10
  let ptap := fld (w 2) 10 2
  let prank := fld (w 2) 16 13
  let q := fun (i : Nat) => n.reg (GOS_TAP ptile ptap i)
  let mate := fld (q 0) 6 2 == 1 && fld (q 0) 0 6 == fld (w 0) 0 6 && fld (q 1) 16 15 == lines
    && fld (q 2) 0 10 == t && fld (q 2) 10 2 == k
  let flock := match n.rankModule prank with
    | some (f, _) => f == n.ownFlock
    | none => false
  let other := if ptile < n.tileCount then min (GOS_TAP t k 0) (GOS_TAP ptile ptap 0) else GOS_TAP t k 0
  viol (mode == 3 || fld (w 0) 8 24 != 0) 17 [GOS_TAP t k 0]
    ++ viol (lines == 0 || decide (16384 < lines) || decide (sliceBytes < (base + lines) * 64) || fld (w 1) 14 2 != 0
      || bit (w 1) 31) 17 [GOS_TAP t k 1]
    ++ viol (fld (w 2) 12 4 != 0 || fld (w 2) 29 3 != 0) 17 [GOS_TAP t k 2]
    ++ viol (w 3 != 0) 17 [GOS_TAP t k 3]
    ++ (if mode = 1 then
        viol (prank != selfRank || decide (n.tileCount ≤ ptile) || ptile % 32 / 8 == t % 32 / 8) 17 [GOS_TAP t k 2]
          ++ viol (decide (ptile < n.tileCount) && !mate) 17 [other]
      else if mode = 2 then
        viol (prank == selfRank) 17 [GOS_TAP t k 2]
          ++ viol (prank != selfRank && prank == n.ownRank) 17 [FAB_OWN_RANK]
          ++ viol (prank != selfRank && decide (fld (n.reg FAB_RANKS) 0 13 ≤ prank)) 17 [FAB_RANKS]
          ++ viol (prank != selfRank && decide (prank < fld (n.reg FAB_RANKS) 0 13) && !flock) 17 [FAB_RANK prank]
      else [])

/-- The rules of the tile windows. -/
def violTiles (s n : State) : Viols :=
  (n.touchedTiles.flatMap fun t =>
    (List.range 8).flatMap (violRng n t) ++ violHandlers n t
      ++ viol (fld (n.reg (TIL_LATPIN t)) 18 14 != 0) 17 [TIL_LATPIN t]
      ++ (n.liveDescs t).flatMap (fun d => violStream n t d.1 d.2)
      ++ violLanding s n t ++ violTemplates n t)
    ++ n.liveTaps.flatMap (fun x => violTap n x.1 x.2) ++ violPasses n

/-- Every violation of a commit that takes `s` to the registers of `n`. (DEDUCED, log 65) -/
def violations (s n : State) : Viols :=
  violFrames s n ++ violPairs s n ++ violClock s n ++ violFabric n ++ violWindows n ++ violColls n ++ violPorts n
    ++ violGoose n ++ violHbm n ++ violDdr n ++ violTiles s n

/-! ### What a commit does besides (R96, R99, R275, R292) -/

/-- The ports and streams of tile `t` that the shadows wrote. -/
def commitTile (s n : State) (t : Nat) : State :=
  let wrote := fun (o : Nat) => (mapFind s.shadow o).isSome
  let n := (List.range 4).foldl (fun n q =>
    if !wrote (MSG_LAND_CFG t q) then n
    else
      let on := portAfter s n t q
      let n := n.modTile t fun x => { x with landOpen := mapSet false x.landOpen q on }
      if on then n.setReg (MSG_LAND_WR t q) 0 else n) n
  (List.range 8).foldl (fun n k =>
    let pos := wrote (VEC_RNG_POS_LO t k) || wrote (VEC_RNG_POS_HI t k)
    let any := pos || wrote (VEC_RNG_CFG t k) || wrote (VEC_RNG_ID t k)
    let r := n.rngOf t k
    let r := if pos then { r with cur := n.reg64 (VEC_RNG_POS_LO t k) } else r
    let hw := any && bit (n.reg (VEC_RNG_CFG t k)) 2
    let r := if hw then { r with hwKey := some (Config.entropy n.entropyCount) } else r
    let n := if hw then { n with entropyCount := n.entropyCount + 1 } else n
    if any then n.modTile t fun x => { x with rng := mapSet rngReset x.rng k r } else n) n

/-- A link or host port whose ENABLE the commit clears goes DOWN, one whose ENABLE it sets trains. -/
def commitLink (s n : State) (l : Nat) : State :=
  let was := bit (s.reg (linkCfg l)) 0
  let now := bit (n.reg (linkCfg l)) 0
  if was ∧ !now then (n.linkDown l 5).setLinkState l lkDown
  else if !was ∧ now then n.setLinkState l lkTraining
  else n

/-- The values take effect (R62). -/
def commitApply (s n : State) : State :=
  let tiles := ((s.shadow.filter fun e => decide (0x40000000 ≤ e.1)).map fun e =>
    (e.1 - 0x40000000) / 0x100000).eraseDups
  let n := tiles.foldl (fun n t => commitTile s n t) n
  let n := (List.range 34).foldl (fun n l => commitLink s n l) n
  let n := match n.routesNext with
    | some rs => { n with routes := rs, routesNext := none }
    | none => n
  n.setReg FRM_COMMIT_STATUS 0

/-- A commit (R62, R64): all shadows together, or none. -/
def commit (s : State) : State :=
  if s.shadow.isEmpty ∧ s.routesNext.isNone then s.setReg FRM_COMMIT_STATUS 0
  else
    let n := applyShadow s
    match firstViol (violations s n) with
    | none => commitApply s n
    | some (b, o) =>
      let s := s.setReg FRM_COMMIT_STATUS (BitVec.ofNat 32 (2 + b * 2 ^ 8))
      (s.setReg FRM_COMMIT_ERR (BitVec.ofNat 32 o)).orReg FRM_STATUS 4

/-! ### Commit requests (R63) -/

/-- FRM_COMMIT_STATUS as it reads: COMMIT_PENDING while a request is pending. -/
def commitStatus (s : State) : BitVec 32 := if s.frame.commitReq.isSome then 1 else s.reg FRM_COMMIT_STATUS

/-- Set or withdraw the pending request. -/
def State.setCommitReq (s : State) (r : Option CommitReq) : State := { s with frame := { s.frame with commitReq := r } }

/-- Refuse a request with a code: nothing is pending. -/
def commitRefuse (s : State) (code : Nat) : State :=
  (s.setCommitReq none).setReg FRM_COMMIT_STATUS (BitVec.ofNat 32 code)

/-- AT_NEXT_TICK. -/
def commitAtNext (s : State) : State := s.setCommitReq (some .atNextTick)

/-- AT_COUNT: refused where the tick has passed. -/
def commitAtCount (s : State) : State :=
  let c := s.reg64 FRM_COMMIT_AT_LO
  if c.toNat ≤ (s.reg64 FRM_TICK_LO).toNat then commitRefuse s 4 else s.setCommitReq (some (.atCount c))

/-- NOW: at once in IDLE or SAFE. -/
def commitNow (s : State) : State :=
  if s.frmState = 0 ∨ s.frmState = 3 then commit (s.setCommitReq none) else commitRefuse s 3

/-- CANCEL. -/
def commitCancel (s : State) : State := s.setCommitReq none

/-- A write of FRM_COMMIT.OP; other values have no action. -/
def commitOp (s : State) (op : Nat) : State :=
  match op with
  | 1 => commitAtNext s
  | 2 => commitAtCount s
  | 3 => commitNow s
  | 4 => commitCancel s
  | _ => s

/-- Step 2 of a tick with count `c` (R55, R63). -/
def commitTick (s : State) (c : BitVec 64) : State :=
  match s.frame.commitReq with
  | some .atNextTick => commit (s.setCommitReq none)
  | some (.atCount n) => if n = c then commit (s.setCommitReq none) else s
  | none => s

/-! ### Commands -/

/-- AT_NEXT_TICK (R63). -/
def execAtNextTick (s : State) : Host.Outcome State Fault Refusal := .next (commitAtNext s)

/-- AT_COUNT (R63). -/
def execAtCount (s : State) : Host.Outcome State Fault Refusal := .next (commitAtCount s)

/-- NOW (R63). -/
def execNow (s : State) : Host.Outcome State Fault Refusal := .next (commitNow s)

/-- CANCEL (R63). -/
def execCancel (s : State) : Host.Outcome State Fault Refusal := .next (commitCancel s)

end Sys2Proof.Machine
end

