-- ==== Sys2Proof/Machine/HostRing.lean ====
section
/-! DEFINITION. The host link's token, rings and completion records (R422 to R442). The execution of descriptors
and host accesses follow the register space (HostCmds). -/

namespace Sys2Proof.Machine

/-! ### The ownership token (R429 to R432) -/

/-- HLK_OWN.STATE: 0 none, 1 port 0, 2 port 1. -/
def State.ownState (s : State) : Nat := fld (s.reg HLK_OWN) 0 2

/-- HLK_OWN.GEN. -/
def State.ownGen (s : State) : Nat := fld (s.reg HLK_OWN) 16 16

/-- Whether a port owns the token. -/
def State.owns (s : State) (p : Nat) : Bool := s.ownState == p + 1

/-- Whether a port is UP. -/
def State.portUp (s : State) (p : Nat) : Bool := s.linkUp (32 + p)

/-- Actions 2 to 4 of R431: the record of the change, both rings disabled, the event. -/
def ownChange (s : State) (reason : Nat) : State :=
  let s := s.setReg HLK_OWN_LAST (BitVec.ofNat 32 (s.ownState + reason * 2 ^ 4))
  let s := (s.setRegFld HLK_RING_STATUS 0 1 0).setRegFld HLK_CPL_STATUS 0 1 0
  { s.orReg HLK_EVENT 2 with hlk := { s.hlk with queue := [] } }

/-- A grant (R431). -/
def ownGrant (s : State) (p reason : Nat) : State :=
  let gen := (s.ownGen + 1) % 2 ^ 16
  let s := ownChange s reason
  { s.setReg HLK_OWN (BitVec.ofNat 32 (p + 1 + gen * 2 ^ 16)) with hlk := { s.hlk with renewAt := s.us } }

/-- The token is set to none (R430, R431). -/
def ownRelease (s : State) (reason : Nat) : State := (ownChange s reason).setRegFld HLK_OWN 0 2 0

/-- Whether the owning port has been out of UP long enough for a takeover (R430). -/
def ownDown (s : State) : Bool :=
  match mapFind s.hlk.downAt (s.ownState - 1) with
  | some t => decide (t + fld (s.reg HLK_TAKEOVER_US) 0 16 ≤ s.us)
  | none => false

/-- Whether the lease has run out. (DEDUCED, log 68) -/
def leaseOut (s : State) : Bool :=
  let lease := fld (s.reg HLK_LEASE_US) 0 20
  decide (0 < lease) && decide (s.hlk.renewAt + lease ≤ s.us)

/-- HLK_CLAIM.REQ by a port: the state, and whether the claim was granted (R430). -/
def hlkClaim (s : State) (p : Nat) : State × Bool :=
  if s.ownState = 0 then (ownGrant s p 1, true)
  else if s.owns p then (ownGrant s p 4, true)
  else if ownDown s then (ownGrant s p 2, true)
  else if leaseOut s then (ownGrant s p 3, true)
  else (s.orReg HLK_EVENT 1, false)

/-- HLK_CLAIM.RELEASE by a port: by the owner only. -/
def hlkRelease (s : State) (p : Nat) : State := if s.owns p then ownRelease s 5 else s

/-- HLK_RENEW.RENEW by a port: by the owner only. -/
def hlkRenew (s : State) (p : Nat) : State :=
  if s.owns p then { s with hlk := { s.hlk with renewAt := s.us } } else s

/-! ### Completion records (R439 to R442) -/

/-- Send a packet to the host behind a port, in flits of its own. -/
def State.hostEmit (s : State) (p : Nat) (pkt : HostPacket) : State :=
  let n := (24 + pkt.data.length + 247) / 248
  let s := s.modLink (32 + p) fun k => { k with
    tx := k.tx + BitVec.ofNat 12 n
    replay := k.replay ++ (List.range n).map fun i => (k.tx + BitVec.ofNat 12 i, none) }
  { s with hlk := { s.hlk with sent := s.hlk.sent ++ [(p, pkt)] } }

/-- The two packets of a record (R441): its first 48 bytes, then the last 16 with ORD. -/
def sendRecord (s : State) (p seq : Nat) (body : List (BitVec 8)) : State :=
  let a := s.hlk.cplBase + 64 * (seq % max 1 s.hlk.cplSize)
  let phase := seq / max 1 s.hlk.cplSize % 2
  let tail := List.replicate 8 0 ++ leBytes 4 seq ++ leBytes 2 (min s.hlk.lost 65535) ++ leBytes 1 phase ++ [0]
  let one := fun (off : Nat) (ord : Bool) (bs : List (BitVec 8)) =>
    (⟨8, 0, ord, false, BitVec.ofNat 64 (a + off), 0, bs, []⟩ : HostPacket)
  (s.hostEmit p (one 0 false body)).hostEmit p (one 0x30 true tail)

/-- Whether the next record is lost (R441). -/
def recordLost (s : State) : Bool :=
  let seq := (s.reg HLK_CPL_SEQ).toNat
  !bit (s.reg HLK_CPL_STATUS) 0 || s.ownState == 0 || !s.portUp (s.ownState - 1)
    || decide (s.hlk.cplSize ≤ (seq + 2 ^ 32 - (s.reg HLK_CPL_CONS).toNat) % 2 ^ 32)

/-- Produce a completion record: its bytes 0x00 to 0x2F (R439, R441). -/
def cplRecord (s : State) (body : List (BitVec 8)) : State :=
  let seq := (s.reg HLK_CPL_SEQ).toNat
  let next := fun (s : State) => s.setReg HLK_CPL_SEQ (BitVec.ofNat 32 (seq + 1))
  if recordLost s then
    let s := ((next s).incReg HLK_CPL_LOST).orReg HLK_EVENT 8
    { s with hlk := { s.hlk with lost := s.hlk.lost + 1 } }
  else
    let s := next (sendRecord s (s.ownState - 1) seq body)
    { s with hlk := { s.hlk with lost := 0 } }

/-- Bytes 0x00 to 0x2F of a record of R442. -/
def recordBody (kind : Nat) (head : List (BitVec 8)) (tick : Nat) (slack tile gen batch counts detail status : Nat) :
    List (BitVec 8) :=
  leBytes 1 kind ++ head ++ leBytes 8 tick ++ leBytes 4 slack ++ leBytes 2 tile ++ leBytes 2 gen ++ leBytes 8 batch
    ++ leBytes 4 counts ++ leBytes 4 detail ++ leBytes 1 status ++ List.replicate 7 0

/-- A COMMAND record (R438, R442): cookie, descriptor number, status and detail. -/
def commandRecord (s : State) (cookie : BitVec 64) (num status detail : Nat) : State :=
  cplRecord s (recordBody 2 (List.replicate 7 0) (s.reg64 FRM_TICK_LO).toNat 0 0 s.ownGen cookie.toNat num detail status)

/-- An OWNER record (R439, R442). -/
def ownerRecord (s : State) : State :=
  let last := s.reg HLK_OWN_LAST
  cplRecord s (recordBody 3 (List.replicate 7 0) (s.reg64 FRM_TICK_LO).toNat 0 (fld last 0 2) s.ownGen 0 last.toNat 0 0)

/-- HLK_CPL_CTRL.ENABLE (R440). -/
def cplEnable (s : State) : State :=
  let base := (s.reg64 HLK_CPL_BASE_LO).toNat
  let size := fld (s.reg HLK_CPL_SIZE) 0 16
  if base % 64 ≠ 0 then s.setRegFld HLK_CPL_STATUS 4 4 2
  else if size = 0 then s.setRegFld HLK_CPL_STATUS 0 1 0
  else
    let s := (s.setRegFld HLK_CPL_STATUS 0 1 1).setRegFld HLK_CPL_STATUS 4 4 1
    ownerRecord { s with hlk := { s.hlk with cplBase := base, cplSize := size } }

/-- HLK_CPL_CTRL.DISABLE. -/
def cplDisable (s : State) : State := s.setRegFld HLK_CPL_STATUS 0 1 0

/-! ### The command ring (R433 to R436) -/

/-- Whether a ring is refused with RING_CFG (R434). -/
def ringBad (s : State) (a size : Nat) : Bool :=
  a % 64 != 0 || !s.rankLocal (addrRank a) || (addrSpace a != 1 && addrSpace a != 2)
    || decide (s.spaceEnd (addrSpace a) < addrOff a + 64 + 64 * size)

/-- A field of the ring header. -/
def ringField (s : State) (a o : Nat) : State × Nat :=
  let (s, bs, _) := s.spaceRead (addrSpace a) (addrOff a + o) 4
  (s, leNat bs)

/-- CONS, in the header of a ring. -/
def ringPutCons (s : State) (a n : Nat) : State := s.spaceWrite (addrSpace a) (addrOff a + 8) (leBytes 4 n) []

/-- HLK_RING_CTRL.ENABLE (R434). (DEDUCED, log 69) -/
def ringEnable (s : State) : State :=
  let a := (s.reg64 HLK_RING_BASE_LO).toNat
  let size := fld (s.reg HLK_RING_SIZE) 0 16
  let off := fun (s : State) => s.setRegFld HLK_RING_STATUS 0 1 0
  if size = 0 then { off s with hlk := { s.hlk with queue := [] } }
  else if ringBad s a size then { (off s).setRegFld HLK_RING_STATUS 4 4 2 with hlk := { s.hlk with queue := [] } }
  else
    let (s, prod) := ringField s a 0
    let s := (s.setRegFld HLK_RING_STATUS 0 1 1).setRegFld HLK_RING_STATUS 4 4 1
    let s := ringPutCons (s.setReg HLK_RING_CONS (BitVec.ofNat 32 prod)) a prod
    { s with hlk := { s.hlk with base := a, size := size, queue := [] } }

/-- HLK_RING_CTRL.DISABLE: after the executing descriptor. -/
def ringDisable (s : State) : State :=
  { s.setRegFld HLK_RING_STATUS 0 1 0 with hlk := { s.hlk with queue := [] } }

/-- A sample of the ring (R435). (DEDUCED, log 70) -/
def ringSample (s : State) : State :=
  if !bit (s.reg HLK_RING_STATUS) 0 then s
  else
    let (s, prod) := ringField s s.hlk.base 0
    let cons := (s.reg HLK_RING_CONS).toNat
    let n := (prod + 2 ^ 32 - cons) % 2 ^ 32
    if s.hlk.size < n then
      let s := ((ringDisable s).setRegFld HLK_RING_STATUS 4 4 3).orReg HLK_EVENT 4
      -- the record's cookie and descriptor number are not stated: free values
      let (cookie, s) := s.free
      let (num, s) := s.free
      commandRecord s (BitVec.ofNat 64 cookie) num 7 n
    else
      let running := match s.hlk.exec with
        | some e => [e.num]
        | none => []
      let all := (List.range n).map fun i => (cons + i) % 2 ^ 32
      { s with hlk := { s.hlk with queue := all.filter fun i => !running.contains i } }

/-- SUBTICK_SAMPLE (R435): an interval of FRM_SUBTICK ns ends while the open frame arms no program. -/
def subtickSample (s : State) : State :=
  if fld (s.reg FRM_SUBTICK) 0 24 = 0 ∨ s.frame.armed.isSome then s else ringSample s

/-- A descriptor completes (R436, R438): CONS advances; `mark` asks for a record whatever the status. -/
def descDone (s : State) (num base : Nat) (notify mark : Bool) (cookie : BitVec 64) (status detail : Nat) : State :=
  let s := if (s.reg HLK_RING_CONS).toNat = num then s.setReg HLK_RING_CONS (BitVec.ofNat 32 (num + 1)) else s
  let s := (ringPutCons s base ((num + 1) % 2 ^ 32)).setRegFld HLK_RING_STATUS 1 1 0
  let s := { s with hlk := { s.hlk with exec := none } }
  if status ≠ 1 ∨ notify ∨ mark then commandRecord s cookie num status detail else s

/-- The image load that a LOAD descriptor started has ended (R437). (DEDUCED, log 112) -/
def hostLoadEnded (s : State) (code : Nat) : State :=
  match s.hlk.exec with
  | some ⟨num, base, notify, cookie, .load⟩ => descDone s num base notify false cookie 1 code
  | _ => s

/-- A WAIT_TICK completes at the tick of count `c` (R437). -/
def hostTick (s : State) (c : BitVec 64) : State :=
  match s.hlk.exec with
  | some ⟨num, base, notify, cookie, .tick n⟩ =>
    if n.toNat ≤ c.toNat then descDone s num base notify false cookie 1 0 else s
  | _ => s

/-! ### Commands -/

/-- CLAIM (R430). -/
def execClaim (p : Fin 2) (s : State) : Host.Outcome State Fault Refusal := .next (hlkClaim s p).1

/-- RELEASE (R431). -/
def execRelease (p : Fin 2) (s : State) : Host.Outcome State Fault Refusal := .next (hlkRelease s p)

/-- RENEW (R430). -/
def execRenew (p : Fin 2) (s : State) : Host.Outcome State Fault Refusal := .next (hlkRenew s p)

/-- RING_ENABLE (R434). -/
def execRingEnable (s : State) : Host.Outcome State Fault Refusal := .next (ringEnable s)

/-- RING_DISABLE (R434). -/
def execRingDisable (s : State) : Host.Outcome State Fault Refusal := .next (ringDisable s)

/-- CPL_ENABLE (R440). -/
def execCplEnable (s : State) : Host.Outcome State Fault Refusal := .next (cplEnable s)

/-- CPL_DISABLE (R440). -/
def execCplDisable (s : State) : Host.Outcome State Fault Refusal := .next (cplDisable s)

/-- PORT_RETRAIN (R425). -/
def execPortRetrain (p : Fin 2) (s : State) : Host.Outcome State Fault Refusal := .next (linkRetrain s (32 + p))

/-- SUBTICK_SAMPLE (R435). -/
def execSubtickSample (s : State) : Host.Outcome State Fault Refusal := .next (subtickSample s)

end Sys2Proof.Machine
end

