-- ==== Sys2Proof/Machine/Mule.lean ====
section
/-! DEFINITION. The Mule core (R147 to R168): fetch, the encodings of R150 and R151, the operations, check
of faults, waiting, signals, messages and handlers.

A command of this family names the instruction with its operand fields. It acts where the Mule of the tile
is at an instruction boundary and the word at its pc is that instruction; a fault of the fetch is taken
instead. -/

namespace Sys2Proof.Machine

/-! ### Encoding (R150) -/

/-- Form A. -/
def muleA (op : Nat) (d a b : BitVec 5) : BitVec 32 :=
  BitVec.ofNat 32 (op * 2 ^ 26 + d.toNat * 2 ^ 21 + a.toNat * 2 ^ 16 + b.toNat * 2 ^ 11)

/-- Form B, and form D with its two sources in the places of d and a. -/
def muleB (op : Nat) (d a : BitVec 5) (imm : BitVec 16) : BitVec 32 :=
  BitVec.ofNat 32 (op * 2 ^ 26 + d.toNat * 2 ^ 21 + a.toNat * 2 ^ 16 + imm.toNat)

/-- Form C. -/
def muleC (op : Nat) (d : BitVec 5) (imm : BitVec 21) : BitVec 32 :=
  BitVec.ofNat 32 (op * 2 ^ 26 + d.toNat * 2 ^ 21 + imm.toNat)

/-- Form E. -/
def muleE (op : Nat) (off : BitVec 26) : BitVec 32 := BitVec.ofNat 32 (op * 2 ^ 26 + off.toNat)

/-- The opcodes of form A (R151). -/
def muleFormA (op : Nat) : Bool := decide (op ≤ 0x0C) || (decide (0x39 ≤ op) && decide (op ≤ 0x3F))

/-- The opcodes of R151. -/
def muleOpcode (op : Nat) : Bool :=
  decide (op ≤ 0x0C) || (decide (0x10 ≤ op) && decide (op ≤ 0x18)) || (decide (0x20 ≤ op) && decide (op ≤ 0x24))
    || (decide (0x28 ≤ op) && decide (op ≤ 0x2A)) || (decide (0x30 ≤ op) && decide (op ≤ 0x3F))

/-- Whether a word raises ILLEGAL: an opcode absent from R151, or reserved bits of form A. -/
def muleIllegal (w : BitVec 32) : Bool :=
  !muleOpcode (fld w 26 6) || (muleFormA (fld w 26 6) && fld w 0 11 != 0)

/-! ### Registers and faults -/

/-- Read a scalar register; s0 reads 0 (R148). -/
def muleReg (m : Mule) (r : BitVec 5) : BitVec 32 := if r = 0 then 0 else mapGet 0 m.regs r.toNat

/-- Write a scalar register; a write to s0 is ignored (R148). -/
def muleSet (m : Mule) (r : BitVec 5) (v : BitVec 32) : Mule :=
  if r = 0 then m else { m with regs := mapSet 0 m.regs r.toNat v }

/-- A scalar register of a tile's Mule. -/
def State.sreg (s : State) (t : Nat) (r : BitVec 5) : BitVec 32 := muleReg (s.tile t).mule r

/-- A Mule fault (R164): the Mule stops at the faulting instruction. -/
def muleFault (s : State) (t code : Nat) : State :=
  (s.modMule t fun m => { m with
    state := .fault
    fcode := code
    faultPc := m.pc
    waitSem := none }).raiseTile t .muleFault code

def faultIllegal : Nat := 1
def faultMisaligned : Nat := 2
def faultAddr : Nat := 3
def faultImemEcc : Nat := 4
def faultData : Nat := 5
def faultHret : Nat := 6

/-- Whether a Mule is about to issue an instruction. -/
def muleReady (m : Mule) : Bool := (m.state == .running || m.state == .handler) && m.sendDest.isNone

/-- Fetch the word at the pc (R151, R164): a fetch beyond instruction memory and an uncorrectable word
fault, a corrected word counts. None where the fetch faulted. -/
def muleFetch (s : State) (t : Nat) : State × Option (BitVec 32) :=
  let m := (s.tile t).mule
  if 0x4000 ≤ m.pc.toNat then (muleFault s t faultAddr, none)
  else
    let i := m.pc.toNat / 4
    match mapFind m.imemErr i with
    | some .double => (muleFault s t faultImemEcc, none)
    | some .single => ((s.incReg (MUL_ECC_CORR t)).raiseTile t .eccCorr 0, some (mapGet 0 m.imem i))
    | none => (s, some (mapGet 0 m.imem i))

/-- Run the instruction `w` on a tile's Mule. (DESIGN CHOICE, log 34) -/
def muleRun (s : State) (t : Nat) (w : BitVec 32) (f : State → State) : State :=
  if !muleReady (s.tile t).mule then s
  else match muleFetch s t with
    | (s1, none) => s1
    | (s1, some w') => if w' = w then f s1 else s

/-- An instruction of the Mule as a command. -/
def onMule (t : Nat) (w : BitVec 32) (s : State) (f : State → State) : Host.Outcome State Fault Refusal :=
  s.onTile t fun s => muleRun s t w f

/-- Write the result of an instruction and go to the next one. -/
def muleDone (s : State) (t : Nat) (d : BitVec 5) (v : BitVec 32) : State :=
  s.modMule t fun m => { muleSet m d v with pc := m.pc + 4 }

/-- Go to the next instruction. -/
def muleNext (s : State) (t : Nat) : State := s.modMule t fun m => { m with pc := m.pc + 4 }

/-- Jump (R151): a target outside instruction memory faults at the instruction, which does not complete. -/
def muleJump (s : State) (t : Nat) (target : BitVec 32) (f : Mule → Mule) : State :=
  if 0x4000 ≤ target.toNat then muleFault s t faultAddr
  else s.modMule t fun m => { f m with pc := target }

/-! ### Arithmetic (R151) -/

/-- An operation of two operands. -/
def muleAlu (op : Nat) (x y : BitVec 32) : BitVec 32 :=
  match op with
  | 0x00 => x + y
  | 0x01 => x - y
  | 0x02 => x &&& y
  | 0x03 => x ||| y
  | 0x04 => x ^^^ y
  | 0x05 => x <<< (y.toNat % 32)
  | 0x06 => x >>> (y.toNat % 32)
  | 0x07 => x.sshiftRight (y.toNat % 32)
  | 0x08 => if x.slt y then 1 else 0
  | 0x09 => if x.ult y then 1 else 0
  | 0x0A => x * y
  | 0x0B => BitVec.ofNat 32 (x.toNat * y.toNat / 2 ^ 32)
  | _ => BitVec.ofInt 32 (x.toInt * y.toInt / 2 ^ 32)

/-- An arithmetic instruction of form A. -/
def muleArith (t op : Nat) (d a b : BitVec 5) (s : State) : Host.Outcome State Fault Refusal :=
  onMule t (muleA op d a b) s fun s => muleDone s t d (muleAlu op (s.sreg t a) (s.sreg t b))

/-- An arithmetic instruction of form B: opcode, operation and whether the immediate is
sign-extended. -/
def muleArithImm (t op alu : Nat) (sx : Bool) (d a : BitVec 5) (imm : BitVec 16) (s : State) :
    Host.Outcome State Fault Refusal :=
  onMule t (muleB op d a imm) s fun s =>
    muleDone s t d (muleAlu alu (s.sreg t a) (if sx then imm.signExtend 32 else imm.setWidth 32))

/-! ### Loads and stores (R149, R151) -/

/-- The targets of the Mule's address map (R149). -/
inductive MuleTarget where
  | dmem (off : Nat)
  | spad (off : Nat)
  | window (off : Nat)
  | fault (code : Nat)
deriving DecidableEq, Repr

/-- The target of an access of `n` bytes at an address: the map is checked before the alignment. -/
def muleTarget (a n : Nat) : MuleTarget :=
  let al := fun (x : MuleTarget) => if a % n ≠ 0 then .fault faultMisaligned else x
  if a < 0x2000 then al (.dmem a)
  else if 0x10000000 ≤ a ∧ a < 0x10100000 then al (.spad (a - 0x10000000))
  else if 0x20000000 ≤ a ∧ a < 0x20100000 ∧ n = 4 then al (.window (a - 0x20000000))
  else .fault faultAddr

/-- Load `n` bytes: the state, and the value or the fault code (R149, R164). -/
def muleLoad (s : State) (t a n : Nat) : State × Except Nat Nat :=
  match muleTarget a n with
  | .fault c => (s, .error c)
  | .dmem off =>
    let m := (s.tile t).mule
    let v := leNat ((List.range n).map fun i => mapGet 0 m.dmem (off + i))
    match mapFind m.dmemErr (off / 4) with
    | some .double => (s, .error faultData)
    | some .single => ((s.incReg (MUL_ECC_CORR t)).raiseTile t .eccCorr 0, .ok v)
    | none => (s, .ok v)
  | .spad off =>
    let (s, d) := s.spadRead t off n
    if causeJoinAll d.causes = .none then (s, .ok (leNat d.bytes)) else (s, .error faultData)
  | .window off =>
    let (s, st, v) := tileRead s (.mule t) t off
    if st = stDone then (s, .ok v.toNat) else (s, .error faultAddr)

/-- A load instruction: `n` bytes, sign- or zero-extended. -/
def muleLd (t op n : Nat) (sx : Bool) (d a : BitVec 5) (imm : BitVec 16) (s : State) :
    Host.Outcome State Fault Refusal :=
  onMule t (muleB op d a imm) s fun s =>
    match muleLoad s t (s.sreg t a + imm.signExtend 32).toNat n with
    | (s, .error c) => muleFault s t c
    | (s, .ok v) => muleDone s t d (if sx then BitVec.ofInt 32 (signed (8 * n) v) else BitVec.ofNat 32 v)

/-- Store `n` bytes: the state, and the fault code where it fails. -/
def muleStore (s : State) (t a n : Nat) (v : BitVec 32) : State × Option Nat :=
  match muleTarget a n with
  | .fault c => (s, some c)
  | .dmem off => (muleDmemWrite s t off (leBytes n v.toNat), none)
  | .spad off => (s.spadWrite t off (leBytes n v.toNat) [], none)
  | .window off =>
    let (s, st) := tileWrite s (.mule t) t off v
    (s, if st = stDone then none else some faultAddr)

/-- A store instruction. -/
def muleSt (t op n : Nat) (d a : BitVec 5) (imm : BitVec 16) (s : State) :
    Host.Outcome State Fault Refusal :=
  onMule t (muleB op d a imm) s fun s =>
    match muleStore s t (s.sreg t a + imm.signExtend 32).toNat n (s.sreg t d) with
    | (s, some c) => muleFault s t c
    | (s, none) => muleNext s t

/-! ### Branches (R151) -/

/-- The relations of the branches, by opcode. -/
def muleRel (op : Nat) (x y : BitVec 32) : Bool :=
  match op with
  | 0x30 => x == y
  | 0x31 => x != y
  | 0x32 => x.slt y
  | 0x33 => !x.slt y
  | 0x34 => x.ult y
  | _ => !x.ult y

/-- A branch. -/
def muleBr (t op : Nat) (a b : BitVec 5) (off : BitVec 16) (s : State) : Host.Outcome State Fault Refusal :=
  onMule t (muleB op a b off) s fun s =>
    if muleRel op (s.sreg t a) (s.sreg t b) then
      muleJump s t ((s.tile t).mule.pc + 4 * off.signExtend 32) id
    else muleNext s t

/-! ### Waiting and handlers (R157, R161 to R163) -/

/-- The WAIT ends (R157): the semaphore is decremented and its new value written to d. -/
def waitEnds (s : State) (t n : Nat) (d : BitVec 5) : State :=
  let s := s.takeSem t n
  let v : BitVec 32 := BitVec.ofNat 32 (s.sem t n)
  s.modMule t fun m => { muleSet m d v with
    pc := m.pc + 4
    state := if m.inHandler then .handler else .running
    waitSem := none }

/-- The eligible message of an inbox (R161, R162): under STRICT the first released one, else the oldest that
entered in an earlier cycle. -/
def eligible (s : State) (t : Nat) : Option InboxEntry :=
  let x := s.tile t
  x.mule.inbox.find? fun e =>
    if s.strict then e.released else decide (e.entered ≤ x.ctl.cycle) || !s.tileIssues t

/-- Dispatch a message's handler, to return to `resume` (R163). -/
def dispatchEntry (s : State) (t : Nat) (e : InboxEntry) (resume : BitVec 32) : State :=
  let flags := e.msg.ord.toNat + 2 * e.msg.be.toNat + 4 * e.msg.notice.toNat + 8 * e.msg.user.toNat
  let addr := fld (s.reg (MUL_HADDR t e.handler)) 0 12 * 4
  s.modMule t fun m =>
    let m := muleSet m 28 (e.msg.payload.extractLsb' 0 32)
    let m := muleSet m 29 (e.msg.payload.extractLsb' 32 32)
    let m := muleSet m 30 (BitVec.ofNat 32 (e.msg.tag.toNat + e.msg.epoch.toNat * 2 ^ 16 + flags * 2 ^ 24))
    let m := muleSet m 31 resume
    { m with
      pc := BitVec.ofNat 32 addr
      state := .handler
      inHandler := true
      waitSem := none
      inbox := m.inbox.erase e }

/-- HANDLER_DISPATCH (R157, R161): in a WAIT whose semaphore is 0, or in the idle-dispatch state, an eligible
message's handler runs. Handlers do not nest. -/
def handlerDispatch (s : State) (t : Nat) : State :=
  let m := (s.tile t).mule
  let point : Bool := match m.state, m.waitSem with
    | .waiting, some (n, _) => s.sem t n == 0
    | .halted, _ => s.muleIdle t
    | _, _ => false
  if !point || m.inHandler || (s.tile t).gated then s
  else match eligible s t with
    | some e => dispatchEntry s t e m.pc
    | none => s

/-- YIELD (R161): a dispatch point; inside a handler it dispatches nothing (R163). -/
def yield (s : State) (t : Nat) : State :=
  let m := (s.tile t).mule
  if m.inHandler then muleNext s t
  else match eligible s t with
    | some e => dispatchEntry s t e (m.pc + 4)
    | none => muleNext s t

/-- HRET (R163). -/
def hret (s : State) (t : Nat) : State :=
  let m := (s.tile t).mule
  let target := muleReg m 31
  if !m.inHandler then muleFault s t faultHret
  else if 0x4000 ≤ target.toNat then muleFault s t faultAddr
  else if target.toNat % 4 ≠ 0 then muleFault s t faultMisaligned
  else s.modMule t fun m => { m with pc := target, inHandler := false, state := .running }

/-! ### Signals and messages (R158, R159) -/

/-- SIG (R158). -/
def muleSig (s : State) (t : Nat) (target inc : BitVec 32) : State :=
  if bit target 15 then
    muleNext { s with dsigs := s.dsigs ++ [(fld target 0 8, inc.toNat)] } t
  else
    let u := fld target 5 10
    if s.tileCount ≤ u then muleFault s t faultAddr
    else if u = t then muleNext (s.signalSem t (fld target 0 5) inc.toNat) t
    else muleNext (signalTarget s (fld target 0 16) inc.toNat) t

/-- The message a SEND builds; NOTICE is cleared (R159, R266). -/
def muleMessage (m : Mule) : Msg :=
  let w := muleReg m 24
  let x := muleReg m 25
  { rank := w.extractLsb' 0 13, tile := w.extractLsb' 13 10, port := w.extractLsb' 23 4,
    tag := x.extractLsb' 0 16, epoch := x.extractLsb' 21 8, ord := bit x 16, be := bit x 17,
    notice := false, user := x.extractLsb' 19 2, payload := muleReg m 27 ++ muleReg m 26 }

/-- SEND (R159): the Mule holds the instruction until the message is answered. The manual gives a scheduled
SEND to another rank no transfer number: it is a free value (log 22). -/
def muleSend (s : State) (t : Nat) (d : BitVec 5) : State :=
  let m := muleMessage (s.tile t).mule
  let (v, s) := if !m.be ∧ !s.rankLocal m.rank.toNat then s.free else (0, s)
  sendMsg (s.modMule t fun x => { x with sendDest := some d.toNat }) (.mule t) (s.cycle t) (v % 2 ^ 16) m

/-! ### The commands -/

/-- ADD (R151). -/
def execAdd (t : Nat) (d a b : BitVec 5) (s : State) : Host.Outcome State Fault Refusal :=
  muleArith t 0x00 d a b s
/-- SUB (R151). -/
def execSub (t : Nat) (d a b : BitVec 5) (s : State) : Host.Outcome State Fault Refusal :=
  muleArith t 0x01 d a b s
/-- AND (R151). -/
def execAnd (t : Nat) (d a b : BitVec 5) (s : State) : Host.Outcome State Fault Refusal :=
  muleArith t 0x02 d a b s
/-- OR (R151). -/
def execOr (t : Nat) (d a b : BitVec 5) (s : State) : Host.Outcome State Fault Refusal :=
  muleArith t 0x03 d a b s
/-- XOR (R151). -/
def execXor (t : Nat) (d a b : BitVec 5) (s : State) : Host.Outcome State Fault Refusal :=
  muleArith t 0x04 d a b s
/-- SHL (R151). -/
def execShl (t : Nat) (d a b : BitVec 5) (s : State) : Host.Outcome State Fault Refusal :=
  muleArith t 0x05 d a b s
/-- SHR (R151). -/
def execShr (t : Nat) (d a b : BitVec 5) (s : State) : Host.Outcome State Fault Refusal :=
  muleArith t 0x06 d a b s
/-- SRA (R151). -/
def execSra (t : Nat) (d a b : BitVec 5) (s : State) : Host.Outcome State Fault Refusal :=
  muleArith t 0x07 d a b s
/-- SLT (R151). -/
def execSlt (t : Nat) (d a b : BitVec 5) (s : State) : Host.Outcome State Fault Refusal :=
  muleArith t 0x08 d a b s
/-- SLTU (R151). -/
def execSltu (t : Nat) (d a b : BitVec 5) (s : State) : Host.Outcome State Fault Refusal :=
  muleArith t 0x09 d a b s
/-- MUL (R151). -/
def execMul (t : Nat) (d a b : BitVec 5) (s : State) : Host.Outcome State Fault Refusal :=
  muleArith t 0x0A d a b s
/-- MULHU (R151). -/
def execMulhu (t : Nat) (d a b : BitVec 5) (s : State) : Host.Outcome State Fault Refusal :=
  muleArith t 0x0B d a b s
/-- MULH (R151). -/
def execMulh (t : Nat) (d a b : BitVec 5) (s : State) : Host.Outcome State Fault Refusal :=
  muleArith t 0x0C d a b s

/-- ADDI (R151). -/
def execAddi (t : Nat) (d a : BitVec 5) (imm : BitVec 16) (s : State) : Host.Outcome State Fault Refusal :=
  muleArithImm t 0x10 0x00 true d a imm s
/-- ANDI (R151). -/
def execAndi (t : Nat) (d a : BitVec 5) (imm : BitVec 16) (s : State) : Host.Outcome State Fault Refusal :=
  muleArithImm t 0x11 0x02 false d a imm s
/-- ORI (R151). -/
def execOri (t : Nat) (d a : BitVec 5) (imm : BitVec 16) (s : State) : Host.Outcome State Fault Refusal :=
  muleArithImm t 0x12 0x03 false d a imm s
/-- XORI (R151). -/
def execXori (t : Nat) (d a : BitVec 5) (imm : BitVec 16) (s : State) : Host.Outcome State Fault Refusal :=
  muleArithImm t 0x13 0x04 false d a imm s
/-- SHLI (R151). -/
def execShli (t : Nat) (d a : BitVec 5) (imm : BitVec 16) (s : State) : Host.Outcome State Fault Refusal :=
  muleArithImm t 0x14 0x05 false d a imm s
/-- SHRI (R151). -/
def execShri (t : Nat) (d a : BitVec 5) (imm : BitVec 16) (s : State) : Host.Outcome State Fault Refusal :=
  muleArithImm t 0x15 0x06 false d a imm s
/-- SRAI (R151). -/
def execSrai (t : Nat) (d a : BitVec 5) (imm : BitVec 16) (s : State) : Host.Outcome State Fault Refusal :=
  muleArithImm t 0x16 0x07 false d a imm s
/-- SLTI (R151). -/
def execSlti (t : Nat) (d a : BitVec 5) (imm : BitVec 16) (s : State) : Host.Outcome State Fault Refusal :=
  muleArithImm t 0x17 0x08 true d a imm s
/-- LUI (R151). -/
def execLui (t : Nat) (d : BitVec 5) (imm : BitVec 21) (s : State) : Host.Outcome State Fault Refusal :=
  onMule t (muleC 0x18 d imm) s fun s => muleDone s t d (imm.setWidth 32 <<< 11)

/-- LDW (R151). -/
def execLdw (t : Nat) (d a : BitVec 5) (imm : BitVec 16) (s : State) : Host.Outcome State Fault Refusal :=
  muleLd t 0x20 4 false d a imm s
/-- LDH (R151). -/
def execLdh (t : Nat) (d a : BitVec 5) (imm : BitVec 16) (s : State) : Host.Outcome State Fault Refusal :=
  muleLd t 0x21 2 true d a imm s
/-- LDHU (R151). -/
def execLdhu (t : Nat) (d a : BitVec 5) (imm : BitVec 16) (s : State) : Host.Outcome State Fault Refusal :=
  muleLd t 0x22 2 false d a imm s
/-- LDB (R151). -/
def execLdb (t : Nat) (d a : BitVec 5) (imm : BitVec 16) (s : State) : Host.Outcome State Fault Refusal :=
  muleLd t 0x23 1 true d a imm s
/-- LDBU (R151). -/
def execLdbu (t : Nat) (d a : BitVec 5) (imm : BitVec 16) (s : State) : Host.Outcome State Fault Refusal :=
  muleLd t 0x24 1 false d a imm s
/-- STW (R151). -/
def execStw (t : Nat) (d a : BitVec 5) (imm : BitVec 16) (s : State) : Host.Outcome State Fault Refusal :=
  muleSt t 0x28 4 d a imm s
/-- STH (R151). -/
def execSth (t : Nat) (d a : BitVec 5) (imm : BitVec 16) (s : State) : Host.Outcome State Fault Refusal :=
  muleSt t 0x29 2 d a imm s
/-- STB (R151). -/
def execStb (t : Nat) (d a : BitVec 5) (imm : BitVec 16) (s : State) : Host.Outcome State Fault Refusal :=
  muleSt t 0x2A 1 d a imm s

/-- BEQ (R151). -/
def execBeq (t : Nat) (a b : BitVec 5) (off : BitVec 16) (s : State) : Host.Outcome State Fault Refusal :=
  muleBr t 0x30 a b off s
/-- BNE (R151). -/
def execBne (t : Nat) (a b : BitVec 5) (off : BitVec 16) (s : State) : Host.Outcome State Fault Refusal :=
  muleBr t 0x31 a b off s
/-- BLT (R151). -/
def execBlt (t : Nat) (a b : BitVec 5) (off : BitVec 16) (s : State) : Host.Outcome State Fault Refusal :=
  muleBr t 0x32 a b off s
/-- BGE (R151). -/
def execBge (t : Nat) (a b : BitVec 5) (off : BitVec 16) (s : State) : Host.Outcome State Fault Refusal :=
  muleBr t 0x33 a b off s
/-- BLTU (R151). -/
def execBltu (t : Nat) (a b : BitVec 5) (off : BitVec 16) (s : State) : Host.Outcome State Fault Refusal :=
  muleBr t 0x34 a b off s
/-- BGEU (R151). -/
def execBgeu (t : Nat) (a b : BitVec 5) (off : BitVec 16) (s : State) : Host.Outcome State Fault Refusal :=
  muleBr t 0x35 a b off s
/-- JAL (R151): s1 receives the return address. -/
def execJal (t : Nat) (off : BitVec 26) (s : State) : Host.Outcome State Fault Refusal :=
  onMule t (muleE 0x36 off) s fun s =>
    muleJump s t ((s.tile t).mule.pc + 4 * off.signExtend 32) fun m => muleSet m 1 (m.pc + 4)
/-- JALR (R151). -/
def execJalr (t : Nat) (d a : BitVec 5) (imm : BitVec 16) (s : State) : Host.Outcome State Fault Refusal :=
  onMule t (muleB 0x37 d a imm) s fun s =>
    muleJump s t ((s.sreg t a + imm.signExtend 32) &&& ~~~ 3) fun m => muleSet m d (m.pc + 4)

/-- WAIT (R151, R157): the issue cycle is the first cycle of the wait. -/
def execMuleWait (t : Nat) (d a : BitVec 5) (imm : BitVec 16) (s : State) : Host.Outcome State Fault Refusal :=
  onMule t (muleB 0x38 d a imm) s fun s =>
    let n := imm.toNat % 32
    if s.sem t n = 0 then s.modMule t fun m => { m with state := .waiting, waitSem := some (n, d.toNat) }
    else waitEnds s t n d

/-- MULE_WAIT_END (R157): the semaphore of a waiting Mule is at least 1. -/
def execMuleWaitEnd (t : Nat) (s : State) : Host.Outcome State Fault Refusal :=
  s.onTile t fun s =>
    match (s.tile t).mule.state, (s.tile t).mule.waitSem with
    | .waiting, some (n, d) => if s.sem t n = 0 then s else waitEnds s t n (BitVec.ofNat 5 d)
    | _, _ => s

/-- SIG (R158). -/
def execMuleSig (t : Nat) (d a b : BitVec 5) (s : State) : Host.Outcome State Fault Refusal :=
  onMule t (muleA 0x39 d a b) s fun s => muleSig s t (s.sreg t a) (s.sreg t b)

/-- FENCE (R151): every store of the Mule is written before its next instruction. -/
def execMuleFence (t : Nat) (d a b : BitVec 5) (s : State) : Host.Outcome State Fault Refusal :=
  onMule t (muleA 0x3A d a b) s fun s => muleNext s t

/-- SEND (R159). -/
def execSend (t : Nat) (d a b : BitVec 5) (s : State) : Host.Outcome State Fault Refusal :=
  onMule t (muleA 0x3B d a b) s fun s => muleSend s t d

/-- YIELD (R161). -/
def execYield (t : Nat) (d a b : BitVec 5) (s : State) : Host.Outcome State Fault Refusal :=
  onMule t (muleA 0x3C d a b) s fun s => yield s t

/-- HRET (R163). -/
def execHret (t : Nat) (d a b : BitVec 5) (s : State) : Host.Outcome State Fault Refusal :=
  onMule t (muleA 0x3D d a b) s fun s => hret s t

/-- HALT (R151): the pc stays at the HALT (R161). -/
def execMuleHalt (t : Nat) (d a b : BitVec 5) (s : State) : Host.Outcome State Fault Refusal :=
  onMule t (muleA 0x3E d a b) s fun s =>
    s.modMule t fun m => { m with state := .halted, haltedByHalt := true }

/-- CYC (R151): the schedule cycle; on a tile that issues no bundle the model keeps no cycle count, and the
value is free (log 23). -/
def execCyc (t : Nat) (d a b : BitVec 5) (s : State) : Host.Outcome State Fault Refusal :=
  onMule t (muleA 0x3F d a b) s fun s =>
    let (v, s) := if s.tileIssues t then (s.cycle t, s) else s.free
    muleDone s t d (BitVec.ofNat 32 v)

/-- HANDLER_DISPATCH (R161). -/
def execHandlerDispatch (t : Nat) (s : State) : Host.Outcome State Fault Refusal :=
  s.onTile t fun s => handlerDispatch s t

/-- MUL_CTRL.START (R168). -/
def execMulStart (t : Nat) (s : State) : Host.Outcome State Fault Refusal :=
  s.onTile t fun s => if (s.tile t).inReset then s else muleStart s t

/-- MUL_CTRL.STOP (R168). -/
def execMulStop (t : Nat) (s : State) : Host.Outcome State Fault Refusal :=
  s.onTile t fun s => if (s.tile t).inReset then s else muleStop s t

/-- MUL_CTRL.RESUME (R168). -/
def execMulResume (t : Nat) (s : State) : Host.Outcome State Fault Refusal :=
  s.onTile t fun s => if (s.tile t).inReset then s else muleResume s t

/-- A Mule's fetch of a word with a reserved opcode or reserved bits (R151, R164). -/
def muleIllegalFetch (s : State) (t : Nat) : State :=
  if !muleReady (s.tile t).mule then s
  else match muleFetch s t with
    | (s1, none) => s1
    | (s1, some w) => if muleIllegal w then muleFault s1 t faultIllegal else s

end Sys2Proof.Machine
end

