-- ==== Sys2Proof/Machine/Loader.lean ====
section
/-! DEFINITION. The image load (R222, R223, R227 to R231), and the register writes that have a command of their
own: instruction memories, semaphore signals and landing ports (R167, R190, R275, R285, R286). -/

namespace Sys2Proof.Machine

/-! ### DMC_LOAD_CTRL (R222, R223, R229) -/

/-- Whether a START is malformed (R223, LOAD_REQUEST). -/
def loadRequestBad (s : State) (a len cop : Nat) : Bool :=
  decide (4 ≤ cop) || !s.rankLocal (addrRank a) || (addrSpace a != 1 && addrSpace a != 2) || a % 64 != 0
    || len == 0 || decide (256 * 2 ^ 20 < len) || decide (s.spaceEnd (addrSpace a) < addrOff a + len)

/-- START of the image at `a` (R222, R223). (DEDUCED, log 72) -/
def loadStartAt (s : State) (a len cop : Nat) : State :=
  if s.loadState ≠ 0 then s.setRegFld DMC_LOAD_STATUS 16 8 loadBusy
  else if loadRequestBad s a len cop then s.setRegFld DMC_LOAD_STATUS 16 8 loadRequest
  else
    let s := (s.setRegFld DMC_LOAD_STATUS 8 3 1).setReg DMC_LOAD_PROGRESS 0
    { s with load := some ⟨a, len, cop, none⟩ }

/-- DMC_LOAD_CTRL.START. -/
def loadStart (s : State) (cop : Nat) : State :=
  loadStartAt s (s.reg64 DMC_LOAD_ADDR_LO).toNat (s.reg DMC_LOAD_LEN).toNat cop

/-- The load ends with a code (R224, R228, R229); so does the LOAD descriptor that started it (R437). -/
def loadFinish (s : State) (code : Nat) : State :=
  hostLoadEnded { (s.setRegFld DMC_LOAD_STATUS 8 3 0).setRegFld DMC_LOAD_STATUS 0 8 code with load := none } code

/-- The load ends with a code and a detail (R224). -/
def loadFail (s : State) (code detail : Nat) : State :=
  loadFinish (s.setReg DMC_LOAD_DETAIL (BitVec.ofNat 32 detail)) code

/-- How much of the image a pass that stopped had read is not stated: a free value of at most the length. -/
def loadProgress (s : State) (len : Nat) : State :=
  let (v, s) := s.free
  s.setReg DMC_LOAD_PROGRESS (BitVec.ofNat 32 (v % (len + 1)))

/-- The checks of a started load (R224). -/
def loadChecks (s : State) : State :=
  match s.load with
  | none => s
  | some l =>
    if s.loadState ≠ 1 then s
    else
      let (s, bs, cs) := s.spaceRead (addrSpace l.addr) (addrOff l.addr) l.len
      match nifCheck s bs cs with
      | .error e => loadFail (loadProgress s l.len) e.1 e.2
      | .ok n =>
        let s := (s.setRegFld DMC_LOAD_STATUS 8 3 2).setReg DMC_LOAD_PROGRESS (BitVec.ofNat 32 l.len)
        { s with load := some { l with image := some n } }

/-! ### The install (R227) -/

/-- Write a shadow. -/
def State.setShadow (s : State) (off : Nat) (v : BitVec 32) : State := { s with shadow := mapPut s.shadow off v }

/-- Write 32 mask words as shadows. -/
def State.setMaskShadows (s : State) (base m : Nat) : State :=
  (List.range 32).foldl (fun s w => s.setShadow (base + 4 * w) (BitVec.ofNat 32 (m / 2 ^ (32 * w)))) s

/-- Step 1: the bundles of a block. A tile in tile-row reset takes no write (R37). -/
def installBlock (s : State) (b : NifBlock) : State :=
  if s.tileCount ≤ b.tile ∨ (s.tile b.tile).inReset then s
  else s.modTile b.tile fun x =>
    { x with
      imem := ((List.range b.bundles.length).zip b.bundles).foldl
        (fun m e => mapSet 0 m ((b.first + e.1) % 2048) e.2) x.imem
      imemErr := mapClear x.imemErr fun k => decide (b.first ≤ k) && decide (k < b.first + b.bundles.length) }

/-- Step 2: the Mule memories and MUL_BOOT of a block, on a tile whose Mule takes them (R167). -/
def installMule (s : State) (m : NifMule) : State :=
  if muleBusy s m.tile then s
  else
    let s := s.modMule m.tile fun x =>
      { x with
        imem := ((List.range m.imem.length).zip m.imem).foldl (fun d e => mapSet 0 d e.1 e.2) x.imem
        imemErr := mapClear x.imemErr fun k => decide (k < m.imem.length)
        dmem := ((List.range m.dmem.length).zip m.dmem).foldl (fun d e => mapSet 0 d e.1 e.2) x.dmem
        dmemErr := mapClear x.dmemErr fun k => decide (4 * k + 4 ≤ m.dmem.length) }
    s.setReg (MUL_BOOT m.tile) (BitVec.ofNat 32 m.boot)

/-- A CONFIG entry: a shadow, or an engine register at once (R220). -/
def installConfig (s : State) (e : Nat × BitVec 32) : State :=
  if !configOk s e.1 then s
  else match regGroupOf e.1 with
    | some g => plainWrite s e.1 g e.2
    | none => s

/-- The tiles of the USED masks of an image. -/
def Nif.usedTiles (n : Nif) : List Nat := (List.range 1024).filter fun t => n.progs.any fun p => maskHas p.used t

/-- The shadows of a program slot (R227). -/
def installProg (s : State) (p : NifProg) : State :=
  let s := (s.setShadow (FRM_PROG_CYCLES p.slot) (BitVec.ofNat 32 p.c)).setShadow (FRM_PROG_RESERVE p.slot)
    (BitVec.ofNat 32 p.r)
  let s := s.setShadow (FRM_PROG_ENTRY p.slot) (BitVec.ofNat 32 p.entry)
  let s := (s.setMaskShadows (FRM_MASK p.slot 0) p.active).setMaskShadows (FRM_USED p.slot 0) p.used
  s.setShadow (FRM_PROG_CFG p.slot) (BitVec.ofNat 32 (p.ffloor + p.flags * 2 ^ 16 + 2 ^ 31))

/-- Step 3. -/
def installShadows (s : State) (n : Nif) : State :=
  let s := n.config.foldl installConfig s
  let s := match s.latPin n.latency with
    | some v => n.usedTiles.foldl (fun s t => s.setShadow (TIL_LATPIN t) (BitVec.ofNat 32 v)) s
    | none => s
  n.progs.foldl installProg s

/-- Step 4: the entries of the image's slots replace those the slots held. -/
def installRoutes (s : State) (n : Nif) : State :=
  let kept := (s.routesNext.getD s.routes).filter fun r => !n.progs.any fun p => p.slot == r.prog
  { s with routesNext := some (kept ++ n.routes) }

/-- Step 5. -/
def installSlots (s : State) (n : Nif) : State :=
  n.progs.foldl (fun s p =>
    let s := { s with slotDigest := mapPut s.slotDigest p.slot n.digest }
    s.setReg (DMC_SLOT p.slot) (BitVec.ofNat 32 (p.entry % 2048 + p.len * 2 ^ 12 + n.latency * 2 ^ 24))) s

/-- Steps 1 to 4, the first `k` of them. -/
def installFirst (s : State) (n : Nif) (k : Nat) : State :=
  let s := if 1 ≤ k then n.blocks.foldl installBlock s else s
  let s := if 2 ≤ k then n.mules.foldl installMule s else s
  let s := if 3 ≤ k then installShadows s n else s
  if 4 ≤ k then installRoutes s n else s

/-- The slots of an image are left unusable (R229): how many of steps 1 to 4 were done before is a free
value. `seen` is the image as the second pass read it, `n` the image that was checked. -/
def installAbandon (s : State) (n seen : Nif) : State :=
  let (v, s) := s.free
  let s := installFirst s seen (v % 5)
  n.progs.foldl (fun s p =>
    (s.setShadow (FRM_PROG_CFG p.slot) (setFld (s.shReg (FRM_PROG_CFG p.slot)) 31 1 0)).setRegFld (DMC_SLOT p.slot)
      24 8 0) s

/-- The install of a load whose checks have passed (R227, R229). (DEDUCED, log 55) -/
def loadInstall (s : State) : State :=
  match s.load with
  | none => s
  | some l =>
    match l.image with
    | none => s
    | some n =>
      if s.loadState ≠ 2 then s
      else
        let (s, bs, cs) := s.spaceRead (addrSpace l.addr) (addrOff l.addr) l.len
        match (cs.zip (List.range cs.length)).find? fun e => e.1 != .none with
        | some e => loadFail (loadProgress (installAbandon s n n) l.len) loadMemory e.2
        | none =>
          let s := s.setReg DMC_LOAD_PROGRESS (BitVec.ofNat 32 l.len)
          if nifDigest bs ≠ n.digest then loadFail (installAbandon s n (nifRead bs)) loadDigest 0
          else
            let s := installSlots (installFirst s n 4) n
            let s := n.mules.foldl (fun s m => muleStart s m.tile) s
            if l.cop = 0 then loadFinish s loadDone
            else
              let s := commitOp s l.cop
              { s.setRegFld DMC_LOAD_STATUS 8 3 3 with load := some l }

/-- The end of a load that asked for a commit: when the request has resolved (R228). -/
def loadEnd (s : State) : State :=
  if s.loadState ≠ 3 ∨ s.frame.commitReq.isSome then s
  else loadFinish s (if fld (commitStatus s) 0 8 = 0 then loadDone else loadCommit)

/-- ABORT (R229). -/
def loadAbort (s : State) : State :=
  match s.load with
  | none => s
  | some l =>
    if s.loadState = 1 then loadFinish s loadAborted
    else if s.loadState = 2 then
      match l.image with
      | some n => loadFinish (installAbandon s n n) loadAborted
      | none => loadFinish s loadAborted
    else s

/-- A write of DMC_LOAD_CTRL: its command bits act in ascending order (DESIGN CHOICE, log 21). -/
def loadControl (s : State) (v : BitVec 32) : State :=
  let s := if bit v 0 then loadStart s (fld v 2 3) else s
  if bit v 1 then loadAbort s else s

/-- A reset during a load ends it with LOAD_ABORTED (R229). -/
def loadReset (s : State) : State := if s.loadState ≠ 0 then loadFinish s loadAborted else s

/-! ### Signals (R155, R285, R286) -/

/-- SYN_SIG: applied in step 2 of the semaphore order of the tile's next bundle (R155); a tile in tile-row reset
drops and counts it (R272). -/
def synSig (s : State) (t : Nat) (v : BitVec 32) : State :=
  if (s.tile t).inReset then s.incReg MSG_SIG_DROP
  else s.modTile t fun x => { x with sigs := x.sigs ++ [⟨fld v 0 5, fld v 16 16, some x.ctl.cycle⟩] }

/-- SYN_DSIG. -/
def synDsig (s : State) (v : BitVec 32) : State := { s with dsigs := s.dsigs ++ [(fld v 0 8, fld v 16 16)] }

/-! ### Commands -/

/-- DMC_LOAD_START (R222). -/
def execDmcLoadStart (cop : BitVec 3) (s : State) : Host.Outcome State Fault Refusal := .next (loadStart s cop.toNat)

/-- LOAD_CHECKS (R224). -/
def execLoadChecks (s : State) : Host.Outcome State Fault Refusal := .next (loadChecks s)

/-- LOAD_INSTALL (R227). -/
def execLoadInstall (s : State) : Host.Outcome State Fault Refusal := .next (loadInstall s)

/-- LOAD_END (R228). -/
def execLoadEnd (s : State) : Host.Outcome State Fault Refusal := .next (loadEnd s)

/-- DMC_LOAD_ABORT (R229). -/
def execDmcLoadAbort (s : State) : Host.Outcome State Fault Refusal := .next (loadAbort s)

/-- MUL_IMEM_WRITE (R167): a word of the Mule instruction memory of a tile. -/
def execMulImemWrite (t : Nat) (word : Fin 4096) (v : BitVec 32) (s : State) : Host.Outcome State Fault Refusal :=
  s.onTile t fun s => if tileStatus s t (0x10000 + 4 * word) = stDone then (muleImemWrite s t word v).1 else s

/-- IMEM_STAGE_WRITE (R190): a word 0 to 6 of a bundle. -/
def execImemStageWrite (m : Master) (t : Nat) (word : Fin 7) (v : BitVec 32) (s : State) :
    Host.Outcome State Fault Refusal :=
  s.onTile t fun s => if (s.tile t).inReset then s else imemStage s t m word v

/-- IMEM_BUNDLE_WRITE (R190): word 7 of bundle `b`. -/
def execImemBundleWrite (m : Master) (t : Nat) (b : Fin 2048) (v : BitVec 32) (s : State) :
    Host.Outcome State Fault Refusal :=
  s.onTile t fun s => if (s.tile t).inReset then s else imemBundle s t m b v

/-- SYN_SIG (R286). -/
def execSynSig (t : Nat) (v : BitVec 32) (s : State) : Host.Outcome State Fault Refusal :=
  s.onTile t fun s => synSig s t v

/-- SYN_DSIG (R285). -/
def execSynDsig (v : BitVec 32) (s : State) : Host.Outcome State Fault Refusal := .next (synDsig s v)

/-- MSG_LAND_CLOSE (R275). -/
def execMsgLandClose (t : Nat) (mask : BitVec 4) (s : State) : Host.Outcome State Fault Refusal :=
  s.onTile t fun s => if (s.tile t).inReset then s else landClose s t mask.toNat

end Sys2Proof.Machine
end

