-- ==== Sys2Proof/Machine/Context.lean ====
section
/-! DEFINITION. Context save and restore (R98, R166, R280 to R283, R287) and the synchronisation dump (R284). -/

namespace Sys2Proof.Machine

/-! ### Requests (R280) -/

/-- Bytes of a context of this module. -/
def State.ctxBytes (s : State) : Nat := 0x280 + 768 * s.tileCount

/-- Whether an engine is RUNNING or WAITING. -/
def State.enginesBusy (s : State) : Bool := s.agp.any fun e => e.2.state == .running || e.2.state == .waiting

/-- Whether an address is a place for a context or a dump: in space 1 or 2 of this module, on 64 bytes. -/
def State.placeOk (s : State) (a : Nat) : Bool :=
  s.rankLocal (addrRank a) && (addrSpace a == 1 || addrSpace a == 2) && a % 64 == 0

/-- SAVE (`op` 1) or RESTORE (`op` 2): accepted, or refused with a code (R280). -/
def ctxRequest (s : State) (op : Nat) : State :=
  let busy : Bool := (s.frmState != 0 && s.frmState != 3) || s.ctxState != 0 || s.loadState != 0 || s.enginesBusy
  let bad : Bool := !s.placeOk (s.reg64 DMC_CTX_ADDR_LO).toNat
    || (op == 1 && decide ((s.reg DMC_CTX_LEN).toNat < s.ctxBytes))
  if busy then s.setRegFld DMC_CTX_STATUS 0 8 2
  else if bad then s.setRegFld DMC_CTX_STATUS 0 8 3
  else { s.setRegFld DMC_CTX_STATUS 8 3 1 with ctxOp := op }

/-- A write of DMC_CTX_CTRL. -/
def ctxControl (s : State) (v : BitVec 32) : State :=
  if fld v 0 2 = 1 ∨ fld v 0 2 = 2 then ctxRequest s (fld v 0 2) else s

/-- The operation ends with a code. -/
def ctxEnd (s : State) (code : Nat) : State :=
  { (s.setRegFld DMC_CTX_STATUS 8 3 0).setRegFld DMC_CTX_STATUS 0 8 code with ctxOp := 0, ctxMules := [] }

/-- The operation ends with a code and a detail (R283). -/
def ctxFail (s : State) (code detail : Nat) : State :=
  ctxEnd (s.setReg DMC_CTX_DETAIL (BitVec.ofNat 32 detail)) code

/-- The save stops a Mule; messages in its inbox are discarded and counted (R166). (DEDUCED, log 79) -/
def ctxStopMule (s : State) (t : Nat) : State :=
  let n := (s.tile t).mule.inbox.length
  let s := (muleStop s t).modMule t fun m => { m with inbox := [] }
  s.addReg (MUL_DISCARD t) n

/-- An accepted operation starts at the tick of a count (R280, R281). -/
def ctxStart (s : State) (count : BitVec 64) : State :=
  if s.ctxState ≠ 1 then s
  else
    let s := { s.setRegFld DMC_CTX_STATUS 8 3 2 with ctxTick := count }
    if s.ctxOp = 1 then
      let ts := List.range s.tileCount
      let was := ts.foldl (fun m t => mapSet 0 m t (muleStateCode (s.tile t).mule.state)) []
      ts.foldl ctxStopMule { s with ctxMules := was }
    else s

/-! ### The save (R281, R282) -/

/-- `n` bytes of 0. -/
def zeros (n : Nat) : List (BitVec 8) := List.replicate n 0

/-- The cursor of a channel, the write index of a port, a word of a seed, and so on: the bytes of several
values of `n` bytes each. -/
def packed (n : Nat) (vs : List Nat) : List (BitVec 8) := vs.flatMap (leBytes n)

/-- A 256-bit key as the bytes that AES takes. (DEDUCED, log 80) -/
def keyBytes (k : BitVec 256) : List Nat := (leBytes 32 k.toNat).map fun b => b.toNat

/-- The wrapped key of a stream; zero when SRC_HW is clear (R281, R282). -/
def ctxWrapped (s : State) (t k : Nat) : List (BitVec 8) :=
  if bit (s.reg (VEC_RNG_CFG t k)) 2 then
    (keyWrap (keyBytes s.ctxKey) ((leBytes 16 (s.rngKey t k).toNat).map fun b => b.toNat)).map (BitVec.ofNat 8)
  else zeros 24

/-- The 48 bytes of a generator stream. -/
def ctxStream (s : State) (t k : Nat) : List (BitVec 8) :=
  leBytes 4 (s.reg (VEC_RNG_CFG t k)).toNat ++ leBytes 4 (s.reg (VEC_RNG_ID t k)).toNat
    ++ leBytes 8 (s.reg64 (VEC_RNG_POS_LO t k)).toNat ++ leBytes 8 (rngCur s t k).toNat ++ ctxWrapped s t k

/-- The record of a tile. -/
def ctxRecord (s : State) (t : Nat) : List (BitVec 8) :=
  let m := (s.tile t).mule
  packed 2 ((List.range 32).map (s.sem t)) ++ packed 2 ((List.range 4).map (s.fence t)) ++ zeros 8
    ++ packed 8 ((List.range 4).map fun c => (s.chan t c).cur.toNat)
    ++ packed 2 ((List.range 4).map fun q => (s.reg (MSG_LAND_WR t q)).toNat) ++ zeros 8
    ++ packed 4 ((List.range 16).map fun i => (s.reg (VEC_RNG_SEED t (i / 4) (i % 4))).toNat)
    ++ (List.range 8).flatMap (ctxStream s t)
    ++ packed 4 ((List.range 32).map fun r => (muleReg m (BitVec.ofNat 5 r)).toNat) ++ leBytes 4 m.pc.toNat
    ++ leBytes 1 (mapGet 0 s.ctxMules t) ++ leBytes 1 (if m.inHandler then 1 else 0) ++ leBytes 1 m.fcode ++ zeros 57

/-- Whether a wrapped key stands in the context. -/
def State.ctxKeys (s : State) : Bool :=
  (List.range s.tileCount).any fun t => (List.range 8).any fun k => bit (s.reg (VEC_RNG_CFG t k)) 2

/-- The digest of a context. -/
def ctxDigest (bs : List (BitVec 8)) : List (BitVec 8) := sha384 (bs.take 0x10 ++ bs.drop 0x40)

/-- The context of the module (R282). -/
def ctxImage (s : State) : List (BitVec 8) :=
  let head := [0x4E, 0x5A, 0x43, 0x58] ++ leBytes 2 1 ++ leBytes 2 0x80 ++ leBytes 8 s.ctxBytes
  let rest := leBytes 2 s.tileCount ++ leBytes 1 (fld (s.reg DMC_IDENT) 0 4) ++ leBytes 1 (if s.ctxKeys then 1 else 0)
    ++ zeros 4 ++ leBytes 8 s.ctxTick.toNat ++ leBytes 8 s.bootNonce.toNat ++ zeros 40
    ++ packed 2 ((List.range 256).map s.dsem) ++ (List.range s.tileCount).flatMap (ctxRecord s)
  head ++ sha384 (head ++ rest) ++ rest

/-- Whether every message, stream run and scatter of a tile has been answered or completed, and its Mule has
stopped (R281). -/
def tileQuiet (s : State) (t : Nat) : Bool :=
  let x := s.tile t
  x.outstanding.isEmpty && x.held.isEmpty && ((List.range 4).all fun c => (s.chan t c).run.isNone)
    && ((List.range 4).all fun f => s.fence t f == 0) && x.mule.sendDest.isNone
    && (x.mule.state == .halted || x.mule.state == .fault)

/-- The running save (R281): once every tile is quiet it writes the context. -/
def ctxSaveRun (s : State) : State :=
  if s.ctxOp ≠ 1 ∨ s.ctxState ≠ 2 then s
  else if (List.range s.tileCount).any fun t => !tileQuiet s t then s
  else
    let a := (s.reg64 DMC_CTX_ADDR_LO).toNat
    if s.spaceEnd (addrSpace a) < addrOff a + s.ctxBytes then ctxEnd s 4
    else ctxEnd (s.spaceWrite (addrSpace a) (addrOff a) (ctxImage s) []) 1

/-! ### The restore (R283) -/

/-- The field of `n` bytes at an offset of a context. -/
def ctxField (bs : List (BitVec 8)) (o n : Nat) : Nat := leNat ((bs.drop o).take n)

/-- Offset of a tile's record. -/
def ctxTile (t : Nat) : Nat := 0x280 + 768 * t

/-- Check 2: the offset of the first field that fails. -/
def ctxFormat (bs : List (BitVec 8)) (len : Nat) : Option Nat :=
  let f := ctxField bs
  let head : List (Nat × Bool) :=
    [(0x00, f 0 4 != 0x58435A4E), (0x04, f 4 2 != 1), (0x06, f 6 2 != 0x80),
     (0x08, f 8 8 != len || len != 0x280 + 768 * f 0x40 2), (0x43, decide (2 ≤ f 0x43 1)), (0x44, f 0x44 4 != 0),
     (0x58, f 0x58 40 != 0)]
  let tile := fun (t : Nat) =>
    let o := ctxTile t
    ([(o + 0x40, f (o + 0x40) 8 != 0), (o + 0x48, f (o + 0x48) 8 != 0), (o + 0x78, f (o + 0x78) 8 != 0),
      (o + 0x2C7, f (o + 0x2C7) 57 != 0)] : List (Nat × Bool))
  match head.find? fun p => p.2 with
  | some p => some p.1
  | none => (((List.range (f 0x40 2)).flatMap tile).find? fun p => p.2).map fun p => p.1

/-- Bytes of a stream's entry in a context. -/
def ctxStreamAt (t k : Nat) : Nat := ctxTile t + 0xC0 + 48 * k

/-- The key that a stream's entry holds: none where it has one and it does not unwrap. -/
def ctxKeyOf (s : State) (bs : List (BitVec 8)) (t k : Nat) : Option (Option (BitVec 128)) :=
  let o := ctxStreamAt t k
  if !bit (BitVec.ofNat 32 (ctxField bs o 4)) 2 then some none
  else
    match keyUnwrap (keyBytes s.ctxKey) (((bs.drop (o + 24)).take 24).map fun b => b.toNat) with
    | some key => some (some (BitVec.ofNat 128 (leNat (key.map (BitVec.ofNat 8)))))
    | none => none

/-- Check 5: the first tile whose key is refused. -/
def ctxKeyBad (s : State) (bs : List (BitVec 8)) : Option Nat :=
  let flag := ctxField bs 0x43 1 % 2 == 1
  let wrong := flag && ctxField bs 0x50 8 != s.bootNonce.toNat
  (List.range s.tileCount).find? fun t => (List.range 8).any fun k =>
    let hw := bit (BitVec.ofNat 32 (ctxField bs (ctxStreamAt t k) 4)) 2
    (hw && wrong) || (ctxKeyOf s bs t k).isNone

/-- Check 6 (R98): the first CHECKED stream out of step, as tile × 8 + stream. -/
def ctxMismatch (s : State) (bs : List (BitVec 8)) : Option Nat :=
  (List.range (8 * s.tileCount)).find? fun i =>
    let o := ctxStreamAt (i / 8) (i % 8)
    let cfg : BitVec 32 := BitVec.ofNat 32 (ctxField bs o 4)
    let c := ctxField bs (ctxTile (i / 8) + 0x50 + 8 * fld cfg 6 2) 8
    fld cfg 4 2 == 2 && ctxField bs (o + 16) 8 != (ctxField bs (o + 8) 8 + c * fld cfg 8 8) % 2 ^ 64

/-- Set the live value and the shadow of a register. -/
def State.setBoth (s : State) (off : Nat) (v : BitVec 32) : State :=
  { s.setReg off v with shadow := mapDel s.shadow off }

/-- A stream of a tile from a context. -/
def ctxSetStream (s : State) (bs : List (BitVec 8)) (t k : Nat) : State :=
  let o := ctxStreamAt t k
  let w := fun (i : Nat) => (BitVec.ofNat 32 (ctxField bs (o + i) 4) : BitVec 32)
  let s := ((s.setBoth (VEC_RNG_CFG t k) (w 0)).setBoth (VEC_RNG_ID t k) (w 4)).setBoth (VEC_RNG_POS_LO t k) (w 8)
  let s := s.setBoth (VEC_RNG_POS_LO t k + 4) (w 12)
  let key := (ctxKeyOf s bs t k).getD none
  s.modTile t fun x => { x with
    rng := mapSet rngReset x.rng k ⟨BitVec.ofNat 64 (ctxField bs (o + 16) 8), key⟩ }

/-- The Mule of a tile from a context: a Mule restored in WAIT executes its WAIT again (R166, R283). -/
def ctxSetMule (s : State) (bs : List (BitVec 8)) (t : Nat) : State :=
  let o := ctxTile t
  let f := ctxField bs
  let handler := f (o + 0x2C5) 1 % 2 == 1
  s.modMule t fun m => { m with
    regs := (List.range 32).foldl (fun r i => if i = 0 then r else
      mapSet 0 r i (BitVec.ofNat 32 (f (o + 0x240 + 4 * i) 4))) []
    pc := BitVec.ofNat 32 (f (o + 0x2C0) 4)
    state := match f (o + 0x2C4) 1 with
      | 0 => .halted
      | 4 => .fault
      | _ => if handler then .handler else .running
    fcode := f (o + 0x2C6) 1
    inHandler := handler
    waitSem := none
    sendDest := none
    stopAsked := false }

/-- The values of a tile from a context. -/
def ctxSetTile (s : State) (bs : List (BitVec 8)) (t : Nat) : State :=
  let o := ctxTile t
  let f := ctxField bs
  let s := (List.range 32).foldl (fun s n => s.setSem t n (f (o + 2 * n) 2)) s
  let s := (List.range 4).foldl (fun s c =>
    let v : BitVec 64 := BitVec.ofNat 64 (f (o + 0x50 + 8 * c) 8)
    s.setChan t c { s.chan t c with cur := v, base := v, basePrev := v }) s
  let s := (List.range 4).foldl (fun s q => s.setReg (MSG_LAND_WR t q) (BitVec.ofNat 32 (f (o + 0x70 + 2 * q) 2))) s
  let s := (List.range 16).foldl (fun s i =>
    s.setBoth (VEC_RNG_SEED t (i / 4) (i % 4)) (BitVec.ofNat 32 (f (o + 0x80 + 4 * i) 4))) s
  ctxSetMule ((List.range 8).foldl (fun s k => ctxSetStream s bs t k) s) bs t

/-- The running restore (R283). (DEDUCED, log 78) -/
def ctxRestoreRun (s : State) : State :=
  if s.ctxOp ≠ 2 ∨ s.ctxState ≠ 2 then s
  else
    let a := (s.reg64 DMC_CTX_ADDR_LO).toNat
    let len := (s.reg DMC_CTX_LEN).toNat
    let room := s.spaceEnd (addrSpace a) - addrOff a
    let (s, bs, cs) := s.spaceRead (addrSpace a) (addrOff a) (min len room)
    match (cs.zip (List.range cs.length)).find? fun e => e.1 != .none with
    | some e => ctxFail s 4 e.2
    | none =>
      if room < len then ctxFail s 4 room
      else match ctxFormat bs len with
        | some o => ctxFail s 5 o
        | none =>
          if ctxDigest bs ≠ (bs.drop 0x10).take 48 then ctxFail s 6 0
          else if ctxField bs 0x40 2 ≠ s.tileCount then ctxFail s 7 (ctxField bs 0x40 2)
          else match ctxKeyBad s bs with
            | some t => ctxFail s 8 t
            | none =>
              match ctxMismatch s bs with
              | some i => ctxFail s 9 i
              | none =>
                let s := (List.range 256).foldl (fun s n => s.setDsem n (ctxField bs (0x80 + 2 * n) 2)) s
                ctxEnd ((List.range s.tileCount).foldl (fun s t => ctxSetTile s bs t) s) 1

/-! ### The dump (R284) -/

/-- The record of a tile in a dump. -/
def dumpRecord (s : State) (t : Nat) : List (BitVec 8) :=
  let x := s.tile t
  let cyc := if s.armedC = 0 then x.ctl.cycle else min x.ctl.cycle (s.armedC - 1)
  leBytes 2 t
    ++ leBytes 1 ((if x.gated then 0 else 1) + (if x.inReset then 2 else 0) + (if s.tileUsed t then 4 else 0))
    ++ leBytes 1 (s.reg (MSG_EPOCH t)).toNat ++ leBytes 4 cyc ++ leBytes 8 (s.reg64 FRM_TICK_LO).toNat
    ++ packed 2 ((List.range 32).map (s.sem t)) ++ packed 2 ((List.range 4).map (s.fence t))
    ++ packed 2 ((List.range 4).map fun q => (s.reg (MSG_LAND_WR t q)).toNat)
    ++ leBytes 1 (muleStateCode x.mule.state + 16 * x.mule.fcode) ++ leBytes 1 x.mule.inbox.length
    ++ leBytes 2 ((List.range 4).foldl (fun n q => n + (if s.portOpen t q then 2 ^ q else 0)) 0)
    ++ leBytes 4 (x.mule.pc.toNat % 2 ^ 16) ++ packed 4 ((List.range 4).map (strStatus s t))
    ++ leBytes 4 (s.reg (MSG_NACK_LAST t)).toNat ++ leBytes 2 x.outstanding.length ++ zeros 2

/-- The dump of the module. -/
def dumpImage (s : State) : List (BitVec 8) :=
  [0x4E, 0x5A, 0x53, 0x44] ++ leBytes 2 1 ++ leBytes 2 0x40 ++ leBytes 8 (0x240 + 128 * s.tileCount)
    ++ leBytes 2 s.tileCount ++ leBytes 1 s.frmState ++ leBytes 1 (s.reg MSG_MOD_EPOCH).toNat ++ zeros 4
    ++ leBytes 8 (s.reg64 FRM_TICK_LO).toNat ++ zeros 32 ++ packed 2 ((List.range 256).map s.dsem)
    ++ (List.range s.tileCount).flatMap (dumpRecord s)

/-- DMC_DUMP_CTRL.START (R284): to the buffer, or to memory. -/
def dumpStart (s : State) (buffer : Bool) : State :=
  let a := (s.reg64 DMC_DUMP_ADDR_LO).toNat
  if buffer then { s.setReg DMC_DUMP_STATUS 1 with dumpBuf := dumpImage s }
  else if !s.placeOk a then s.setReg DMC_DUMP_STATUS 3
  else if s.spaceEnd (addrSpace a) < addrOff a + (0x240 + 128 * s.tileCount) then s.setReg DMC_DUMP_STATUS 4
  else (s.spaceWrite (addrSpace a) (addrOff a) (dumpImage s) []).setReg DMC_DUMP_STATUS 1

/-- A word of DMC_DUMP_BUF: page and byte offset; bytes beyond the dump read 0. -/
def dumpWord (s : State) (o : Nat) : BitVec 32 :=
  BitVec.ofNat 32 (ctxField s.dumpBuf (fld (s.reg DMC_DUMP_PAGE) 0 3 * 0x8000 + o) 4)

/-- A write of DMC_DUMP_CTRL. -/
def dumpControl (s : State) (v : BitVec 32) : State := if bit v 0 then dumpStart s (bit v 1) else s

/-- A warm module reset or a job reset (R287). -/
def ctxReset (s : State) : State :=
  { (s.setReg DMC_CTX_STATUS 0).setReg DMC_DUMP_STATUS 0 with ctxOp := 0, ctxMules := [] }

/-! ### Commands -/

/-- SAVE (R280). -/
def execSave (s : State) : Host.Outcome State Fault Refusal := .next (ctxRequest s 1)

/-- RESTORE (R280). -/
def execRestore (s : State) : Host.Outcome State Fault Refusal := .next (ctxRequest s 2)

/-- CONTEXT_SAVE_RUN (R281). -/
def execContextSaveRun (s : State) : Host.Outcome State Fault Refusal := .next (ctxSaveRun s)

/-- CONTEXT_RESTORE_RUN (R283). -/
def execContextRestoreRun (s : State) : Host.Outcome State Fault Refusal := .next (ctxRestoreRun s)

/-- DUMP_START (R284): DEST set is the buffer. -/
def execDumpStart (dest : Bool) (s : State) : Host.Outcome State Fault Refusal := .next (dumpStart s dest)

end Sys2Proof.Machine
end

