-- ==== Sys2Proof/Machine/Goose.lean ====
section
/-! DEFINITION. Safety (R367 to R398): the safe state, the drain, the verdict of a frame, paired execution and
the self-test. -/

namespace Sys2Proof.Machine

/-- Change the frame controller's state. -/
def State.modFrame (s : State) (f : Frame → Frame) : State := { s with frame := f s.frame }

/-- Tiles that differ from their reset state. -/
def State.liveTiles (s : State) : List Nat := (s.tiles.map fun e => e.1).filter fun t => decide (t < s.tileCount)

/-! ### Drain and stop (R58, R391, R392) -/

/-- Requests of the fabric interface that have not left the module. -/
def State.unsent (s : State) : List NetEntry := (s.entries.filter fun e => !e.sent) ++ s.reqWait

/-- Stop a stream run: requests that have not issued are discarded, and it leaves its channel once those that have
are answered. -/
def streamDrain (s : State) (t c : Nat) : State :=
  let ch := s.chan t c
  match ch.run with
  | none => s
  | some r =>
    if r.ended.isSome then s
    else
      let held := fun (e : StreamElem) => e.remote && s.unsent.any fun n => n.source == .stream t c e.elem e.off
      let left := r.waiting.filter fun e => !held e
      if left.isEmpty then fenceDone (s.setChan t c { ch with run := none, lastDesc := r.desc }) t (.run c)
      else s.setChan t c { ch with run := some { r with halted := true, nextOff := 0, waiting := left } }

/-- Stop every stream run. -/
def drainStreams (s : State) : State :=
  s.liveTiles.foldl (fun s t => (List.range 4).foldl (fun s c => streamDrain s t c) s) s

/-- The pieces of engine copies that no access has been issued for are discarded (R58). -/
def drainEngines (s : State) : State :=
  (List.range 16).foldl (fun s n =>
    let s := s.modEngine n fun e => { e with copies := e.copies.map fun c =>
      { c with pieces := c.pieces.map fun p => if p.stage = .toRead then { p with stage := .done } else p } }
    (s.engine n).copies.foldl (fun s c => agpFinish s n c.id) s) s

/-- Requests that have not left the module are discarded; one whose unit waits for an answer ends as a timeout. -/
def drainFabric (s : State) : State :=
  let isRun := fun (e : NetEntry) => match e.source with
    | .stream .. => true
    | .coll _ => true
    | _ => false
  let out := s.entries.filter fun e => !e.sent
  let s := { s with
    entries := s.entries.filter fun e => e.sent || !isRun e
    reqWait := s.reqWait.filter fun e => !isRun e
    fab := { s.fab with forwards := [] } }
  (out.filter fun e => !isRun e && !e.pkt.be).foldl (fun s e => completeRequest s e.pkt.tid stTimeout [] []) s

/-- The drain of an overrun begins (R58). (DEDUCED, log 76) -/
def drainUnits (s : State) : State := colAbort (drainFabric (drainEngines (drainStreams s)))

/-- Whether the transactions of the frame that overran have completed. -/
def drained (s : State) : Bool :=
  (s.liveTiles.all fun t => (List.range 4).all fun c => match (s.chan t c).run with
    | some r => r.ended.isSome
    | none => true)
  && s.agp.all fun e => e.2.copies.all fun c => c.pieces.all fun p => p.stage == .toRead || p.stage == .done

/-- Entry into the safe state with a cause (R390 to R392): the open frame stops. Of causes that arise together the
lowest is recorded. (DEDUCED, log 120) -/
def enterSafe (s : State) (cause : Nat) : State :=
  if s.frame.safe.isSome then s
  else
    let open' : Bool := s.frame.armed.isSome
    let s := if open' then s.raiseFrame ⟨.safeStop, 61, 0, 0, 0⟩ else s
    let s := s.setReg GOS_STATUS (setFld (s.reg GOS_STATUS ||| 1) 8 4 cause)
    let s := s.setReg GOS_REC_SAFE (BitVec.ofNat 32 cause)
    let s := s.modFrame fun f => { f with safe := some cause, safeReq := false, released := false, stopped := open' }
    let s := s.liveTiles.foldl (fun s t =>
      (muleStop s t).modTile t fun x => { x with vec := { x.vec with queue := [] } }) s
    let s := drainFabric (drainStreams s)
    colAbort ((List.range 16).foldl (fun s n => agpStop s n) s)

/-! ### Paired execution (R379 to R382) -/

/-- The digest of a tap. -/
def State.tapDigest (s : State) (t k : Nat) : BitVec 128 := mapGet 0 (s.tile t).taps k

/-- The taps that are active for program slot `p`. -/
def State.activeTaps (s : State) (p : Nat) : List (Nat × Nat) :=
  s.liveTaps.filter fun x => fld (s.reg (GOS_TAP x.1 x.2 0)) 0 6 == p

/-- The partner of a tap: tile, tap and rank. -/
def State.tapPartner (s : State) (t k : Nat) : Nat × Nat × Nat :=
  let w := s.reg (GOS_TAP t k 2)
  (fld w 0 10, fld w 10 2, fld w 16 13)

/-- Record a mismatch (R381, R516). -/
def pairMismatch (s : State) (t k rank : Nat) : State :=
  (s.setReg GOS_MISMATCH_LAST (BitVec.ofNat 32 (t + k * 2 ^ 10 + rank * 2 ^ 16 + 2 ^ 31))).raiseClosed
    (if rank = 0x1FFF then ⟨.pairMismatch, s.tileRegion t, t, 0, 0⟩ else ⟨.pairMismatch, 61, 0, 0, 0⟩)

/-- The closing tick's digests are shown (R379, R398). -/
def showDigests (s : State) (taps : List (Nat × Nat)) : State :=
  taps.foldl (fun s x => (List.range 4).foldl (fun s w =>
    s.setReg (GOS_TAP_DIG x.1 x.2 w) ((s.tapDigest x.1 x.2).extractLsb' (32 * w) 32)) s) s

/-- Change the closed frame. -/
def State.modClosed (s : State) (f : Closed → Closed) : State := { s with closed := s.closed.map f }

/-- Compare the tile pairs of a frame of slot `p`, each once (R381). -/
def comparePairs (s : State) (p : Nat) : State :=
  let one := (s.activeTaps p).filter fun x =>
    let q := s.tapPartner x.1 x.2
    fld (s.reg (GOS_TAP x.1 x.2 0)) 6 2 == 1 && (decide (x.1 < q.1) || (x.1 == q.1 && decide (x.2 ≤ q.2.1)))
  one.foldl (fun s x =>
    let q := s.tapPartner x.1 x.2
    let s := s.modClosed fun c => { c with compared := c.compared + 1 }
    if s.tapDigest x.1 x.2 = s.tapDigest q.1 q.2.1 then s else pairMismatch s x.1 x.2 0x1FFF) s

/-- PAIR_MISSING for a tap of a module pair (R382, R516). -/
def pairMissing (s : State) (t k : Nat) : State :=
  match s.closed with
  | none => s
  | some c =>
    if !c.waits.contains (t, k) then s
    else
      let s := s.modClosed fun c => { c with waits := c.waits.erase (t, k), missing := c.missing + 1 }
      s.raiseClosed ⟨.pairMissing, 61, 0, 0, 0⟩

/-- A digest item arrives (R382): it is matched to the tap that names its sender. -/
def digestItem (s : State) (d : DigestItem) : State :=
  match s.closed with
  | none => s
  | some c =>
    match c.waits.find? fun x => s.tapPartner x.1 x.2 == (d.tile, d.tap, d.rank) with
    | none => s
    | some (t, k) =>
      if d.tick ≠ c.tick ∨ d.prog ≠ c.prog ∨ d.failed then pairMissing s t k
      else
        let s := s.modClosed fun c => { c with waits := c.waits.erase (t, k), compared := c.compared + 1 }
        let own : BitVec 128 := (List.range 4).foldl (fun v w =>
          v ||| ((s.reg (GOS_TAP_DIG t k w)).setWidth 128 <<< (32 * w))) 0
        if own = d.digest then s else pairMismatch s t k d.rank

/-! ### The verdict (R373 to R376) -/

/-- The class in which an event of a frame counts (R373); 0 for one that does not. -/
def eventClass (c : Closed) (e : GEvent) : Nat :=
  match evClass e.kind with
  | .corrected => 1
  | .suspect => 2
  | .hard => 3
  | .recordOnly => 0
  | .conditional =>
    match e.kind with
    | .uncovered => if bit c.cfg 16 && !c.tapTiles.contains e.tile then 2 else 0
    | _ => if bit c.cfg 17 then 2 else 0

/-- Events of a frame that count in a class. -/
def classEvents (c : Closed) (k : Nat) : List GEvent := c.events.filter fun e => eventClass c e == k

/-- The verdict: 0 clean, 1 corrected, 2 suspect, 3 failed (R374). -/
def verdictOf (c : Closed) : Nat :=
  if c.overrun ∨ c.refused.isSome ∨ !(classEvents c 3).isEmpty then 3
  else if !(classEvents c 2).isEmpty then 2
  else if !(classEvents c 1).isEmpty then 1
  else 0

/-- The first event of the verdict's class: in the order raised, and among those raised in the same cycle the
lowest region, then the lowest tile (R374). (DEDUCED, log 45) -/
def firstEvent (c : Closed) : Option GEvent :=
  match classEvents c (verdictOf c) with
  | [] => none
  | e :: rest =>
    let before := fun (a b : GEvent) =>
      decide (a.region < b.region) || (a.region == b.region && decide (a.tile < b.tile))
    some ((rest.filter fun x => x.cycle == e.cycle).foldl (fun m x => if before x m then x else m) e)

/-- GOS_VERDICT of a frame (R396). -/
def verdictWord (c : Closed) : Nat :=
  let flag := fun (b : Bool) (i : Nat) => if b then 2 ^ i else 0
  let unc := c.events.any fun e => e.kind == .uncovered && eventClass c e == 2
  let first := match firstEvent c with
    | some e => if verdictOf c = 0 then 0 else evCode e.kind * 2 ^ 8 + e.region * 2 ^ 16 + e.tile * 2 ^ 22
    | none => 0
  verdictOf c + flag c.overrun 2 + flag c.refused.isSome 3 + flag c.holdover 4 + flag unc 5 + flag c.carried 6
    + flag (bit c.cfg 16) 7 + first

/-- GOS_VCOUNTS of a frame. -/
def verdictCounts (c : Closed) : Nat :=
  min (classEvents c 3).length 255 + min (classEvents c 2).length 255 * 2 ^ 8
    + min (classEvents c 1).length 65535 * 2 ^ 16

/-- GOS_FIRST_DETAIL of a frame. -/
def verdictDetail (c : Closed) : Nat :=
  match firstEvent c with
  | some e => if verdictOf c = 0 then 0 else e.cycle % 2 ^ 24 + e.detail % 256 * 2 ^ 24
  | none => 0

/-- The FRAME record (R442). -/
def frameRecord (s : State) (c : Closed) : State :=
  let v : BitVec 32 := BitVec.ofNat 32 (verdictWord c)
  let head := leBytes 1 (fld v 0 8) ++ leBytes 1 (fld v 8 8) ++ leBytes 1 c.prog ++ leBytes 1 c.entry
    ++ leBytes 1 (c.refused.getD 0) ++ leBytes 1 c.released.toNat ++ leBytes 1 (fld v 16 6)
  cplRecord s (recordBody 1 head c.tick.toNat c.slack.toNat (fld v 22 10) s.ownGen c.batch.toNat (verdictCounts c)
    (verdictDetail c) 0)

/-- The central Goose's registers take the verdict of a frame (R376). -/
def verdictRegs (s : State) (c : Closed) : State :=
  let v : BitVec 32 := BitVec.ofNat 32 (verdictWord c)
  let s := ((s.setReg GOS_VERDICT v).setReg64 GOS_VTICK_LO c.tick).setReg GOS_VCOUNTS
    (BitVec.ofNat 32 (verdictCounts c))
  let s := (s.setReg GOS_FIRST_DETAIL (BitVec.ofNat 32 (verdictDetail c))).setReg GOS_PAIRS
    (BitVec.ofNat 32 (c.compared % 2 ^ 12 + c.missing % 2 ^ 12 * 2 ^ 16))
  let s := (s.setReg GOS_REC_VERDICT v).setReg64 GOS_REC_TICK_LO c.tick
  match verdictOf c with
  | 3 => (s.incReg GOS_CNT_FAILED).incReg GOS_REC_FAILS
  | 2 => s.incReg GOS_CNT_SUSPECT
  | 1 => s.incReg GOS_CNT_CORR
  | _ => s

/-- Whether the verdict of a frame enters the safe state (R390 cause 4). -/
def verdictSafe (s : State) (c : Closed) : Bool :=
  let cfg := s.reg GOS_CFG
  bit c.cfg 16 && ((verdictOf c == 3 && bit cfg 0) || (decide (2 ≤ verdictOf c) && bit cfg 1))

/-- The verdict of the closed frame is formed (R376): registers, standby record, completion record. -/
def formVerdict (s : State) : State :=
  match s.closed with
  | none => s
  | some c =>
    let s := frameRecord (verdictRegs { s with closed := none } c) c
    if verdictSafe s c then enterSafe s 4 else s

/-- VERDICT_FORMED: once every awaited digest item has arrived or been found missing. (DEDUCED, log 75) -/
def verdictFormed (s : State) : State :=
  match s.closed with
  | some c => if c.waits.isEmpty then formVerdict s else s
  | none => s

/-- The verdict is formed before the next tick closes a frame (R376); items still awaited are missing. -/
def settleVerdict (s : State) : State :=
  match s.closed with
  | some c => formVerdict (c.waits.foldl (fun s x => pairMissing s x.1 x.2) s)
  | none => s

/-! ### The tick watch and the self-test (R385, R388) -/

/-- TICK_WATCH (R385): the interval measured, in ps; none where no tick has come within the tolerance. -/
def tickWatch (s : State) (interval : Option Nat) : State :=
  let p := s.period * 1000
  let tol := 1000000 + p / 2000
  let bad : Bool := match interval with
    | some i => decide (i + tol < p) || decide (p + tol < i)
    | none => true
  if p = 0 ∨ !bad ∨ !s.power.mainGood then s else enterSafe (s.raiseFrame ⟨.tickWatch, 61, 0, 0, 0⟩) 5

/-- GOS_CTRL.SELFTEST (R388): `failing` is the first failing region. (DEDUCED, log 74) -/
def selfTest (s : State) (failing : Option Nat) : State :=
  if s.frmState ≠ 0 ∧ s.frmState ≠ 3 ∧ !bit (s.reg GOS_STATUS) 1 then s
  else
    let s := s.setReg GOS_STATUS (setFld (s.reg GOS_STATUS) 1 1 0)
    match failing with
    | none => s.setReg GOS_STATUS (setFld (s.reg GOS_STATUS ||| 8) 2 1 0)
    | some r =>
      let s := s.setReg GOS_STATUS (setFld (s.reg GOS_STATUS ||| 4) 16 6 r)
      enterSafe (s.raiseRegion r .selftestFail 0) 7

/-! ### Commands -/

/-- VERDICT_FORMED (R376). -/
def execVerdictFormed (s : State) : Host.Outcome State Fault Refusal := .next (verdictFormed s)

/-- DIGEST_ITEM (R382). -/
def execDigestItem (d : DigestItem) (s : State) : Host.Outcome State Fault Refusal := .next (digestItem s d)

/-- PAIR_MISSING (R382): no valid item for tap `k` of tile `t` within 1.2 µs of the tick. -/
def execPairMissing (t : Nat) (k : Fin 4) (s : State) : Host.Outcome State Fault Refusal :=
  s.onTile t fun s => pairMissing s t k

/-- TICK_WATCH (R385). -/
def execTickWatch (interval : Option Nat) (s : State) : Host.Outcome State Fault Refusal :=
  .next (tickWatch s interval)

/-- SELFTEST (R388). -/
def execSelftest (failing : Option (Fin 62)) (s : State) : Host.Outcome State Fault Refusal :=
  .next (selfTest s (failing.map fun r => r.val))

end Sys2Proof.Machine
end

