-- ==== Sys2Proof/Machine/Resets.lean ====
section
/-! DEFINITION. Power gating of tiles (R22, R165) and the tile-row and job resets (R484 to R486). -/

namespace Sys2Proof.Machine

/-! ### Power gating (R22, R165) -/

/-- The Mule of a tile loses its registers and its inbox; its memories are kept (R165). -/
def muleOff (s : State) (t : Nat) : State :=
  let n := (s.tile t).mule.inbox.length
  let boot : BitVec 32 := BitVec.ofNat 32 (fld (s.reg (MUL_BOOT t)) 0 12 * 4)
  (s.modMule t fun m => { muleReset with
    pc := boot, imem := m.imem, dmem := m.dmem, imemErr := m.imemErr, dmemErr := m.dmemErr }).addReg (MUL_DISCARD t) n

/-- Words of an operand cache (R128). -/
def cacheWords : Nat := 16384

/-- Gate a tile: its matrix unit, vector engine and Mule are off, and its operand cache loses its contents. (DEDUCED, log 77) -/
def gateOff (s : State) (t : Nat) : State :=
  if (s.tile t).gated then s
  else
    let seed := s.freeCount
    let s := (muleOff s t).modTile t fun x =>
      { x with gated := true, arrays := [], passes := [], vec := { vecReset with cacheSeed := some seed } }
    { s with freeCount := seed + cacheWords }

/-- Power a gated tile: its Mule is HALTED at MUL_BOOT (R165). -/
def gateOn (s : State) (t : Nat) : State :=
  if !(s.tile t).gated then s
  else
    let s := s.modTile t fun x => { x with gated := false }
    s.modMule t fun m => { m with pc := BitVec.ofNat 32 (fld (s.reg (MUL_BOOT t)) 0 12 * 4) }

/-- The active-tile mask of the program that starts declares which tiles are powered (R22). -/
def gateTiles (s : State) (p : Nat) : State :=
  (List.range s.tileCount).foldl (fun s t => if s.maskBit (FRM_MASK p 0) t then gateOn s t else gateOff s t) s

/-! ### What a reset does to a tile (R484) -/

/-- An epoch advances: from 255 to 1 (R271). -/
def nextEpoch (v : BitVec 32) : BitVec 32 := if fld v 0 8 = 255 then 1 else BitVec.ofNat 32 (fld v 0 8 + 1)

/-- Drop the shadows of registers whose offset satisfies `p`. -/
def State.clearShadows (s : State) (p : Nat → Bool) : State := { s with shadow := mapClear s.shadow p }

/-- Registers at their reset values, with nothing pending for them. -/
def State.restore (s : State) (p : Nat → Bool) : State := (s.clearRegs p).clearShadows p

/-- Whether an offset lies in the window of tile `t`, from `lo` to below `hi`. -/
def inTile (t lo hi o : Nat) : Bool := decide (tileBase t + lo ≤ o) && decide (o < tileBase t + hi)

/-- The tile state that a tile-row reset, a job reset and a warm reset all reset (R165, R238, R271, R275, R276). -/
def resetTile (s : State) (t : Nat) : State :=
  let s := (muleOff s t).setReg (MSG_EPOCH t) (nextEpoch (s.reg (MSG_EPOCH t)))
  let s := s.restore fun o => inTile t 0x6100 0x6180 o || inTile t 0xA000 0xA080 o
  s.modTile t fun x => { x with
    chans := []
    outstanding := []
    held := []
    fences := []
    landings := []
    sigs := []
    landOpen := []
    semRose := [] }

/-- Whether an offset is a tile register of access SH. -/
def tileSh (o : Nat) : Bool :=
  decide (0x40000000 ≤ o) && match regGroupOf o with
    | some g => g.access == .sh
    | none => false

/-- The tile state that a job reset and a warm reset reset besides (R484). -/
def resetTileJob (s : State) (t : Nat) : State := (resetTile s t).modTile t fun x => { x with rng := [] }

/-! ### Requests (R486) -/

/-- DMC_RESET_STATUS with BUSY as the pending and running resets make it. -/
def resetBusy (s : State) : State :=
  let busy := s.rstJob != 0 || s.rstRows != 0 || s.reg DMC_ROWRST_STATUS != 0 || s.rstWarm
  s.setRegFld DMC_RESET_STATUS 0 1 (if busy then 1 else 0)

/-- A request is ignored. -/
def resetIgnored (s : State) : State := s.orReg DMC_RESET_STATUS 8

/-- DMC_RESET.JOB. -/
def jobRequest (s : State) : State :=
  if s.rstWarm ∨ s.rstJob ≠ 0 ∨ s.reg DMC_ROWRST_STATUS ≠ 0 then resetIgnored s
  else resetBusy { s with rstJob := 1 }

/-- DMC_ROWRST: bits of rows that do not exist are ignored. -/
def rowRequest (s : State) (v : BitVec 32) : State :=
  let rows := v.toNat % 2 ^ (s.tileCount / 32)
  if rows = 0 then s
  else if s.rstWarm ∨ s.rstJob ≠ 0 ∨ s.rstRows ≠ 0 ∨ s.reg DMC_ROWRST_STATUS ≠ 0 then resetIgnored s
  else resetBusy { s with rstRows := BitVec.ofNat 32 rows }

/-! ### The tile-row reset -/

/-- The tiles of a set of logical rows. -/
def State.rowTiles (s : State) (rows : BitVec 32) : List Nat :=
  (List.range s.tileCount).filter fun t => bit rows (t / 32)

/-- At the tick after the request the named rows enter reset. -/
def rowResetStart (s : State) : State :=
  if s.rstRows = 0 then s
  else
    let rows := s.rstRows
    let s := (s.rowTiles rows).foldl (fun s t => (resetTile s t).modTile t fun x => { x with inReset := true }) s
    resetBusy { s.setReg DMC_ROWRST_STATUS rows with rstRows := 0 }

/-- ROW_RESET_END: the reset ends. -/
def rowResetEnd (s : State) : State :=
  let rows := s.reg DMC_ROWRST_STATUS
  if rows = 0 then s
  else
    let s := (s.rowTiles rows).foldl (fun s t => s.modTile t fun x => { x with inReset := false }) s
    (resetBusy (s.setReg DMC_ROWRST_STATUS 0)).setRegFld DMC_RESET_STATUS 1 2 3

/-! ### The job reset -/

/-- The FRM registers that a job reset clears: program slots, sequence table and walk, batch count. -/
def jobFrm (o : Nat) : Bool :=
  o == FRM_SEQ_START || o == FRM_SEQ_POS || (decide (0x100 ≤ o) && decide (o < 0x500))
    || (decide (0x1000 ≤ o) && decide (o < 0x2000)) || (decide (0x8000 ≤ o) && decide (o < 0xC000))
    || o == FRM_WBATCH_COUNT_LO || o == FRM_WBATCH_COUNT_HI

/-- The rank table (R297, R317). -/
def rankTable (o : Nat) : Bool :=
  o == FAB_RANKS || o == FAB_OWN_RANK || (decide (FAB_RANK 0 ≤ o) && decide (o < FAB_RANK 4096))

/-- The units that a job reset and a warm reset stop (R229, R251, R287, R343, R404, R409). -/
def resetUnits (s : State) : State :=
  let s := colAbort (shrAbort (ctxReset (loadReset s)))
  let s := s.clearRegs fun o => decide (COL_SHD_STATE 0 ≤ o) && decide (o < COL_SHD_STATE 3 + 4)
  { s with
    agp := []
    colls := []
    dsigs := []
    rowWords := []
    events := []
    carried := [] }

/-- The safe state is left; after causes 5 and 7 by a warm reset only (R393). -/
def leaveSafe (s : State) (warm : Bool) : State :=
  if !warm ∧ (s.frame.safe = some 5 ∨ s.frame.safe = some 7) then s
  else (s.setReg GOS_STATUS (setFld (setFld (s.reg GOS_STATUS) 0 1 0) 8 4 0)).modFrame fun f => { f with safe := none }

/-- The state that a job reset and a warm reset share (R484). (DEDUCED, log 41) (DEDUCED, log 81) -/
def resetJobState (s : State) : State :=
  let s := (List.range s.tileCount).foldl (fun s t => resetTileJob s t) (resetUnits s)
  let s := s.setReg MSG_MOD_EPOCH (nextEpoch (s.reg MSG_MOD_EPOCH))
  let s := s.restore fun o => tileSh o || jobFrm o || rankTable o || (decide (DMC_SLOT 0 ≤ o) && decide (o < DMC_SLOT 64))
    || (decide (SYN_DSEM 0 ≤ o) && decide (o < SYN_DSEM 256))
  let s := (s.setRegFld GOS_STATUS 3 1 0).setRegFld FRM_CTRL 0 1 0
  { s with
    routes := []
    routesNext := none
    twins := []
    twinsNext := []
    twinClear := false
    frame := { s.frame with
      commitReq := none, armed := none, released := false, walking := false, startAt := none, draining := false,
      safeReq := false, refused := none, openedHoldover := false, stopped := false, released4 := 0,
      carriedIn := false } }

/-- JOB_RESET_RUN (R485): at the tick after the request. -/
def jobResetRun (s : State) : State :=
  if s.rstJob ≠ 2 then s
  else
    let s := leaveSafe (resetJobState s) false
    (resetBusy { s with rstJob := 0 }).setRegFld DMC_RESET_STATUS 1 2 2

/-! ### Commands -/

/-- JOB (R485). -/
def execJob (s : State) : Host.Outcome State Fault Refusal := .next (jobRequest s)

/-- JOB_RESET_RUN (R485). -/
def execJobResetRun (s : State) : Host.Outcome State Fault Refusal := .next (jobResetRun s)

/-- DMC_ROWRST (R486). -/
def execDmcRowrst (rows : BitVec 32) (s : State) : Host.Outcome State Fault Refusal := .next (rowRequest s rows)

/-- ROW_RESET_END (R486). -/
def execRowResetEnd (s : State) : Host.Outcome State Fault Refusal := .next (rowResetEnd s)

end Sys2Proof.Machine
end

