-- ==== Sys2Proof/Machine/Frames.lean ====
section
/-! DEFINITION. Ticks and frames (R43 to R67, R372, R475 to R478): the tick and its steps, arming, the close of a
frame, tick packets and holdover, the release into cycle 0, and the start and stop of arming. -/

namespace Sys2Proof.Machine

/-! ### The end of a frame (R56 to R58, R384) -/

/-- The end time E_r of a region for a program of C cycles, in ps after the tick (R56, R57). (DEDUCED, log 43) -/
def endOf (s : State) (c r : Nat) : Frac :=
  let x := s.region r
  let cycles := if r < 48 then c else mapGet 0 s.work r
  ((Frac.ofNat 40000).add (.mk' (cycles * 1000000) (max 1 s.frameF))).add ((x.stretch.add x.hold).add s.clk.throttle)

/-- The regions that take part in the frame (R57). -/
def State.regionsIn (s : State) : List Nat := (List.range 62).filter s.regionInFrame

/-- The critical region, the lowest of those that end last, and its end time. -/
def critical (s : State) (c : Nat) : Option (Nat × Frac) :=
  match s.regionsIn with
  | [] => none
  | r :: rest => some (rest.foldl (fun b q => if b.2.lt (endOf s c q) then (q, endOf s c q) else b) (r, endOf s c r))

/-- Whether the armed frame of C cycles has not ended by its closing tick (R58, R384). (DEDUCED, log 44) -/
def overran (s : State) (c : Nat) : Bool :=
  let late := match critical s c with
    | some (_, e) => (Frac.ofNat (s.period * 1000)).lt e
    | none => false
  let behind := (List.range s.tileCount).any fun t => s.tileUsed t && decide (s.cycle t < c)
  late || behind || (s.regionsIn.any fun r => (s.region r).held != 0) || !s.colls.isEmpty

/-- The first hard event of each region in the frame that closes (R397). -/
def showFirst (s : State) : State :=
  (List.range 62).foldl (fun s r =>
    s.setReg (GOS_L_FIRST r) (match s.events.find? fun e => e.region == r && evClass e.kind == .hard with
      | some e => BitVec.ofNat 32 (evCode e.kind + e.tile % 1024 * 2 ^ 8 + 2 ^ 31)
      | none => 0)) s

/-- The record of the frame that closes, for its verdict (R373, R442). -/
def closedOf (s : State) (overran : Bool) (refused : Option Nat) : Closed :=
  let p := s.frame.slot
  let taps := if refused.isSome then [] else s.activeTaps p
  { tick := s.reg64 FRM_TICK_LO, prog := p, entry := fld (s.reg FRM_SEQ_POS) 0 8, overrun := overran,
    refused := refused, holdover := s.frame.openedHoldover, cfg := s.reg (FRM_PROG_CFG p), events := s.events,
    carried := s.frame.carriedIn, released := s.frame.released4, batch := s.reg64 FRM_WBATCH_COUNT_LO,
    slack := s.reg FRM_SLACK_LAST, compared := 0, missing := 0,
    waits := taps.filter fun x => fld (s.reg (GOS_TAP x.1 x.2 0)) 6 2 == 2, tapTiles := taps.map fun x => x.1 }

/-- Hand the frame to the central Goose. -/
def handOver (s : State) (overran : Bool) (refused : Option Nat) : State :=
  { s.modFrame fun f => { f with released4 := 0 } with closed := some (closedOf s overran refused), events := [] }

/-- The digest items of the frame that closed (R382): one for each of its module pairs. -/
def sendItems (s : State) : State :=
  match s.closed with
  | none => s
  | some c => { s with items := c.waits.map fun x =>
      (⟨s.ownRank, x.1, x.2, c.prog, c.tick, s.tapDigest x.1 x.2, verdictOf c == 3⟩ : DigestItem) }

/-- What an ended frame leaves in the slack registers (R56): slack of the critical region, its charges and its
number; with no region in the frame its end is that of cycle 0. (DEDUCED, log 73) -/
def slackRegs (s : State) (c : Nat) : State :=
  let whole := fun (x : Frac) => BitVec.ofNat 32 (x.floor / 1000)
  let ((r, e), s) := match critical s c with
    | some b => (b, s)
    | none => let (v, s) := s.free; ((v % 62, Frac.ofNat 40000), s)
  let x := s.region r
  let slack := whole ((Frac.ofNat (s.period * 1000)).sub e)
  let s := (s.setReg FRM_SLACK_LAST slack).setReg FRM_CRIT_REGION (BitVec.ofNat 32 r)
  let s := ((s.setReg FRM_CHG_STRETCH (whole x.stretch)).setReg FRM_CHG_HOLD (whole x.hold)).setReg FRM_CHG_THROTTLE
    (whole s.clk.throttle)
  if slack.toNat < (s.reg FRM_SLACK_MIN).toNat then s.setReg FRM_SLACK_MIN slack else s

/-- The charges that the choice of the next frequency takes from the closing frame (R358). -/
def keepCharges (s : State) (stretch hold : Frac) : State :=
  { s with clk := { s.clk with lastStretch := stretch, lastHold := hold } }

/-- The overrun of the armed frame (R58). -/
def overrun (s : State) : State :=
  let s := ((s.orReg FRM_STATUS 1).incReg FRM_OVR_COUNT).setReg FRM_SLACK_LAST 0
  (s.raiseFrame ⟨.overrun, 61, 0, 0, 0⟩).modFrame fun f => { f with draining := true }

/-- The close of an armed frame of slot `p`. -/
def closeArmed (s : State) (p : Nat) : State :=
  let c := s.armedC
  let s := throttleCharge s c
  let late := !s.frame.stopped && overran s c
  let s := if s.frame.stopped then s else if late then overrun s else slackRegs s c
  let (stretch, hold) := match critical s c with
    | some (r, _) => ((s.region r).stretch, (s.region r).hold)
    | none => (⟨0, 1⟩, ⟨0, 1⟩)
  let taps := s.activeTaps p
  let s := handOver (showFirst (keepCharges s stretch hold)) late none
  let s := sendItems (comparePairs (showDigests s taps) p)
  let s := s.modFrame fun f => { f with armed := none }
  if late then drainUnits s else s

/-- Step 1 of a tick: the frame closes (R55, R372). The events of an idle frame are carried. -/
def closeFrame (s : State) : State :=
  let s := { s with items := [] }
  let s := match s.frame.armed, s.frame.refused with
    | some p, _ => closeArmed s p
    | none, some code => handOver (keepCharges (showFirst s) ⟨0, 1⟩ ⟨0, 1⟩) false (some code)
    | none, none =>
      let s := keepCharges (showFirst s) ⟨0, 1⟩ ⟨0, 1⟩
      { s with carried := s.carried ++ s.events, events := [] }
  s.modFrame fun f => { f with released := false, stopped := false, refused := none, openedHoldover := false,
                               carriedIn := false }

/-! ### Holdover and the tick tree (R45 to R47, R476 to R478) -/

/-- Whether the module is the bellwether. -/
def State.bellwether (s : State) : Bool := fld (s.reg FAB_HALL_STATUS) 4 2 == 1

/-- Whether holdover has lasted for FRM_HOLDOVER_LIMIT ticks; a limit of 0 is reached at the first (R47). (DEDUCED, log 39) -/
def holdoverOut (s : State) : Bool :=
  match s.frame.holdover with
  | some n => decide ((s.reg FRM_HOLDOVER_LIMIT).toNat ≤ n)
  | none => false

/-- TICK_LOST (R47): it follows the tick that reached the limit. -/
def tickLost (s : State) : State :=
  if !holdoverOut s ∨ s.frame.tickDue.isSome ∨ s.frame.safe.isSome then s
  else enterSafe (s.orReg FRM_STATUS 0x10) 2

/-- The parent of the tick that is due takes effect (R476). -/
def followParent (s : State) : State :=
  match s.frame.parent with
  | none => s
  | some p =>
    let st := s.reg FAB_HALL_STATUS
    let s := if fld st 8 5 = p.link then s else s.orReg FAB_HALL_EVENT 4
    let s := (s.setRegFld FAB_HALL_STATUS 8 5 p.link).setRegFld FAB_HALL_STATUS 16 4 p.hops
    s.setReg FAB_TICK_ERR (p.err.setWidth 32)

/-- The tick flits of a tick (R476). -/
def sendTicks (s : State) : State :=
  let b := s.reg FAB_BELL
  let p : TickPacket :=
    { tick := s.reg64 FRM_TICK_LO, period := BitVec.ofNat 27 s.period,
      hops := BitVec.ofNat 8 (fld (s.reg FAB_HALL_STATUS) 16 4 + 1), flock := BitVec.ofNat 8 (fld b 0 8),
      member := BitVec.ofNat 5 (fld b 8 5), prio := BitVec.ofNat 8 (fld b 16 8), handover := s.frame.handover,
      serial := s.reg64 FAB_BELL_SERIAL_LO }
  { s with tickFlits := ((List.range 32).filter s.linkCarries).map fun l => (l, p) }

/-- The word of FAB_BELL for a packet. -/
def TickPacket.bell (p : TickPacket) : BitVec 32 :=
  BitVec.ofNat 32 (p.flock.toNat + p.member.toNat * 2 ^ 8 + p.prio.toNat * 2 ^ 16 + 2 ^ 31)

/-- Whether candidate `a`, a priority and a serial, is lower than `b` (R473). -/
def lowerCand (a b : Nat × Nat) : Bool := decide (a.1 < b.1) || (a.1 == b.1 && decide (a.2 < b.2))

/-- The bellwether followed, as a candidate. -/
def State.bellCand (s : State) : Nat × Nat := (fld (s.reg FAB_BELL) 16 8, (s.reg64 FAB_BELL_SERIAL_LO).toNat)

/-- Whether a packet comes from the bellwether that the module follows. -/
def fromBell (s : State) (p : TickPacket) : Bool := s.reg FAB_BELL == p.bell && s.reg64 FAB_BELL_SERIAL_LO == p.serial

/-- Whether a packet comes from the deputy. -/
def fromDeputy (s : State) (p : TickPacket) : Bool :=
  let d := s.reg FAB_DEPUTY
  bit d 31 && fld d 0 8 == p.flock.toNat && fld d 8 5 == p.member.toNat

/-- Whether the module takes a packet as one of a bellwether to follow (R478, R480): from the one it follows or a
lower one, before it knows one, and from the deputy while no packet of the tick has come. -/
def packetTaken (s : State) (p : TickPacket) : Bool :=
  fromBell s p || !bit (s.reg FAB_BELL) 31 || lowerCand (p.prio.toNat, p.serial.toNat) s.bellCand
    || (!s.bellwether && fromDeputy s p && s.frame.tickDue.isNone)

/-- Follow the bellwether that a packet names: a module whose view had not settled has joined late (R480). -/
def followBell (s : State) (p : TickPacket) : State :=
  if fromBell s p then s
  else
    let st := s.reg FAB_HALL_STATUS
    let late := fld st 0 3 < 4
    let s := (s.setReg FAB_BELL p.bell).setReg64 FAB_BELL_SERIAL_LO p.serial
    let s := if late then (s.setRegFld FAB_HALL_STATUS 6 1 1).setRegFld FAB_HALL_STATUS 0 3 4 else s
    let s := if s.bellwether then s.setRegFld FAB_HALL_STATUS 4 2 0 else s
    s.modFrame fun f => { f with parent := none, tickDue := none }

/-- The parent among the packets of a tick: the lowest HOPS, then the lowest link. -/
def bestParent (a : Option TickParent) (b : TickParent) : TickParent :=
  match a with
  | none => b
  | some a => if a.hops < b.hops ∨ (a.hops = b.hops ∧ a.link ≤ b.link) then a else b

/-- Whether e lies within 50 ns, in units of 0.125 ns. -/
def inWindow (e : BitVec 16) : Bool := decide (e.toInt ≤ 400) && decide (-400 ≤ e.toInt)

/-- A valid packet of the tick that is due. -/
def takePacket (s : State) (l : Nat) (p : TickPacket) (e : BitVec 16) : State :=
  s.modFrame fun f => { f with
    holdover := none
    handover := p.handover
    tickDue := some (some p.period.toNat)
    parent := some (bestParent f.parent ⟨p.hops.toNat, l, e⟩) }

/-- TICK_PACKET (R45, R46, R476 to R478, R480): a packet on calibrated link `l` with the error `e` of its time. (DEDUCED, log 83) -/
def tickPacket (s : State) (l : Nat) (p : TickPacket) (e : BitVec 16) : State :=
  if !s.power.mainGood ∨ !s.linkCarries l ∨ !bit (s.reg (FAB_TDLY l)) 31 ∨ !packetTaken s p then s
  else if !s.frame.acquired then
    let s := followBell s p
    if s.period = 0 ∨ p.period.toNat ≠ s.period ∨ s.bellwether then s
    else takePacket ((s.setReg64 FRM_TICK_LO (p.tick - 1)).modFrame fun f => { f with acquired := true }) l p e
  else if !inWindow e ∨ s.frame.tickDue = some none ∨ (s.bellwether ∧ fromBell s p) then s
  else if p.tick ≠ s.reg64 FRM_TICK_LO + 1 then s.orReg FRM_STATUS 0x20
  else takePacket (followBell s p) l p e

/-- HOLDOVER_TICK (R46): no valid packet has come in the window. -/
def holdoverTick (s : State) : State :=
  if !s.power.mainGood ∨ s.period = 0 ∨ !s.frame.acquired ∨ s.bellwether ∨ s.frame.tickDue.isSome then s
  else
    let s := if s.frame.holdover.isNone then s.orReg FRM_STATUS 8 else s
    s.modFrame fun f => { f with holdover := some (f.holdover.getD 0 + 1), tickDue := some none, parent := none }

/-! ### Arming (R45, R53, R54) -/

/-- A bit at or above DMC_IDENT.TILES in the active-tile mask of a slot. -/
def maskHigh (s : State) (p : Nat) : Bool :=
  (List.range 1024).any fun t => decide (s.tileCount ≤ t) && s.maskBit (FRM_MASK p 0) t

/-- A used tile of a slot that is in tile-row reset. -/
def usedInReset (s : State) (p : Nat) : Bool :=
  (s.tiles.filter fun e => e.2.inReset).any fun e => s.maskBit (FRM_USED p 0) e.1

/-- The checks of R53 in order: each fails or not, with its code. -/
def armChecks (s : State) (p : Nat) : List (Bool × Nat) :=
  let cfg := s.reg (FRM_PROG_CFG p)
  let ff := cfgFloor cfg
  let packet : Bool := match s.frame.tickDue with
    | some (some n) => n != s.period
    | _ => false
  [(s.frame.draining, 0x09), (packet, 0x08), (!bit cfg 31, 0x01), (decide (ff < 1600) || decide (2800 < ff), 0x02),
    (decide ((s.reg (FRM_PROG_RESERVE p)).toNat < leastReserve ff), 0x03), (!s.slotFits p s.period, 0x04),
    (maskHigh s p, 0x05), (!s.maskInside p, 0x06), (usedInReset s p, 0x07)]

/-- The code of the first check that fails. -/
def armCode (s : State) (p : Nat) : Option Nat := ((armChecks s p).find? fun x => x.1).map fun x => x.2

/-- The event of a frame that opens in holdover (R47). -/
def openHoldover (s : State) : State :=
  if s.frame.holdover.isNone then s
  else (s.raiseFrame ⟨.holdover, 61, 0, 0, 0⟩).modFrame fun f => { f with openedHoldover := true }

/-- The frame of slot `p` is refused (R54). -/
def refuseFrame (s : State) (p code : Nat) : State :=
  let s := (s.orReg FRM_STATUS 2).setReg FRM_ARM_CODE (BitVec.ofNat 32 code)
  let s := s.modFrame fun f => { f with refused := some code, slot := p }
  openHoldover (s.raiseFrame ⟨.armRefused, 61, 0, 0, code⟩)

/-- Slot `p` is armed (R53): the events carried so far are its own, and its mask gates the tiles (R22, R372). -/
def armFrame (s : State) (p : Nat) : State :=
  let had := !s.carried.isEmpty
  let s := { s with events := s.carried, carried := [], colStarted := [] }
  let s := s.modFrame fun f => { f with armed := some p, slot := p, carriedIn := had }
  openHoldover (gateTiles s p)

/-- Whether the sequence is walked at the tick of count `c` (R54, R61, R280). -/
def walks (s : State) (c : BitVec 64) : Bool :=
  let reached := match s.frame.startAt with
    | some n => decide (n.toNat ≤ c.toNat)
    | none => true
  bit (s.reg FRM_CTRL) 0 && s.frame.safe.isNone && !holdoverOut s && s.ctxState == 0 && s.rstJob == 0
    && (s.frame.walking || reached)

/-- Steps 4 to 6 of a tick: the walk, the start of a batch, and the arming checks. -/
def openFrame (s : State) (c : BitVec 64) : State :=
  if !walks s c then s
  else
    let (s, w) := seqWalk s
    match w.prog with
    | none => s
    | some p =>
      let s := if w.moved ∧ s.startsBatch p then batchStart s else s
      match armCode s p with
      | some code => refuseFrame s p code
      | none => armFrame s p

/-! ### The tick (R55) -/

/-- Whether a tick is produced: a period is committed, and the module is the bellwether, or a packet or its own timer
has given the tick (R43, R44, R477). -/
def tickReady (s : State) : Bool :=
  s.power.mainGood && s.period != 0 && (s.bellwether || (s.frame.acquired && s.frame.tickDue.isSome))

/-- The local Geese whose summaries are missing or not valid (R386, R516). (DEDUCED, log 84) -/
def silentRegions (s : State) (silent : List Nat) : State :=
  (silent.filter s.regionOn).foldl (fun s _ => s.raiseFrame ⟨.localSilent, 61, 0, 0, 0⟩) s

/-- SAFE_REQ enters the safe state at the tick (R67), unless the holdover limit does (R390). -/
def safeAtTick (s : State) : State := if s.frame.safeReq && !holdoverOut s then enterSafe s 3 else s

/-- Steps 1 to 3 of a tick of count `c`, with what besides takes effect at a tick: safe requests, resets (R485,
R486), a context operation (R280). A job reset drops the pending commit. -/
def tickStart (s : State) (c : BitVec 64) : State :=
  let s := safeAtTick (s.setReg64 FRM_TICK_LO c)
  let s := if s.rstJob = 1 then { s with rstJob := 2, rstRows := 0 } else commitTick s c
  ctxStart (ringSample (hostTick (rowResetStart s) c)) c

/-- TICK (R55); `silent` are the regions whose local Goose sends no valid summary (R386). -/
def tick (s : State) (silent : List Nat) : State :=
  if !tickReady s then s
  else
    let s := silentRegions (settleVerdict (s.modFrame fun f => { f with acquired := true })) silent
    let s := closeFrame (followParent s)
    let c := s.reg64 FRM_TICK_LO + 1
    let s := openFrame (tickStart s c) c
    let s := sendTicks (twinTick (forwardTick (publishF s s.frame.armed)))
    s.modFrame fun f => { f with tickDue := none, parent := none }

/-! ### The release into cycle 0 (R55 step 7, R108, R113, R126, R171, R379) -/

/-- The per-frame state of tile `t` at cycle 0. -/
def releaseTile (s : State) (t : Nat) : State :=
  let taps := match s.frame.armed with
    | some p => s.activeTaps p
    | none => []
  let x0 := s.tile t
  let ctl := match s.frame.armed with
    | some p => ctlStart (BitVec.ofNat 11 (fld (s.reg (FRM_PROG_ENTRY p)) 0 11))
    | none => { ctlReset with pc := x0.ctl.pc }
  s.setTile t { clearMatrix x0 with
    ctl := ctl
    vec := clearVec x0.vec
    chans := mapMap chanReset x0.chans fun c => { c with
      basePrev := c.base
      run := c.run.map fun r => { r with issue := 2 ^ 32, reqAt := 0 } }
    sigs := x0.sigs.map fun g => { g with due := g.due.map fun _ => 0 }
    mule := { x0.mule with inbox := x0.mule.inbox.map fun e => { e with entered := 0 } }
    landings := x0.landings.map fun l => { l with arrived := 0 }
    semRose := []
    portUse := []
    hazardSeen := false
    broken := false
    rowIn := []
    taps := mapClear x0.taps fun k => taps.contains (t, k) }

/-- RELEASE_CYCLE0: 40 ns after the tick every region enters cycle 0. -/
def releaseCycle0 (s : State) : State :=
  if !s.power.mainGood ∨ !s.frame.acquired ∨ s.frame.released ∨ s.frame.stopped then s
  else
    let s := (List.range s.tileCount).foldl (fun s t => releaseTile s t) s
    { s.modFrame fun f => { f with released := true } with
      rowWords := []
      flight := s.flight.map fun f => { f with due := 0 }
      answers := s.answers.map fun a => { a with due := 0 } }

/-! ### Drain, start and stop (R59, R61, R67) -/

/-- DRAIN_COMPLETE (R59). -/
def drainComplete (s : State) : State :=
  if !s.frame.draining ∨ !drained s then s
  else
    let s := s.modFrame fun f => { f with draining := false }
    if bit (s.reg FRM_MODE) 1 then enterSafe s 1 else s

/-- FRM_CTRL.RUN is set (R61, R482); a core without verified firmware arms nothing (R458). -/
def runStart (s : State) : State :=
  if bit (s.reg DMC_BRING) 0 ∨ s.mgmt.dev = 8 ∨ bit (s.reg FRM_CTRL) 0 then s
  else
    let at' := s.reg64 FRM_START_TICK_LO
    let late := at' = 0 ∨ at'.toNat ≤ (s.reg64 FRM_TICK_LO).toNat
    (s.setRegFld FRM_CTRL 0 1 1).modFrame fun f => { f with
      walking := false, startAt := if late then none else some at' }

/-- FRM_CTRL.RUN is cleared (R61). -/
def runStop (s : State) : State :=
  (s.setRegFld FRM_CTRL 0 1 0).modFrame fun f => { f with walking := false, startAt := none }

/-- FRM_CTRL.SAFE_REQ (R67). -/
def safeReq (s : State) : State :=
  if s.frame.safe.isSome then s else s.modFrame fun f => { f with safeReq := true }

/-! ### Commands -/

/-- TICK (R55). -/
def execTick (silent : List (Fin 62)) (s : State) : Host.Outcome State Fault Refusal :=
  .next (tick s (silent.map fun r => r.val))

/-- TICK_PACKET (R46). -/
def execTickPacket (l : Fin 32) (p : TickPacket) (err : BitVec 16) (s : State) : Host.Outcome State Fault Refusal :=
  .next (tickPacket s l p err)

/-- HOLDOVER_TICK (R46). -/
def execHoldoverTick (s : State) : Host.Outcome State Fault Refusal := .next (holdoverTick s)

/-- TICK_LOST (R47). -/
def execTickLost (s : State) : Host.Outcome State Fault Refusal := .next (tickLost s)

/-- DRAIN_COMPLETE (R59). -/
def execDrainComplete (s : State) : Host.Outcome State Fault Refusal := .next (drainComplete s)

/-- RELEASE_CYCLE0 (R55). -/
def execReleaseCycle0 (s : State) : Host.Outcome State Fault Refusal := .next (releaseCycle0 s)

/-- RUN_START (R61). -/
def execRunStart (s : State) : Host.Outcome State Fault Refusal := .next (runStart s)

/-- RUN_STOP (R61). -/
def execRunStop (s : State) : Host.Outcome State Fault Refusal := .next (runStop s)

/-- SAFE_REQ (R67). -/
def execSafeReq (s : State) : Host.Outcome State Fault Refusal := .next (safeReq s)

end Sys2Proof.Machine
end

