-- ==== Sys2Proof/Machine/Hall.lean ====
section
/-! DEFINITION. How a hall finds itself (R471 to R480): candidates, the election, takeover and handover. -/

namespace Sys2Proof.Machine

/-! ### Candidates (R473) -/

/-- The pair that ranks a candidate: BELL_PRIO and serial. -/
def Cand.rank (c : Cand) : Nat × Nat := (c.prio.toNat, c.serial.toNat)

/-- The module as a candidate. -/
def State.ownCand (s : State) : Cand :=
  ⟨BitVec.ofNat 8 s.ownFlock, BitVec.ofNat 5 s.ownMember, BitVec.ofNat 8 (fld (s.reg MMC_SITE) 0 8), s.part.serial⟩

/-- Insert a candidate where its rank places it, once. -/
def candInsert (c : Cand) (cs : List Cand) : List Cand :=
  match cs with
  | [] => [c]
  | d :: t => if c = d then d :: t else if lowerCand c.rank d.rank then c :: d :: t else d :: candInsert c t

/-- The two lowest of the candidates known and those received. -/
def candMerge (known received : List Cand) : List Cand :=
  (received.foldl (fun cs c => candInsert c cs) known).take 2

/-- FAB_BELL and FAB_DEPUTY words of a candidate; 0 for none. -/
def candWord (c : Option Cand) (prio : Bool) : BitVec 32 :=
  match c with
  | none => 0
  | some c => BitVec.ofNat 32 (c.flock.toNat + c.member.toNat * 2 ^ 8 + (if prio then c.prio.toNat * 2 ^ 16 else 0)
      + 2 ^ 31)

/-- CANDIDATE_EXCHANGE (R473): the lowest candidates that the peer of link `l` knows. -/
def candidateExchange (s : State) (l : Nat) (cs : List Cand) : State :=
  if !s.power.mainGood ∨ !s.linkCarries l then s
  else
    let own := if bit (s.reg FAB_HALL_STATUS) 6 && !s.electing then [] else [s.ownCand]
    let new := candMerge (candMerge s.cands own) (cs.take 2)
    if new = s.cands then s else { s with cands := new, viewAt := s.us }

/-! ### The election (R473, R479) -/

/-- Bellwether and deputy are those of the view: the module takes its own role. -/
def fixBell (s : State) : State :=
  let bell := s.cands.head?
  let dep := s.cands[1]?
  let role := if bell = some s.ownCand then 1 else if dep = some s.ownCand then 2 else 0
  let s := (s.setReg FAB_BELL (candWord bell true)).setReg64 FAB_BELL_SERIAL_LO ((bell.map fun c => c.serial).getD 0)
  let s := (s.setReg FAB_DEPUTY (candWord dep false)).setRegFld FAB_HALL_STATUS 4 2 role
  let s := if role = 1 then (s.setRegFld FAB_HALL_STATUS 16 4 0).setRegFld FAB_HALL_STATUS 8 5 0 else s
  s.modFrame fun f => { f with tickDue := none, parent := none }

/-- Whether the view has not changed for 10 ms. -/
def viewSettled (s : State) : Bool := decide (s.viewAt + 10000 ≤ s.us)

/-- ELECTION_SETTLE (R473, R479). The module itself is in its view from the start. -/
def electionSettle (s : State) : State :=
  if !s.power.mainGood ∨ !viewSettled s then s
  else if s.hallStage = 3 then
    let s := fixBell { s with cands := candMerge s.cands [s.ownCand] }
    hallAdvance (s.setRegFld FAB_HALL_STATUS 0 3 4)
  else if s.electing ∧ s.bellwether then
    { s with electing := false }.modFrame fun f => { f with handover := s.reg64 FRM_TICK_LO + 4096 }
  else s

/-- FAB_HALL_CTRL.ELECT (R479): ignored on a module that is not the bellwether. -/
def elect (s : State) : State :=
  if !s.bellwether then s else { s with electing := true, cands := [s.ownCand], viewAt := s.us }

/-- TAKEOVER (R478): the deputy has missed two ticks. -/
def takeover (s : State) : State :=
  if fld (s.reg FAB_HALL_STATUS) 4 2 ≠ 2 ∨ s.frame.holdover.getD 0 < 2 ∨ s.frame.safe.isSome then s
  else
    let c := s.ownCand
    let s := (s.setReg FAB_BELL (candWord (some c) true)).setReg64 FAB_BELL_SERIAL_LO c.serial
    let s := ((s.setRegFld FAB_HALL_STATUS 4 2 1).setRegFld FAB_HALL_STATUS 16 4 0).setRegFld FAB_HALL_STATUS 8 5 0
    (s.orReg FAB_HALL_EVENT 1).modFrame fun f => { f with holdover := none, tickDue := none, parent := none }

/-- HANDOVER (R479): at the tick count that the packets name the winner becomes bellwether. -/
def handover (s : State) : State :=
  if s.frame.handover = 0 ∨ (s.reg64 FRM_TICK_LO).toNat < s.frame.handover.toNat ∨ s.cands.isEmpty then s
  else ((fixBell s).orReg FAB_HALL_EVENT 2).modFrame fun f => { f with handover := 0 }

/-! ### Commands -/

/-- CANDIDATE_EXCHANGE (R473). -/
def execCandidateExchange (l : Fin 32) (cs : List Cand) (s : State) : Host.Outcome State Fault Refusal :=
  .next (candidateExchange s l cs)

/-- ELECTION_SETTLE (R473). -/
def execElectionSettle (s : State) : Host.Outcome State Fault Refusal := .next (electionSettle s)

/-- ELECT (R479). -/
def execElect (s : State) : Host.Outcome State Fault Refusal := .next (elect s)

/-- TAKEOVER (R478). -/
def execTakeover (s : State) : Host.Outcome State Fault Refusal := .next (takeover s)

/-- HANDOVER (R479). -/
def execHandover (s : State) : Host.Outcome State Fault Refusal := .next (handover s)

end Sys2Proof.Machine
end

