-- ==== Sys2Proof/Machine/Images.lean ====
section
/-! DEFINITION. Signed images and configuration records (R453, R454, R457, R459): their fields, their verification,
and the slots that a boot selects. -/

namespace Sys2Proof.Machine

/-! ### Fields (R453, R459) -/

/-- An image as it lies in the flash. -/
abbrev Image := List (BitVec 8)

/-- The little-endian number of `n` bytes at offset `o` of an image. -/
def imgNat (i : Image) (o n : Nat) : Nat := leNat ((i.drop o).take n)

def imgType (i : Image) : Nat := imgNat i 6 1
def imgKey (i : Image) : Nat := imgNat i 7 1
def imgSvn (i : Image) : Nat := imgNat i 8 4
def imgLen (i : Image) : Nat := imgNat i 0xC 4
def imgSerial (i : Image) : Nat := imgNat i 0x10 8

/-- Bytes 0 to 0x3F + BODY_LEN. -/
def imgSigned (i : Image) : Image := i.take (0x40 + imgLen i)

/-- A field of the body. -/
def bodyNat (i : Image) (o n : Nat) : Nat := imgNat i (0x40 + o) n

/-- MAGIC, VERSION, TYPE, the length and the reserved bytes of a header are as in R453. -/
def imgForm (i : Image) : Bool :=
  imgNat i 0 4 == 0x49535A4E && imgNat i 4 2 == 1 && decide (1 ≤ imgType i) && decide (imgType i ≤ 4)
    && imgNat i 0x20 32 == 0 && i.length == 0x40 + imgLen i + 3700
    && (decide (2 < imgType i) || decide (imgLen i ≤ 0x800000))

/-! ### Verification (R454) -/

/-- Whether a key slot may sign a TYPE. -/
def keyPermits (key typ : Nat) : Bool := decide (key < 2) || (decide (key < 4) && typ == 4)

/-- The public keys of a slot; none while it is not enrolled. -/
def State.slotKeys (s : State) (key : Nat) : Option (List (BitVec 8) × List (BitVec 8)) :=
  if key < 2 then some (Config.romKeys key) else mapFind s.mgmt.keys key

/-- Whether both signatures verify under the keys of the image's slot. -/
def State.signaturesOk (s : State) (i : Image) : Bool :=
  match s.slotKeys (imgKey i) with
  | none => false
  | some (ec, hs) =>
    let at' := 0x40 + imgLen i
    Config.ecdsaOk ec (sha384 (imgSigned i)) ((i.drop at').take 96)
      && Config.hssOk hs (imgSigned i) ((i.drop (at' + 96)).take 3604)

/-- Whether an image verifies. -/
def State.imageOk (s : State) (i : Image) : Bool :=
  imgForm i && keyPermits (imgKey i) (imgType i) && !s.mgmt.revoked.getLsbD (imgKey i) && s.signaturesOk i

/-! ### The slots that a boot selects (R457) -/

/-- The image in slot `k` for a TYPE. -/
def State.flashImage (s : State) (typ k : Nat) : Image := mapGet [] s.mgmt.flash (2 * typ + k)

/-- The counter of a TYPE. -/
def State.svnCounter (s : State) (typ : Nat) : Nat := mapGet 0 s.mgmt.counters typ

/-- Whether the image in a slot is of its TYPE and verifies. -/
def State.slotVerifies (s : State) (typ k : Nat) : Bool :=
  let i := s.flashImage typ k
  imgType i == typ && s.imageOk i

/-- The firmware slot that a boot takes: the higher SVN, slot A where they are equal. -/
def State.fwSelect (s : State) (typ : Nat) : Option Nat :=
  let svn := fun (k : Nat) => imgSvn (s.flashImage typ k)
  let ok := fun (k : Nat) => s.slotVerifies typ k && decide (s.svnCounter typ ≤ svn k)
  match ok 0, ok 1 with
  | true, true => some (if svn 0 < svn 1 then 1 else 0)
  | true, false => some 0
  | false, true => some 1
  | false, false => none

/-- The record slot that a boot takes: A first. -/
def State.recSelect (s : State) (typ : Nat) : Option Nat :=
  [0, 1].find? fun k =>
    let i := s.flashImage typ k
    s.slotVerifies typ k && imgSerial i == s.part.serial.toNat && imgSvn i == s.svnCounter typ

/-- The image that the boot selected for a TYPE. -/
def State.chosen (s : State) (typ : Nat) : Option Image :=
  (mapFind s.mgmt.selected typ).map fun k => s.flashImage typ k

/-- The image of a TYPE that runs or is in force. -/
def State.running (s : State) (typ : Nat) : Option Image := mapFind s.mgmt.inForce typ

/-! ### The records in force (R459, R461, R255, R481) -/

/-- The union of the STACK_OUT masks of the records in force. -/
def State.stackOut (s : State) : BitVec 8 :=
  let m := fun (typ : Nat) => BitVec.ofNat 8 ((s.running typ).elim 0 fun i => bodyNat i 9 1)
  m 3 ||| m 4

/-- The union of the ROW_EXCLUDE masks. -/
def State.rowExclude (s : State) : BitVec 36 :=
  let m := fun (typ : Nat) => BitVec.ofNat 36 ((s.running typ).elim 0 fun i => bodyNat i 0xC 8)
  m 3 ||| m 4

/-- The effective BELL_PRIO and MAIN_AUTO: 255 and clear without a site record. -/
def State.bellPrio (s : State) : Nat := (s.running 4).elim 255 fun i => bodyNat i 8 1
def State.mainAuto (s : State) : Bool := (s.running 4).elim false fun i => bodyNat i 0xA 1 % 2 == 1

/-- GRADE of the factory record. -/
def State.grade (s : State) : Nat := (s.running 3).elim 0 fun i => bodyNat i 8 1

/-- CLK_VF_k of the factory record, mV. -/
def State.vfTrim (s : State) (k : Nat) : Nat := (s.running 3).elim 0 fun i => bodyNat i (0x18 + 2 * k) 2

/-- Change the management state. -/
def State.modMgmt (s : State) (f : Mgmt → Mgmt) : State := { s with mgmt := f s.mgmt }

/-- MMC_STATE.STATE. -/
def State.mmcState (s : State) : Nat := fld (s.reg MMC_STATE) 0 3
def State.setMmcState (s : State) (v : Nat) : State := s.setRegFld MMC_STATE 0 3 v

/-- Select the records of both TYPEs (R457); the REVOKE field of the factory record comes into force (R460). False
where no record qualifies. -/
def selectRecords (s : State) : State × Bool :=
  match s.recSelect 3 with
  | none => (s, false)
  | some k =>
    let rv : BitVec 4 := BitVec.ofNat 4 (bodyNat (s.flashImage 3 k) 0xA 1)
    let s := s.modMgmt fun m => { m with selected := mapPut m.selected 3 k, revoked := m.revoked ||| rv }
    match s.recSelect 4 with
    | some j => (s.modMgmt fun m => { m with selected := mapPut m.selected 4 j }, true)
    | none =>
      let s := s.modMgmt fun m => { m with selected := mapDel m.selected 4 }
      (s, s.svnCounter 4 == 0)

/-- MMC_STATE shows the slots that the boot selected. -/
def showSlots (s : State) : State :=
  let slot := fun (typ : Nat) => (mapFind s.mgmt.selected typ).getD 0
  ((s.setRegFld MMC_STATE 8 1 (slot 1)).setRegFld MMC_STATE 9 1 (slot 3)).setRegFld MMC_STATE 10 1 (slot 4)

/-- An image comes to run or into force; none: no image of the TYPE does. -/
def State.putInForce (s : State) (typ : Nat) (i : Option Image) : State :=
  s.modMgmt fun m => { m with inForce := match i with
    | some i => mapPut m.inForce typ i
    | none => mapDel m.inForce typ }

/-- The selected records come into force, and the registers show them (R461, R469). (DEDUCED, log 93) -/
def applyRecords (s : State) : State :=
  let s := (s.putInForce 3 (s.chosen 3)).putInForce 4 (s.chosen 4)
  let s := s.setReg MMC_SITE (BitVec.ofNat 32
    (s.bellPrio + (if s.mainAuto then 2 ^ 8 else 0) + s.stackOut.toNat * 2 ^ 16))
  let s := (s.setReg MMC_ROW_EXCL_LO (s.rowExclude.setWidth 32)).setReg MMC_ROW_EXCL_HI
    ((s.rowExclude >>> 32).setWidth 32)
  s.setRegFld MMC_STATE 11 1 (if (s.running 4).isNone then 1 else 0)

end Sys2Proof.Machine
end

