-- ==== Sys2Proof/Machine/Power.lean ====
section
/-! DEFINITION. Power (R491 to R500, R510) and the board-test port (R508): the conditions for main power, the order
of the rails, orderly power-down, and trips. -/

namespace Sys2Proof.Machine

/-! ### Shared operations -/

/-- Change the power state. -/
def State.modPower (s : State) (f : Power → Power) : State := { s with power := f s.power }

/-- The central Goose's standby record (R395). -/
def gosRecord (o : Nat) : Bool := decide (GOS_REC_VERDICT ≤ o) && decide (o < GOS_REC_VERDICT + 0x1C)

/-- The MMC window (R33). -/
def inMmc (o : Nat) : Bool := decide (0x90000 ≤ o) && decide (o < 0xA0000)

/-- Whether the management firmware runs: P12V_SB is good and stages 2 or 3 of the boot run it (R456). -/
def State.mmcRuns (s : State) : Bool := s.power.p12 && !s.mgmt.down && decide (2 ≤ s.mgmt.stage) && (s.running 1).isSome

/-- MMC_STATE.STATE as power makes it, once STANDBY_READY has been reached (R469). -/
def showMain (s : State) : State :=
  if s.mgmt.stage ≠ 3 then s
  else s.setMmcState (match s.power.seq with
    | .off => 2
    | .waiting => 2
    | .on => 4
    | _ => 3)

/-- The stagger delay D, µs (R493, R507). -/
def State.staggerUs (s : State) : Nat :=
  if s.mgmt.slotOk then 20000 * s.mgmt.member.toNat + 2000 * (s.mgmt.flock.toNat % 8) else 334000

/-- The conditions of R492 but for P52V. -/
def State.mayEnable (s : State) : Bool :=
  s.power.p12 && s.mgmt.stage == 3 && s.power.enLow && s.power.onReq && s.power.stagger && s.power.trip.isNone

/-- The main converter is enabled where every condition of R492 holds; with P52V alone outside its range the module
waits for it. -/
def powerTry (s : State) : State :=
  if s.power.seq ≠ .off ∧ s.power.seq ≠ .waiting then s
  else if !s.mayEnable then showMain (s.modPower fun p => { p with seq := .off })
  else if s.power.p52 then showMain (s.modPower fun p => { p with seq := .rising 1 })
  else if s.power.seq = .waiting then s
  else s.modPower fun p => { p with seq := .waiting, waitAt := s.us }

/-- Main power is gone: main-side state is lost as at cold power-on; the standby state of R25 is kept (R500). (DEDUCED, log 89) -/
def mainLost (s : State) : State :=
  let ident : BitVec 32 := BitVec.ofNat 32 s.part.stepping
  let kept := s.regs.filter fun e => inMmc e.1 || gosRecord e.1
  { State.reset with
    pending := s.pending
    freeCount := s.freeCount
    entropyCount := s.entropyCount
    part := s.part
    regs := mapSet 0 kept DMC_IDENT ident
    sent := s.sent
    hlk := { Hlk.reset with sent := s.hlk.sent }
    power := { s.power with mainGood := false, seq := .off }
    mgmt := { s.mgmt with dev := 0, spdm := ⟨0, [], none, []⟩, inForce := mapDel s.mgmt.inForce 2 }
    tap := s.tap
    us := s.us }

/-! ### Power up (R492, R493, R496) -/

/-- MAIN_ON (R452, R492, R500): a latched trip holds main power off until a MAIN_ON at least 1 s after it. (DEDUCED, log 90) -/
def mainOn (s : State) : State :=
  let held := s.power.trip.isSome && decide (s.us < s.power.tripAt + 1000000)
  if !s.mmcRuns ∨ held ∨ s.power.seq = .on ∨ s.power.seq = .settled then s
  else match s.power.seq with
    | .rising _ => s
    | _ => powerTry (s.modPower fun p => { p with onReq := true, stagger := false, onAt := s.us, trip := none })

/-- STAGGER_EXPIRY (R493). -/
def staggerExpiry (s : State) : State :=
  if !s.power.onReq ∨ s.power.stagger ∨ s.us < s.power.onAt + s.staggerUs then s
  else powerTry (s.modPower fun p => { p with stagger := true })

/-- MAIN_EN_N goes low (R492). -/
def mainEnLow (s : State) : State := powerTry (s.modPower fun p => { p with enLow := true })

/-- P52V comes into its range (R492). -/
def inputInRange (s : State) : State := powerTry (s.modPower fun p => { p with p52 := true })

/-- RAIL_STEP (R496): the rails of the present step have been at 90 % for 0.5 ms. -/
def railStep (s : State) : State :=
  match s.power.seq with
  | .rising k => s.modPower fun p => { p with seq := if k < 5 then .rising (k + 1) else .settled }
  | _ => s

/-- The registers that hold their values from main power-good: the slot address, the trim of the factory record,
what ended main power last (R320, R364, R511). -/
def mainRegs (s : State) : State :=
  let slot := s.mgmt.flock.toNat + s.mgmt.member.toNat * 2 ^ 8 + (if s.mgmt.slotOk then 2 ^ 31 else 0)
  let s := s.setReg FAB_IDENT (BitVec.ofNat 32 slot)
  let s := (List.range 49).foldl (fun s k => s.setReg (CLK_VF k) (BitVec.ofNat 32 (s.vfTrim k))) s
  s.setReg PWR_EVENT (BitVec.ofNat 32 s.power.lastOff)

/-- A host port with ENABLE trains (R425). -/
def portsTrain (s : State) : State :=
  (List.range 2).foldl (fun s p => if bit (s.reg (HLK_PORT_CFG p)) 0 then s.setLinkState (32 + p) lkTraining else s) s

/-- MAIN_POWER_GOOD (R496): PWRGD_MAIN and MAIN_GOOD; the core's ROM starts stage 4 (R456). -/
def mainPowerGood (s : State) : State :=
  if s.power.seq ≠ .settled then s
  else
    let s := showMain (s.modPower fun p => { p with seq := .on, mainGood := true })
    let s := mainRegs ((s.setRegFld MMC_STATE 4 1 1).setReg DMC_BOOT 1)
    portsTrain ({ s with clk := { s.clk with mv := s.vfTrim 0 }, viewAt := s.us }.modMgmt fun m => { m with dev := 4 })

/-! ### Power down (R492, R497) -/

/-- The orderly sequence starts: the safe state with cause 6, then the rails fall from the step reached; `why` is
what PWR_EVENT will tell. -/
def mainDown (s : State) (why : Nat) : State :=
  let from' := fun (k : Nat) =>
    let s := (enterSafe s 6).modPower fun p => { p with seq := .falling k, mainGood := false, lastOff := why }
    showMain (s.setRegFld MMC_STATE 4 1 0)
  match s.power.seq with
  | .on => from' 5
  | .settled => from' 5
  | .rising k => from' k
  | .waiting => showMain (s.modPower fun p => { p with seq := .off })
  | _ => s

/-- MAIN_OFF (R452, R497). (DEDUCED, log 88) -/
def mainOff (s : State) : State :=
  if !s.mmcRuns then s else (mainDown s 0).modPower fun p => { p with onReq := false, stagger := false }

/-- MAIN_EN_N goes high (R492). -/
def mainEnHigh (s : State) : State := mainDown (s.modPower fun p => { p with enLow := false }) 1

/-- POWER_DOWN_STEP (R497): the rails of the present step are below 10 %. -/
def powerDownStep (s : State) : State :=
  match s.power.seq with
  | .falling k =>
    if 1 < k then s.modPower fun p => { p with seq := .falling (k - 1) } else powerTry (showMain (mainLost s))
  | _ => s

/-! ### Trips (R498 to R500) -/

/-- The trip codes of R499 that the sequence itself gives, and that of P12V_SB. -/
def tripInOv : Nat := 0x01
def tripInUv : Nat := 0x02
def tripSeqFail : Nat := 0x0B
def tripSbUv : Nat := 0x0D

/-- Whether a trip's condition can hold as power stands (R499). -/
def State.tripPossible (s : State) (code : Nat) : Bool :=
  decide (1 ≤ code) && decide (code ≤ 0x0D) && code != tripSeqFail
    && (code != tripInUv || s.power.mainGood)
    && (code != 0x05 || s.power.mainGood)
    && ((code != 0x04 && code != 0x06) || s.power.seq != .off)

/-- P12V_SB is lost: the standby functions stop; the secure element, the flash and the central Goose's record are
kept (R25, R500). -/
def standbyLost (s : State) : State :=
  let s := (s.clearRegs inMmc).modMgmt fun m => { m with stage := 0, down := false, selected := [], inForce := [], sensors := [] }
  s.modPower fun p => { p with p12 := false, onReq := false, stagger := false }

/-- A trip acts (R500): main power goes, the code is recorded and latched. -/
def tripWith (s : State) (code : Nat) : State :=
  let wasOn := s.power.seq != .off && s.power.seq != .waiting
  let s := (s.setReg GOS_REC_PWR (BitVec.ofNat 32 code)).raiseRegion 61 .pwrTrip code
  let s := (mainLost s).setRegFld MMC_STATE 4 1 0
  let s := s.modPower fun p => { p with
    trip := some code
    tripAt := s.us
    onReq := false
    stagger := false
    lastOff := if wasOn then 2 else p.lastOff
    p52 := if code = tripInOv ∨ code = tripInUv then false else p.p52 }
  if code = tripSbUv then standbyLost s else showMain s

/-- PROTECTION_TRIP (R500): of several within one filter interval the lowest is recorded. SB_UV acts on the standby
side also where a trip is latched already. -/
def protectionTrip (s : State) (codes : List Nat) : State :=
  let real := codes.filter s.tripPossible
  if !s.power.p12 then s
  else match real.min? with
    | none => s
    | some code =>
      let s := if s.power.trip.isSome then s else tripWith s code
      if real.contains tripSbUv ∧ s.power.p12 then standbyLost s else s

/-- SEQ_FAIL (R498): a rail misses its window while main power rises. -/
def seqFail (s : State) : State :=
  match s.power.seq with
  | .rising _ => tripWith s tripSeqFail
  | _ => s

/-- INPUT_WAIT_EXPIRY (R492): P52V has been out of its range for 1 s, above it or below it. -/
def inputWaitExpiry (s : State) (high : Bool) : State :=
  if s.power.seq ≠ .waiting ∨ s.us < s.power.waitAt + 1000000 then s
  else tripWith s (if high then tripInOv else tripInUv)

/-! ### Cold power-on (R483, R484) -/

/-- COLD_POWER_ON: P52V and P12V_SB are removed and return; `p52` says whether P52V returns within its range. The
boot begins with STANDBY_POWER_GOOD. -/
def coldPowerOn (s : State) (p52 : Bool) : State :=
  let m := s.mgmt
  { mainLost s with
    regs := [(DMC_IDENT, BitVec.ofNat 32 s.part.stepping)]
    power := { Power.reset with p52 := p52, enLow := s.power.enLow }
    tap := State.reset.tap
    mgmt := { Mgmt.reset with
      flash := m.flash
      keys := m.keys
      counters := m.counters
      revoked := m.revoked
      lmsNext := m.lmsNext
      lmsBuilt := m.lmsBuilt
      sent := m.sent } }

/-! ### The board-test port (R508) -/

/-- Select an instruction: the data register that it places on TDO, the least significant bit first. -/
def tapSelect (s : State) (i : TapInstr) (data : List Bool) : State :=
  if !s.power.p12 then s else { s with tap := { s.tap with instr := i, data := data, driven := none } }

/-- IDCODE of a stepping. -/
def idcode (stepping : Nat) : BitVec 32 := if stepping = 1 then 0x14E3254F else 0x24E3254F

/-- SAMPLE/PRELOAD: the pins are sampled and the boundary cells loaded. -/
def samplePreload (s : State) (pins cells : List Bool) : State :=
  if !s.power.p12 then s
  else { tapSelect s .samplePreload pins with tap := { instr := .samplePreload, data := pins, preload := cells, driven := none } }

/-- EXTEST: the preloaded cells drive the pins while main power is off; otherwise it acts as BYPASS. (DEDUCED, log 91) -/
def extest (s : State) (pins : List Bool) : State :=
  if !s.power.p12 then s
  else if s.power.seq = .off ∨ s.power.seq = .waiting then
    { s with tap := { s.tap with instr := .extest, data := pins, driven := some s.tap.preload } }
  else tapSelect s .bypass [false]

/-! ### Commands -/

/-- COLD_POWER_ON (R483). -/
def execColdPowerOn (p52 : Bool) (s : State) : Host.Outcome State Fault Refusal := .next (coldPowerOn s p52)

/-- MAIN_ON (R452). -/
def execMainOn (s : State) : Host.Outcome State Fault Refusal := .next (mainOn s)

/-- MAIN_OFF (R497). -/
def execMainOff (s : State) : Host.Outcome State Fault Refusal := .next (mainOff s)

/-- MAIN_EN_N_HIGH (R492). -/
def execMainEnNHigh (s : State) : Host.Outcome State Fault Refusal := .next (mainEnHigh s)

/-- MAIN_EN_N_LOW (R492). -/
def execMainEnNLow (s : State) : Host.Outcome State Fault Refusal := .next (mainEnLow s)

/-- STAGGER_EXPIRY (R493). -/
def execStaggerExpiry (s : State) : Host.Outcome State Fault Refusal := .next (staggerExpiry s)

/-- INPUT_WAIT_EXPIRY (R492). -/
def execInputWaitExpiry (high : Bool) (s : State) : Host.Outcome State Fault Refusal := .next (inputWaitExpiry s high)

/-- P52V_IN_RANGE (R492). -/
def execP52vInRange (s : State) : Host.Outcome State Fault Refusal := .next (inputInRange s)

/-- RAIL_STEP (R496). -/
def execRailStep (s : State) : Host.Outcome State Fault Refusal := .next (railStep s)

/-- MAIN_POWER_GOOD (R496). -/
def execMainPowerGood (s : State) : Host.Outcome State Fault Refusal := .next (mainPowerGood s)

/-- SEQ_FAIL (R498). -/
def execSeqFail (s : State) : Host.Outcome State Fault Refusal := .next (seqFail s)

/-- POWER_DOWN_STEP (R497). -/
def execPowerDownStep (s : State) : Host.Outcome State Fault Refusal := .next (powerDownStep s)

/-- PROTECTION_TRIP (R500). -/
def execProtectionTrip (codes : List Nat) (s : State) : Host.Outcome State Fault Refusal := .next (protectionTrip s codes)

/-- BYPASS (R508): one bit, which starts at 0. -/
def execBypass (s : State) : Host.Outcome State Fault Refusal := .next (tapSelect s .bypass [false])

/-- IDCODE (R508). -/
def execIdcode (s : State) : Host.Outcome State Fault Refusal :=
  .next (tapSelect s .idcode ((List.range 32).map (idcode s.part.stepping).getLsbD))

/-- SAMPLE_PRELOAD (R508). -/
def execSamplePreload (pins cells : List Bool) (s : State) : Host.Outcome State Fault Refusal :=
  .next (samplePreload s pins cells)

/-- EXTEST (R508). -/
def execExtest (pins : List Bool) (s : State) : Host.Outcome State Fault Refusal := .next (extest s pins)

end Sys2Proof.Machine
end

