-- ==== Sys2Proof/Machine/Boot.lean ====
section
/-! DEFINITION. The boot chain (R456 to R458), row selection and the conditions that forbid arming (R481, R482),
what bring-up reports, and the updates of images and records (R460). -/

namespace Sys2Proof.Machine

/-! ### Stages 1 and 2 (R456, R457) -/

/-- STANDBY_POWER_GOOD (R456, R507): the slot address is read once, and stage 1 starts. Under MAIN_AUTO the stagger
counts from 400 ms later (R493). -/
def standbyPowerGood (s : State) (flock : BitVec 8) (member : BitVec 5) (par : Bool) : State :=
  if s.power.p12 then s
  else
    let ones := (List.range 8).countP flock.getLsbD + (List.range 5).countP member.getLsbD + (if par then 1 else 0)
    let s := s.modPower fun p => { p with
      p12 := true
      onAt := s.us + 400000
      trip := if p.trip = some tripSbUv then none else p.trip }
    (s.setMmcState 0).modMgmt fun m => { m with
      stage := 1
      down := false
      flock := flock
      member := member
      slotOk := ones % 2 == 0 && decide (member.toNat ≤ 16) }

/-- A boot that cannot select an image stops, with STATE of MMC_STATE (R458). -/
def bootStop (s : State) (state : Nat) : State := (s.setMmcState state).modMgmt fun m => { m with stage := 4 }

/-- Stage 1: MMC_FW. -/
def bootStage1 (s : State) : State :=
  let s := s.modMgmt fun m => { m with down := false }
  match s.fwSelect 1 with
  | none => bootStop (s.putInForce 1 none) 6
  | some k =>
    let s := s.modMgmt fun m => { m with selected := mapPut m.selected 1 k, stage := 2 }
    (showSlots (s.putInForce 1 (s.chosen 1))).setMmcState 1

/-- The code of a stage 2 that stops; it shows while main power is off only. (DEDUCED, log 92) -/
def bootCode (s : State) (code : Nat) : State :=
  if s.power.mainGood then s else s.setRegFld DMC_BOOT 8 8 code

/-- Stage 2: the records and DEV_FW; `se` says whether the secure element answers. The records come into force at
the first stage 2 after cold power-on only (R461). Then MAIN_AUTO asks for main power (stage 3). -/
def bootStage2 (s : State) (se : Bool) : State :=
  let s := s.setRegFld SEC_STATUS 0 1 (if se then 1 else 0)
  if !se then bootStop (bootCode s 6) 5
  else
    let first := (s.running 3).isNone
    let (s, ok) := selectRecords s
    if !ok then bootStop (bootCode s 4) 5
    else match s.fwSelect 2 with
      | none =>
        let signed := s.slotVerifies 2 0 || s.slotVerifies 2 1
        bootStop (bootCode s (if signed then 3 else 2)) 6
      | some k =>
        let s := showSlots (s.modMgmt fun m => { m with selected := mapPut m.selected 2 k, stage := 3 })
        let s := if first then applyRecords s else s
        let s := s.modPower fun p => { p with onReq := p.onReq || (s.mainAuto && p.trip.isNone) }
        powerTry (showMain s)

/-! ### Stages 4 and 5 -/

/-- Stage 4: the core's ROM verifies DEV_FW again. -/
def bootStage4 (s : State) : State :=
  match mapFind s.mgmt.selected 2 with
  | some k =>
    let i := s.flashImage 2 k
    if s.slotVerifies 2 k ∧ s.svnCounter 2 ≤ imgSvn i then
      let s := (s.setReg DMC_BOOT (BitVec.ofNat 32 (2 + k * 2 ^ 16))).setReg DMC_BOOT_SVN (BitVec.ofNat 32 (imgSvn i))
      (s.putInForce 2 (some i)).modMgmt fun m => { m with dev := 5 }
    else (s.setReg DMC_BOOT 0x205).modMgmt fun m => { m with dev := 8 }
  | none => (s.setReg DMC_BOOT 0x205).modMgmt fun m => { m with dev := 8 }

/-- Stage 5: fabric links with ENABLE train; without a valid slot address none does (R507). -/
def bootStage5 (s : State) : State :=
  let s := if s.mgmt.slotOk then
      (List.range 32).foldl (fun s l => if bit (s.reg (FAB_LINK_CFG l)) 0 then s.setLinkState l lkTraining else s) s
    else s
  s.modMgmt fun m => { m with dev := 6 }

/-! ### Stage 6: rows (R481) -/

/-- Active rows of a grade (R2). -/
def gradeRows (g : Nat) : Nat := [32, 30, 28].getD g 32

/-- The rows that the rule takes before the grade's count applies: of each field the lowest eight eligible. -/
def takenRows (eligible : Nat → Bool) : List Nat :=
  (List.range 4).flatMap fun f => (((List.range 9).map fun i => 9 * f + i).filter eligible).take 8

/-- The rows used: while more are taken than the grade has, the highest-numbered is dropped. -/
def usedOf (eligible : Nat → Bool) (grade : Nat) : List Nat := (takenRows eligible).take (gradeRows grade)

/-- A number with one bit for each listed row. -/
def rowBits (rows : List Nat) : Nat := rows.foldl (fun v n => v + 2 ^ n) 0

/-- DMC_ROWTEST, DMC_ROWMAP and DMC_IDENT as row selection makes them. -/
def selectRows (s : State) (failed : BitVec 36) : State :=
  let excl : BitVec 36 := (s.reg MMC_ROW_EXCL_HI).setWidth 4 ++ s.reg MMC_ROW_EXCL_LO
  let rows := usedOf (fun n => !failed.getLsbD n && !excl.getLsbD n) s.grade
  let s := (s.setReg DMC_ROWTEST_LO (failed.setWidth 32)).setReg DMC_ROWTEST_HI ((failed >>> 32).setWidth 32)
  let s := s.setReg DMC_ROWMAP_LO (BitVec.ofNat 32 (rowBits rows))
  let s := s.setReg DMC_ROWMAP_HI (BitVec.ofNat 32 (rowBits rows / 2 ^ 32))
  (s.setRegFld DMC_IDENT 4 4 s.grade).setRegFld DMC_IDENT 8 11 (32 * rows.length)

/-! ### Stage 6: memory tiers (R254, R255, R257, R258) -/

/-- HBM_STATUS of each stack: mapped out, READY with its logical index, or FAULT. -/
def selectStacks (s : State) (trained : BitVec 8) : State :=
  let out := fld (s.reg MMC_SITE) 16 8
  let ready := (List.range 8).filter fun i => (out / 2 ^ i) % 2 == 0 && trained.getLsbD i
  let s := (List.range 8).foldl (fun s i =>
    let v := if (out / 2 ^ i) % 2 = 1 then 1 else if ready.contains i then 3 + ready.idxOf i * 2 ^ 4 else 4
    s.setReg (HBM_STATUS i) (BitVec.ofNat 32 v)) s
  s.setRegFld DMC_IDENT 19 4 ready.length

/-- Bytes of a CAMM2 part by its capacity code. -/
def siteBytes (code : Nat) : Nat := if code = 0 then 0 else 16 * 2 ^ code * 2 ^ 30

/-- DDR_STATUS and DDR_USABLE: capacity code and training of sites 0 to 3. -/
def selectSites (s : State) (sites : List (Nat × Bool)) : State :=
  let site := fun (n : Nat) => let (c, ok) := sites.getD n (0, false); (c % 4, ok)
  let good := (List.range 4).filter fun n => (site n).1 != 0 && (site n).2
  let small := ((good.map fun n => siteBytes (site n).1).min?).getD 0
  let bytes := good.length * small * 7 / 8
  let state := fun (n : Nat) => if (site n).1 = 0 then 0 else if (site n).2 then 3 else 2
  let s := (List.range 2).foldl (fun s k =>
    let a := 2 * k
    let s := s.setReg (DDR_STATUS k) (BitVec.ofNat 32
      (state a + state (a + 1) * 2 ^ 4 + (site a).1 * 2 ^ 8 + (site (a + 1)).1 * 2 ^ 12))
    (s.setReg (DDR_USABLE_LO k) (BitVec.ofNat 32 bytes)).setReg (DDR_USABLE_HI k) (BitVec.ofNat 32 (bytes / 2 ^ 32))) s
  s.setRegFld DMC_IDENT 23 4 (good.foldl (fun v n => v + 2 ^ n) 0)

/-! ### What a warm module reset keeps where the population changes (R484) -/

/-- A sparse map whose keys move; a key without a new place is dropped. -/
def reKey {α : Type} (m : SMap α) (f : Nat → Option Nat) : SMap α :=
  m.foldl (fun m' e => match f e.1 with
    | some k => mapPut m' k e.2
    | none => m') []

/-- The offset of space 1 that a byte of a stack has (R254). -/
def State.hbmOffset (s : State) (stack byte : Nat) : Option Nat :=
  let ready := (List.range 8).filter fun i => fld (s.reg (HBM_STATUS i)) 0 3 == 3
  if ready.contains stack then some (((byte / 256) * ready.length + ready.idxOf stack) * 256 + byte % 256) else none

/-- The offset of space 2 that a data byte of a channel has (R258). -/
def State.ddrOffset (s : State) (chan byte : Nat) : Option Nat :=
  let cs := s.ddrChannels
  if cs.contains chan then some (((byte / 256) * cs.length + cs.idxOf chan) * 256 + byte % 256) else none

/-- The channel and the data byte of an offset of space 2. -/
def State.ddrData (s : State) (off : Nat) : Nat × Nat :=
  let n := max 1 s.ddrChannels.length
  (s.ddrChannels.getD ((off / 256) % n) 0, (off / 256 / n) * 256 + off % 256)

/-- The logical tile, after the rows were selected anew, of a logical tile before. -/
def movedTile (old new : State) (t : Nat) : Option Nat :=
  let row := old.physRow (t / 32)
  if new.usedRows.contains row then some (32 * new.usedRows.idxOf row + t % 32) else none

/-- The contents of the memories follow the new map: `old` is the state before stage 6. -/
def remapMemory (old s : State) : State :=
  let hbm := fun (a : Nat) => let p := old.hbmPlace a; s.hbmOffset p.1 p.2
  let ddr := fun (a : Nat) => let p := old.ddrData a; s.ddrOffset p.1 p.2
  let line := fun (f : Nat → Option Nat) (l : Nat) => (f (64 * l)).map fun a => a / 64
  let slice := fun (n : Nat) (k : Nat) => (movedTile old s (k / n)).map fun t => t * n + k % n
  let tileReg := fun (o : Nat) =>
    if o < 0x40000000 then some o else (slice 0x100000 (o - 0x40000000)).map fun x => 0x40000000 + x
  { s with
    hbm := reKey s.hbm hbm
    hbmPoison := reKey s.hbmPoison (line hbm)
    hbmErr := reKey s.hbmErr (line hbm)
    ddr := reKey s.ddr ddr
    ddrPoison := reKey s.ddrPoison (line ddr)
    ddrErr := reKey s.ddrErr (line ddr)
    spad := reKey s.spad (slice sliceBytes)
    spadMark := reKey s.spadMark (slice (sliceBytes / 64))
    spadErr := reKey s.spadErr (slice (sliceBytes / 8))
    tiles := reKey s.tiles (movedTile old s)
    regs := reKey s.regs tileReg }

/-! ### Stage 6: crossings (R350, R482) -/

/-- The registers of crossing calibration: for each region its worst crossing, with sender, L_c and number of
crossings. -/
def showCrossings (s : State) (xs : List (Nat × Nat × Nat × Nat)) : State :=
  let s := xs.foldl (fun s x =>
    let (r, q, lc, n) := x
    let s := s.setReg (CLK_R_XLAT r) (BitVec.ofNat 32 (lc % 16 + q % 64 * 2 ^ 8 + n % 256 * 2 ^ 16))
    if 7 < lc then s.orReg (CLK_R_EVENT r) 0x40 else s) s
  let worst := xs.foldl (fun (w : Nat × Nat) x => if w.2 < x.2.2.1 then (x.1, x.2.2.1) else w) (0, 0)
  let fail := xs.any fun x => decide (7 < x.2.2.1)
  s.setReg CLK_XCAL (BitVec.ofNat 32 (1 + (if fail then 2 else 0) + worst.2 % 16 * 2 ^ 4 + worst.1 % 64 * 2 ^ 8))

/-- DMC_BRING (R482). -/
def bringWord (s : State) (xs : List (Nat × Nat × Nat × Nat)) : BitVec 32 :=
  let hub := xs.any fun x => decide (7 < x.2.2.1) && (decide (48 ≤ x.1) || decide (48 ≤ x.2.1))
  let low := decide (s.hbmStacks < 7)
  let none' := s.tileCount == 0
  bitAt (hub || low || none') 0 ||| bitAt hub 1 ||| bitAt low 2 ||| bitAt none' 3

/-! ### Stage 6: identity and the end (R281, R462, R470) -/

/-- The entropy key of a context and the nonce that names it, drawn once after main power-good (R281, R456). -/
def drawKey (s : State) : State :=
  if s.ctxDrawn then s
  else
    let n := s.entropyCount
    let key : BitVec 256 := Config.entropy (n + 1) ++ Config.entropy n
    { s with ctxKey := key, bootNonce := (Config.entropy (n + 2)).setWidth 64, entropyCount := n + 3, ctxDrawn := true }

/-- SEC_DEVID_HASH after the device secret was reconstructed. (DEDUCED, log 94) -/
def showDevId (s : State) : State :=
  let h := sha384 (Config.deviceKey Config.deviceSecret)
  (List.range 12).foldl (fun s w => s.setReg (SEC_DEVID_HASH w) (BitVec.ofNat 32 (leNat ((h.drop (4 * w)).take 4)))) s

/-- Stage 6, and with it the end of a warm module reset. A secure element that does not answer ends main power
(R458). (DEDUCED, log 95) -/
def bootStage6 (old : State) (b : BringUp) : State :=
  let s := old.setRegFld SEC_STATUS 0 1 (if b.seOk then 1 else 0)
  if !b.seOk then bootStop (mainDown ((s.setReg DMC_BOOT 0x605).modMgmt fun m => { m with dev := 8 }) 0) 5
  else
    let s := selectSites (selectStacks (selectRows s b.failedRows) b.hbmTrained) b.sites
    let s := remapMemory old s
    let s := showCrossings s b.crossings
    let s := s.setReg DMC_BRING (bringWord s b.crossings)
    let s := s.setRegFld SEC_STATUS 1 1 (if b.pufOk then 1 else 0)
    let s := drawKey (if b.pufOk then showDevId s else s)
    let s := s.setReg DMC_BOOT (setFld (setFld (s.reg DMC_BOOT) 0 4 4) 8 8 (if b.pufOk then 1 else 5))
    let warm := s.rstWarm
    let s := resetBusy ({ s with rstWarm := false }.modMgmt fun m => { m with dev := 7 })
    hallAdvance (if warm then s.setRegFld DMC_RESET_STATUS 1 2 1 else s)

/-! ### Updates of images and records (R460) -/

/-- FIRMWARE_UPDATE: PLDM Type 5 writes an image into the slot of its TYPE that the boot did not select. (DEDUCED, log 97) (DESIGN CHOICE, log 7) -/
def firmwareUpdate (s : State) (i : Image) : State :=
  let typ := imgType i
  if !s.power.p12 ∨ s.mgmt.down ∨ typ < 1 ∨ 4 < typ then s
  else
    let slot := match mapFind s.mgmt.selected typ with
      | some k => 1 - k
      | none => 0
    s.modMgmt fun m => { m with flash := mapPut m.flash (2 * typ + slot) i }

/-- Whether the fields of a record are as R460 check 5 asks; `other` is STACK_OUT of the other record. (DEDUCED, log 96) -/
def recordValid (i : Image) (other : BitVec 8) : Bool :=
  let out : BitVec 8 := BitVec.ofNat 8 (bodyNat i 9 1) ||| other
  let one := decide ((List.range 8).countP out.getLsbD ≤ 1)
  let vf := fun (k : Nat) => bodyNat i (0x18 + 2 * k) 2
  let rows := decide (bodyNat i 0xC 8 < 2 ^ 36) && bodyNat i 0xB 1 == 0
  if imgType i = 3 then
    rows && one && imgLen i == 128 && bodyNat i 0x14 4 == 0 && bodyNat i 0x7A 6 == 0
      && decide (bodyNat i 8 1 ≤ 2) && decide (bodyNat i 0xA 1 < 16)
      && ((List.range 49).all fun k => decide (650 ≤ vf k) && decide (vf k ≤ 850))
      && ((List.range 48).all fun k => decide (vf k ≤ vf (k + 1)))
      && bodyNat i 0xA 1 / 2 ^ imgKey i % 2 == 0
  else
    rows && one && imgLen i == 32 && bodyNat i 0x14 12 == 0 && decide (bodyNat i 0xA 1 < 2)

/-- The committed record of the other TYPE: its STACK_OUT. -/
def State.otherStackOut (s : State) (typ : Nat) : BitVec 8 :=
  let o := 7 - typ
  BitVec.ofNat 8 ((s.recSelect o).elim 0 fun k => bodyNat (s.flashImage o k) 9 1)

/-- Whether a boot stage is in progress. -/
def State.booting (s : State) : Bool :=
  s.mgmt.stage == 1 || s.mgmt.stage == 2 || (decide (4 ≤ s.mgmt.dev) && decide (s.mgmt.dev ≤ 6))

/-- The checks of R460 on a record, in order: condition that refuses and code. (DEDUCED, log 87) -/
def recordChecks (s : State) (typ : Nat) (i : Image) : List (Bool × Nat) :=
  let key := imgKey i
  [(s.booting, 2),
   (!(imgType i == typ && s.imageOk i), 3),
   ((s.slotKeys key).isNone || s.mgmt.revoked.getLsbD key || !keyPermits key typ, 4),
   (imgSerial i != s.part.serial.toNat || bodyNat i 0 8 != s.part.serial.toNat, 5),
   (!recordValid i (s.otherStackOut typ), 6),
   (decide (imgSvn i ≤ s.svnCounter typ), 7)]

/-- RECORD_COMMIT (R460): the record of a TYPE in the slot that the boot did not select. -/
def recordCommit (s : State) (typ : Nat) : State :=
  if !s.mmcRuns then s
  else
    let slot := match mapFind s.mgmt.selected typ with
      | some k => 1 - k
      | none => 0
    let i := s.flashImage typ slot
    let show' := fun (s : State) (code : Nat) => s.setReg MMC_CFG_STATUS (BitVec.ofNat 32 (code + (typ - 3) * 2 ^ 8))
    match (recordChecks s typ i).find? fun c => c.1 with
    | some c => (show' s c.2).orReg MMC_EVENT 4
    | none =>
      let rv : BitVec 4 := if typ = 3 then BitVec.ofNat 4 (bodyNat i 0xA 1) else 0
      show' (s.modMgmt fun m => { m with
        counters := mapPut m.counters typ (imgSvn i)
        revoked := m.revoked ||| rv }) 1

/-- SVN_COMMIT (R460): the firmware counters rise to the SVNs of the running images. -/
def svnCommit (s : State) : State :=
  if !s.mmcRuns then s
  else
    let raise := fun (s : State) (typ : Nat) => match s.running typ with
      | none => s
      | some i => s.modMgmt fun m => { m with counters := mapPut m.counters typ (max (s.svnCounter typ) (imgSvn i)) }
    raise (raise s 1) 2

/-! ### The watchdog (R450) -/

/-- WATCHDOG_RESET: the controller restarts from its ROM. -/
def watchdogReset (s : State) : State :=
  if !s.power.p12 then s
  else
    let n := min ((s.reg MMC_WDT_RESETS).toNat + 1) 65535
    let s := (s.setReg MMC_WDT_RESETS (BitVec.ofNat 32 n)).orReg MMC_EVENT 2
    ((s.setMmcState 0).putInForce 1 none).modMgmt fun m => { m with stage := 1, down := true }

/-! ### Commands -/

/-- STANDBY_POWER_GOOD (R456): the slot address as strapped. -/
def execStandbyPowerGood (flock : BitVec 8) (member : BitVec 5) (par : Bool) (s : State) :
    Host.Outcome State Fault Refusal :=
  .next (standbyPowerGood s flock member par)

/-- BOOT_STAGE_COMPLETE (R456): the end of the named stage, where it runs, and what stage 2 or 6 finds. -/
def execBootStageComplete (stage : Fin 7) (b : BringUp) (s : State) : Host.Outcome State Fault Refusal :=
  .next (if stage.val = s.mgmt.stage ∧ stage.val = 1 then bootStage1 s
    else if stage.val = s.mgmt.stage ∧ stage.val = 2 then bootStage2 s b.seOk
    else if stage.val ≠ s.mgmt.dev ∨ !s.power.mainGood then s
    else if stage.val = 4 then bootStage4 s
    else if stage.val = 5 then bootStage5 s
    else if stage.val = 6 then bootStage6 s b
    else s)

/-- FIRMWARE_UPDATE (R460). -/
def execFirmwareUpdate (image : List (BitVec 8)) (s : State) : Host.Outcome State Fault Refusal :=
  .next (firmwareUpdate s image)

/-- RECORD_COMMIT (R460): of the factory record, or of the site record. -/
def execRecordCommit (site : Bool) (s : State) : Host.Outcome State Fault Refusal :=
  .next (recordCommit s (if site then 4 else 3))

/-- SVN_COMMIT (R460). -/
def execSvnCommit (s : State) : Host.Outcome State Fault Refusal := .next (svnCommit s)

/-- WATCHDOG_RESET (R450). -/
def execWatchdogReset (s : State) : Host.Outcome State Fault Refusal := .next (watchdogReset s)

end Sys2Proof.Machine
end

