-- ==== Sys2Proof/Machine/Warm.lean ====
section
/-! DEFINITION. The warm module reset (R483 to R487) and what the side-band master and the controller's monitor do to
the main side (R451, R452). -/

namespace Sys2Proof.Machine

/-! ### What a warm module reset resets (R484) -/

/-- The registers that a warm module reset keeps: the standby side, the epochs, the row map and the population until
stage 6 selects them anew, power, the host ports, and the results of operations that the reset ended. (DEDUCED, log 82) -/
def warmKeeps (o : Nat) : Bool :=
  inMmc o || gosRecord o || decide (0x40000000 ≤ o)
    || (decide (0xA0000 ≤ o) && decide (o < 0xB0000))
    || (decide (0x20000 ≤ o) && decide (o < 0x30000))
    || (decide (HLK_PORT_CFG 0 ≤ o) && decide (o < 0x80000))
    || o == MSG_MOD_EPOCH || o == FAB_IDENT || o == DMC_IDENT || o == DMC_ROWMAP_LO || o == DMC_ROWMAP_HI
    || o == DMC_RESET_STATUS || o == DMC_LOAD_STATUS || o == DMC_LOAD_DETAIL || o == DMC_LOAD_PROGRESS
    || o == DMC_SHR_STATUS || o == DMC_SHR_DETAIL || o == DMC_SHR_TICK_LO || o == DMC_SHR_TICK_HI
    || (List.range 8).any (fun i => o == HBM_STATUS i)
    || (List.range 2).any (fun k => o == DDR_STATUS k || o == DDR_USABLE_LO k || o == DDR_USABLE_HI k)

/-- The fabric after a warm module reset: links train afresh in stage 5, FORWARD is 0 (R317). -/
def warmFabric (s : State) : State :=
  { s.setReg FAB_CTRL 0 with
    fab := { s.fab with links := mapClear s.fab.links fun l => decide (l < 32), arrived := [], timedOut := [], noticed := [], forwards := [], forwardStage := 0 }
    entries := []
    reqWait := []
    flight := []
    answers := [] }

/-- The frame controller, clocks and hall state after a warm module reset (R358, R477, R480). -/
def warmFrame (s : State) : State :=
  { s with
    frame := Frame.reset
    clk := { Clk.reset with mv := s.clk.mv }
    regions := []
    work := []
    refresh := []
    closed := none
    tickFlits := []
    items := []
    cands := []
    viewAt := s.us
    electing := false }

/-- The host link after a warm module reset (R429); the ports stay as they are. -/
def warmHost (s : State) : State := { s with hlk := { Hlk.reset with downAt := s.hlk.downAt, sent := s.hlk.sent } }

/-- The records and the device firmware are selected again (R457, R460, R461). -/
def warmSelect (s : State) : State :=
  let (s1, ok) := selectRecords s
  let s := if ok then applyRecords (showSlots s1) else s
  let s := match s.fwSelect 2 with
    | some k => s.modMgmt fun m => { m with selected := mapPut m.selected 2 k }
    | none => s
  (List.range 49).foldl (fun s k => s.setReg (CLK_VF k) (BitVec.ofNat 32 (s.vfTrim k))) s

/-- A warm module reset is performed (R485, R486): it supersedes every other reset, and stages 4 to 6 run again. While
one is in progress a request is ignored. -/
def warmReset (s : State) : State :=
  if !s.power.mainGood then s
  else if s.rstWarm then resetIgnored s
  else
    let s := leaveSafe (resetJobState s) true
    let s := (s.clearRegs fun o => !warmKeeps o).clearShadows fun _ => true
    let s := warmHost (warmFrame (warmFabric s))
    let s := s.liveTiles.foldl (fun s t => s.modTile t fun x => { x with inReset := false }) s
    let s := { s with rstJob := 0, rstRows := 0, rstWarm := true, hiLatch := [], ctxOp := 0, dumpBuf := [], wpairs := [] }
    let s := warmSelect (resetBusy s)
    (s.setReg DMC_BOOT 1).modMgmt fun m => { m with dev := 4, spdm := ⟨0, [], none, []⟩, inForce := mapDel m.inForce 2 }

/-! ### MMC_CTRL and the monitor of GOS_ALIVE (R451, R452) -/

/-- MMC_CTRL.SAFE_REQ: ignored with main power off. -/
def mmcSafeReq (s : State) : State :=
  if !s.mmcRuns ∨ !s.power.mainGood then s else (enterSafe s 6).orReg MMC_EVENT 8

/-- MMC_CTRL.OWN_RELEASE. -/
def mmcOwnRelease (s : State) : State := if !s.mmcRuns ∨ !s.power.mainGood then s else ownRelease s 6

/-- MMC_CTRL.WARM_RESET. -/
def mmcWarmReset (s : State) : State := if !s.mmcRuns then s else warmReset s

/-- The actions of a write of MMC_CTRL, in the order of their bits. -/
def mmcControl (s : State) (v : BitVec 32) : State :=
  let s := if bit v 0 then mainOn s else s
  let s := if bit v 1 then mainOff s else s
  let s := if bit v 2 then mmcSafeReq s else s
  let s := if bit v 3 then mmcOwnRelease s else s
  let s := if bit v 4 then svnCommit s else s
  if bit v 5 then mmcWarmReset s else s

/-- GOOSE_STOP (R451): GOS_ALIVE has not toggled for 5 µs while main power is on; the monitor runs through restarts
of the controller. -/
def gooseStop (s : State) : State :=
  if !s.power.mainGood then s else (enterSafe s 6).orReg MMC_EVENT 1

/-! ### Commands -/

/-- WARM (R485). -/
def execWarm (s : State) : Host.Outcome State Fault Refusal := .next (warmReset s)

/-- WARM_RESET (R452). -/
def execWarmReset (s : State) : Host.Outcome State Fault Refusal := .next (mmcWarmReset s)

/-- MMC_SAFE_REQ (R452). -/
def execMmcSafeReq (s : State) : Host.Outcome State Fault Refusal := .next (mmcSafeReq s)

/-- OWN_RELEASE (R452). -/
def execOwnRelease (s : State) : Host.Outcome State Fault Refusal := .next (mmcOwnRelease s)

/-- GOOSE_STOP (R451). -/
def execGooseStop (s : State) : Host.Outcome State Fault Refusal := .next (gooseStop s)

end Sys2Proof.Machine
end

