-- ==== Sys2Proof/Machine/RegAccess.lean ====
section
/-! DEFINITION. Accesses to the register space (R14, R33 to R38, R201, R202): the rights of the masters, what each
register shows, what a write does, and the port to a physical tile. -/

namespace Sys2Proof.Machine

/-! ### Rights and statuses (R36, R37, R448) -/

/-- Whether an offset lies in 64-KiB windows `lo` to below `hi` of space 3 (R33). -/
def inWindow16 (o lo hi : Nat) : Bool := decide (lo * 0x10000 ≤ o) && decide (o < hi * 0x10000)

/-- Whether an offset lies in the HLK, DMC, SEC, GOS or DBG window. -/
def inHlk (o : Nat) : Bool := inWindow16 o 7 8
def inDmc (o : Nat) : Bool := inWindow16 o 8 9
def inSec (o : Nat) : Bool := inWindow16 o 10 11
def inGos (o : Nat) : Bool := inWindow16 o 11 12
def inDbg (o : Nat) : Bool := inWindow16 o 12 13

/-- The logical tile of an offset in the tile windows. -/
def offTile (o : Nat) : Nat := (o - 0x40000000) / 0x100000

/-- Whether a master has the right to an access (R36). (DEDUCED, log 102) -/
def State.mayAccess (s : State) (m : Master) (write : Bool) (o : Nat) : Bool :=
  match m with
  | .dmc => !(write && inMmc o)
  | .sideBand => inDmc o || inMmc o || inDbg o || (!write && (inGos o || inSec o))
  | .host p =>
    if s.owns p then !inSec o && !(write && inMmc o)
    else if write then o == HLK_CLAIM else inHlk o
  | .mule t =>
    let tile := decide (0x40000000 ≤ o)
    let syn := inWindow16 o 3 4 || (tile && decide (0xA000 ≤ o % 0x100000) && decide (o % 0x100000 < 0xB000))
    (tile && offTile o == t)
      || (if write then o == SYN_DSIG || (tile && o % 0x100000 == 0xA090) else syn)

/-- Whether the target of an access is off or restarting (R37, R448): a tile's window by its own rule; with main power
off, or for the side-band port until the device management core is READY, everything but the MMC window and the
central Goose's record. -/
def State.targetOff (s : State) (m : Master) (o : Nat) : Bool :=
  if inMmc o then s.mgmt.down
  else if gosRecord o then false
  else if !s.power.mainGood then true
  else if m = .sideBand ∧ s.mgmt.dev ≠ 7 then true
  else decide (0x40000000 ≤ o) && tileStatus s (offTile o) (o % 0x100000) != stDone

/-- The status of an access (R37). -/
def State.accessStatus (s : State) (m : Master) (write : Bool) (o : Nat) : Nat :=
  if (regGroupOf o).isNone ∨ (0x40000000 ≤ o ∧ s.tileCount ≤ offTile o) then stAddrInvalid
  else if !s.mayAccess m write o then stAccessDenied
  else if s.targetOff m o then stTargetOff
  else stDone

/-! ### What registers show -/

/-- The values of a CLK register that has a typed home. -/
def clkTyped (s : State) (o : Nat) : Option (BitVec 32) :=
  let n := fun (v : Nat) => some (BitVec.ofNat 32 v)
  if o = CLK_FREQ then n (s.frameF + (if s.power.mainGood then s.fVolt * 2 ^ 16 else 0))
  else if o = CLK_VCORE then n (s.clk.mv % 1024 + s.vcoreTarget % 1024 * 2 ^ 16)
  else if o = CLK_THROT_NS then n (s.clk.throttleRead.floor / 1000)
  else none

/-- The gated or unused tile sites of a tile region (R512). -/
def State.gatedSites (s : State) (r : Nat) : Nat :=
  (List.range 24).foldl (fun v i =>
    let row := 3 * (r / 4) + i / 8
    let lrow := s.usedRows.idxOf row
    let off := !s.usedRows.contains row || (s.tile (32 * lrow + 8 * (r % 4) + i % 8)).gated
    v + (if off then 2 ^ i else 0)) 0

/-- The values of a region's registers that have a typed home. -/
def regionTyped (s : State) (o : Nat) : Option (BitVec 32) :=
  let r := (o - 0x01000000) / 0x10000
  let n := fun (v : Nat) => some (BitVec.ofNat 32 v)
  match o % 0x10000 with
  | 0x0 => n (clkStatus s r)
  | 0xC => n (s.region r).stretchRead.floor
  | 0x4000 => n (if r < 48 then s.gatedSites r else 0)
  | _ => none

/-- The values of an engine's registers that have a typed home. -/
def agpTyped (s : State) (o : Nat) : Option (BitVec 32) :=
  if o % 0x1000 = 4 then some (BitVec.ofNat 32 (agpStatus s ((o - 0xD0000) / 0x1000))) else none

/-- PWR_STATUS (R511): the rails of the steps that are up. -/
def State.railsGood (s : State) : Nat :=
  let upTo : Nat := match s.power.seq with
    | .rising k => k - 1
    | .falling k => k - 1
    | .settled => 5
    | .on => 5
    | _ => 0
  [0, 0x3, 0x7, 0xF, 0x3FF, 0xFFF].getD upTo 0

/-- The SEC window mirrors the secure element (R470). -/
def secTyped (s : State) (o : Nat) : Option (BitVec 32) :=
  let n := fun (v : Nat) => some (BitVec.ofNat 32 v)
  if o = SEC_STATUS then
    some (s.reg o ||| bitAt (decide (2 ^ 30 ≤ s.mgmt.lmsNext)) 3 ||| bitAt (mapFind s.mgmt.keys 2).isSome 8
      ||| bitAt (mapFind s.mgmt.keys 3).isSome 9 ||| (s.mgmt.revoked.setWidth 32 <<< 12))
  else if o = SEC_CTR_MMC_FW then n (s.svnCounter 1)
  else if o = SEC_CTR_DEV_FW then n (s.svnCounter 2)
  else if o = SEC_CTR_CFG_FACTORY then n (s.svnCounter 3)
  else if o = SEC_CTR_CFG_SITE then n (s.svnCounter 4)
  else if o = SEC_LMS_NEXT then n s.mgmt.lmsNext
  else none

/-- The values of the module registers that have a typed home. -/
def moduleTyped (s : State) (o : Nat) : Option (BitVec 32) :=
  let n := fun (v : Nat) => some (BitVec.ofNat 32 v)
  if o = FRM_STATE then n s.frmState
  else if o = FRM_COMMIT_STATUS then some (commitStatus s)
  else if 0xE000 ≤ o ∧ o < 0xF000 ∧ (List.range 4).any (fun j => o == FRM_WPAIR_STATUS j) then
    ((List.range 4).find? fun j => o == FRM_WPAIR_STATUS j).map (pairStatus s)
  else if o = FAB_STATUS then n (fabStatus s)
  else if o = FAB_TWIN_COUNT then n s.twins.length
  else if o = FAB_TID_SCHED then n (s.tidsUsed false)
  else if o = FAB_TID_BE then n (s.tidsUsed true)
  else if o = FAB_HALL_STATUS then some (s.reg o ||| bitAt s.frame.acquired 7)
  else if o = COL_STATUS then n (colStatus s)
  else if 0x88000 ≤ o ∧ o < 0x90000 then some (dumpWord s (o - 0x88000))
  else if o = PWR_STATUS then
    n (s.railsGood + (if 0x3FF ≤ s.railsGood then fld (s.reg DMC_IDENT) 23 4 * 2 ^ 16 else 0))
  else if o = PWR_TRIP_LAST then some (s.reg GOS_REC_PWR)
  else if o = MMC_SLOT then
    n (s.mgmt.flock.toNat + s.mgmt.member.toNat * 2 ^ 8 + (if s.mgmt.slotOk then 2 ^ 31 else 0))
  else none

/-- The typed value of a register outside the tile windows. -/
def typedView (s : State) (o : Nat) : Option (BitVec 32) :=
  if 0x10000 ≤ o ∧ o < 0x20000 then clkTyped s o
  else if 0xD0000 ≤ o ∧ o < 0xE0000 then agpTyped s o
  else if inSec o then secTyped s o
  else if 0x01000000 ≤ o ∧ o < 0x013E0000 then regionTyped s o
  else moduleTyped s o

/-- Whether a register shows an analogue measurement (R510, R512), which no rule gives. (DEDUCED, log 86) -/
def isMeasured (o : Nat) : Bool :=
  (inWindow16 o 2 3 && o != PWR_STATUS && o != PWR_TRIP_LAST && o != PWR_EVENT)
    || (decide (0x01000000 ≤ o) && decide (o < 0x013E0000) && (o % 0x10000 == 0x4004 || o % 0x10000 == 0x4008))

/-- The bits a measurement has (R511, R512). -/
def measuredMask (o : Nat) : BitVec 32 :=
  if o = PWR_ENERGY_LO ∨ o = PWR_ENERGY_HI then 0xFFFFFFFF else if 0x01000000 ≤ o then 0x3FF else 0xFFFF

/-- What a register shows. -/
def regView (s : State) (o : Nat) : BitVec 32 :=
  match regGroupOf o with
  | none => 0
  | some g =>
    if 0x40000000 ≤ o then tileView s (offTile o) (o % 0x100000) g
    else if isMeasured o then Config.measured o s.freeCount &&& measuredMask o
    else (typedView s o).getD (plainView s o g)

/-- What the read of an RC register with a typed home returns to its reset value (R14). -/
def rcTyped (s : State) (o : Nat) : State :=
  if o = CLK_THROT_NS then { s with clk := { s.clk with throttleRead := ⟨0, 1⟩ } }
  else if 0x01000000 ≤ o ∧ o < 0x013E0000 ∧ o % 0x10000 = 0xC then
    s.modRegion ((o - 0x01000000) / 0x10000) fun x => { x with stretchRead := ⟨0, 1⟩ }
  else if isMeasured o then { s with freeCount := s.freeCount + 1 }
  else s

/-! ### The port to a physical tile (R201, R202) -/

/-- The parts of DBG_PT_SEL. -/
def ptRow (s : State) : Nat := fld (s.reg DBG_PT_SEL) 0 6
def ptCol (s : State) : Nat := fld (s.reg DBG_PT_SEL) 8 5
def ptTarget (s : State) : Nat := fld (s.reg DBG_PT_SEL) 16 2
def ptInc (s : State) : Bool := bit (s.reg DBG_PT_SEL) 20

/-- Whether the selected row is used, and its logical row. -/
def ptUsed (s : State) : Bool := s.usedRows.contains (ptRow s)
def ptLrow (s : State) : Nat := s.usedRows.idxOf (ptRow s)

/-- The logical tile selected. -/
def ptTile (s : State) : Nat := 32 * ptLrow s + ptCol s

/-- Whether the port to the selected target fails for its address. -/
def ptInvalid (s : State) : Bool :=
  let a := s.reg DBG_PT_ADDR
  decide (35 < ptRow s) || ptTarget s == 3 ||
    (ptTarget s == 0 && (a.toNat % 4 != 0 || decide (0x100000 ≤ a.toNat) || (regGroupOf (0x40000000 + a.toNat)).isNone))

/-- The status of an access of a master through the port. -/
def ptStatus (s : State) (m : Master) (write : Bool) : Nat :=
  let x := s.tile (ptTile s)
  let o := (s.reg DBG_PT_ADDR).toNat % 0x100000
  let denied := if ptTarget s = 0 then !s.mayAccess m write (tileBase (ptTile s) + o)
    else write && ptUsed s && s.tileUsed (ptTile s)
  if ptInvalid s then stAddrInvalid
  else if denied then stAccessDenied
  else if !ptUsed s || x.inReset || (x.gated && (ptTarget s != 0 || gatedWindow o)) then stTargetOff
  else stDone

/-- DBG_PT_STATUS after an access. -/
def ptRecord (s : State) (code : Nat) (poison : Bool) : State :=
  let used := ptUsed s && decide (ptRow s ≤ 35)
  s.setReg DBG_PT_STATUS (BitVec.ofNat 32 (code + (if poison then 2 ^ 8 else 0)
    + (if used then ptLrow s % 64 * 2 ^ 20 + 2 ^ 31 else 0)))

/-- DBG_PT_ADDR advances under INC. -/
def ptAdvance (s : State) : State :=
  if !ptInc s then s
  else
    let a := s.reg DBG_PT_ADDR
    match ptTarget s with
    | 0 => s.setReg DBG_PT_ADDR (setFld a 0 20 (fld a 0 20 + 4))
    | 1 =>
      let col := fld a 10 6 + 1
      let a := setFld a 10 6 col
      s.setReg DBG_PT_ADDR (if col = 64 then setFld a 4 5 (fld a 4 5 + 1) else a)
    | 2 =>
      let w := fld a 8 6 + 1
      let a := setFld a 8 6 w
      s.setReg DBG_PT_ADDR (if w = 64 then setFld a 0 8 (fld a 0 8 + 1) else a)
    | _ => s

/-- The key of a tile-register element that DBG_PT_ADDR names. -/
def ptElem (s : State) : Nat :=
  let a := s.reg DBG_PT_ADDR
  2048 * fld a 0 3 + 64 * fld a 4 5 + fld a 10 6

/-- The key of the word of the operand cache that DBG_PT_ADDR names. -/
def ptWord (s : State) : Nat :=
  let a := s.reg DBG_PT_ADDR
  64 * fld a 0 8 + fld a 8 6

/-- A read of DBG_PT_DATA: state, status and value. -/
def ptRead (s : State) (m : Master) : State × Nat × BitVec 32 :=
  let st := ptStatus s m false
  let t := ptTile s
  if st ≠ stDone then (ptAdvance (ptRecord s st false), st, 0)
  else match ptTarget s with
    | 1 =>
      let e := mapGet elemReset (s.vec t).treg (ptElem s)
      (ptAdvance (ptRecord s stDone (e.cause != .none)), stDone, e.bits)
    | 2 => (ptAdvance (ptRecord s stDone false), stDone, (ocWord (s.vec t) (ptWord s)).bits)
    | _ =>
      let (s, code, v) := tileRead s m t ((s.reg DBG_PT_ADDR).toNat % 0x100000)
      (ptAdvance (ptRecord s code false), code, v)

/-- A write of DBG_PT_DATA: state and status. -/
def ptWrite (s : State) (m : Master) (v : BitVec 32) : State × Nat :=
  let st := ptStatus s m true
  let t := ptTile s
  if st ≠ stDone then (ptAdvance (ptRecord s st false), st)
  else match ptTarget s with
    | 1 =>
      let s := s.modTile t fun x => { x with vec := { x.vec with
        treg := mapSet elemReset x.vec.treg (ptElem s) ⟨v, .none⟩
        tregErr := mapDel x.vec.tregErr (ptElem s) } }
      (ptAdvance (ptRecord s stDone false), stDone)
    | 2 =>
      let k := ptWord s
      let s := s.modTile t fun x => { x with vec := { ocPut x.vec k ⟨v, .none⟩ with ocacheErr := mapDel x.vec.ocacheErr k } }
      (ptAdvance (ptRecord s stDone false), stDone)
    | _ =>
      let (s, code) := tileWrite s m t ((s.reg DBG_PT_ADDR).toNat % 0x100000) v
      (ptAdvance (ptRecord s code false), code)

/-! ### Reads -/

/-- Read a register as a master: state, status and value (R14, R34, R37). -/
def regRead (s : State) (m : Master) (o : Nat) : State × Nat × BitVec 32 :=
  let st := s.accessStatus m false o
  if st ≠ stDone then (s, st, 0)
  else if o = DBG_PT_DATA then ptRead s m
  else match regGroupOf o with
    | none => (s, stAddrInvalid, 0)
    | some g =>
      let (s1, v) := regReadEffect s m o g (regView s o) (regView s (o + 4))
      (rcTyped s1 o, stDone, v)

/-! ### Writes -/

/-- A write of FRM_CTRL (R61, R67): RUN, then SAFE_REQ. -/
def frmControl (s : State) (v : BitVec 32) : State :=
  let s := if bit v 0 then runStart s else runStop s
  if bit v 1 then safeReq s else s

/-- A write of DMC_RESET (R486): with both bits set the warm reset alone. -/
def resetControl (s : State) (v : BitVec 32) : State :=
  if bit v 0 then warmReset s else if bit v 1 then jobRequest s else s

/-- A write of GOS_CTRL (R388): the self-test runs until SELFTEST tells its outcome. (DEDUCED, log 103) -/
def gosControl (s : State) (v : BitVec 32) : State :=
  if bit v 0 ∧ (s.frmState = 0 ∨ s.frmState = 3) then s.orReg GOS_STATUS 2 else s

/-- The port of a master of the host link. -/
def Master.port? (m : Master) : Option Nat :=
  match m with
  | .host p => some p
  | _ => none

/-- A write of HLK_CLAIM (R430): state and status. Only a port can claim or release. -/
def claimWrite (s : State) (m : Master) (v : BitVec 32) : State × Nat :=
  match m.port? with
  | none => (s, stDone)
  | some p =>
    let (s, ok) := if bit v 0 then hlkClaim s p else (s, true)
    (if bit v 1 then hlkRelease s p else s, if ok then stDone else stAccessDenied)

/-- A write in the window of an engine (R262): state and status. -/
def agpWrite (s : State) (n o : Nat) (g : RegGroup) (v : BitVec 32) : State × Nat :=
  let e := s.engine n
  let held := (decide (0x100 ≤ o) && decide (o < 0x150)) || decide (0x800 ≤ o)
  if o = 0 then (agpControl s n v, stDone)
  else if held && !(e.state == .halted || e.state == .fault) then (s, stAccessDenied)
  else (plainWrite s (agpBase n + o) g v, stDone)

/-- What a write to a register of the module windows does where it does more than its access code says; none for a
plain register. -/
def moduleWrite (s : State) (m : Master) (o : Nat) (v : BitVec 32) : Option State :=
  if o = FRM_CTRL then some (frmControl s v)
  else if o = FRM_COMMIT then some (commitOp s (fld v 0 3))
  else if o = SYN_DSIG then some (synDsig s v)
  else if o = FAB_CTRL then some (setForward s (bit v 0))
  else if o = FAB_TWIN_CLEAR then some (if bit v 0 then { s with twinClear := true } else s)
  else if o = FAB_HALL_CTRL then some (if bit v 0 then elect s else s)
  else if o = HLK_RENEW then some (match m.port? with
    | some p => if bit v 0 then hlkRenew s p else s
    | none => s)
  else if o = HLK_TAKEOVER_US ∧ fld v 0 16 = 0 then some s
  else if o = HLK_RING_CTRL then
    some (let s := if bit v 0 then ringEnable s else s
      if bit v 1 then ringDisable s else s)
  else if o = HLK_CPL_CTRL then
    some (let s := if bit v 0 then cplEnable s else s
      if bit v 1 then cplDisable s else s)
  else if o = DMC_RESET then some (resetControl s v)
  else if o = DMC_ROWRST then some (rowRequest s v)
  else if o = DMC_LOAD_CTRL then some (loadControl s v)
  else if o = DMC_CTX_CTRL then some (ctxControl s v)
  else if o = DMC_DUMP_CTRL then some (dumpControl s v)
  else if o = DMC_SHR_CTRL then some (if bit v 0 then shrStart s (fld v 1 2) else s)
  else if o = MMC_CTRL then some (mmcControl s v)
  else if o = GOS_CTRL then some (gosControl s v)
  else match (List.range 4).find? fun j => o == FRM_WPAIR_SWITCH j with
    | some j => some (pairSwitch s j v)
    | none => match (List.range 32).find? fun l => o == FAB_LINK_CTRL l with
      | some l => some (if bit v 0 then linkRetrain s l else s)
      | none => ((List.range 2).find? fun p => o == HLK_PORT_CTRL p).map fun p =>
        if bit v 0 then linkRetrain s (32 + p) else s

/-- Write a register as a master: state and status (R14, R36, R37). -/
def regWrite (s : State) (m : Master) (o : Nat) (v : BitVec 32) : State × Nat :=
  let st := s.accessStatus m true o
  -- a signal to a tile in tile-row reset is dropped and counted (R272)
  let dropped := st == stTargetOff && s.power.mainGood && decide (0x40000000 ≤ o) && o % 0x100000 == 0xA090
    && (s.tile (offTile o)).inReset
  if st ≠ stDone then (if dropped then s.incReg MSG_SIG_DROP else s, st)
  else if 0x40000000 ≤ o then tileWrite s m (offTile o) (o % 0x100000) v
  else if o = DBG_PT_DATA then ptWrite s m v
  else if o = HLK_CLAIM then claimWrite s m v
  else match regGroupOf o with
    | none => (s, stAddrInvalid)
    | some g =>
      if inWindow16 o 0xD 0xE then agpWrite s ((o - 0xD0000) / 0x1000) (o % 0x1000) g v
      else match moduleWrite s m o v with
        | some s => (s, stDone)
        | none => (plainWrite s o g v, stDone)

/-! ### Commands -/

/-- Record what an access answered: status and value. -/
def State.answered (s : State) (st : Nat) (v : BitVec 32) : State := { s with regAnswer := (st, v) }

/-- Perform a read and record its answer. -/
def readAnswered (s : State) (m : Master) (o : Nat) : State :=
  let (s, st, v) := regRead s m o
  s.answered st v

/-- Perform a write and record its answer. -/
def writeAnswered (s : State) (m : Master) (o : Nat) (v : BitVec 32) : State :=
  let (s, st) := regWrite s m o v
  s.answered st 0

/-- REGISTER_WRITE (R14). -/
def execRegisterWrite (m : Master) (off v : BitVec 32) (s : State) : Host.Outcome State Fault Refusal :=
  .next (writeAnswered s m off.toNat v)

/-- RC_READ (R14): a read of an RC register, or of any other. -/
def execRcRead (m : Master) (off : BitVec 32) (s : State) : Host.Outcome State Fault Refusal :=
  .next (readAnswered s m off.toNat)

/-- LO_READ_LATCH (R34): a read of a _LO register. -/
def execLoReadLatch (m : Master) (off : BitVec 32) (s : State) : Host.Outcome State Fault Refusal :=
  .next (readAnswered s m off.toNat)

/-- PT_DATA_READ (R201). -/
def execPtDataRead (m : Master) (s : State) : Host.Outcome State Fault Refusal := .next (readAnswered s m DBG_PT_DATA)

/-- PT_DATA_WRITE (R201). -/
def execPtDataWrite (m : Master) (v : BitVec 32) (s : State) : Host.Outcome State Fault Refusal :=
  .next (writeAnswered s m DBG_PT_DATA v)

end Sys2Proof.Machine
end

