-- ==== Sys2Proof/Machine/HostCmds.lean ====
section
/-! DEFINITION. What a host sends: WRITE and READ packets (R423, R424, R427, R428) and the descriptors of the command
ring (R436 to R438). -/

namespace Sys2Proof.Machine

/-! ### Packets (R423, R428) -/

/-- An ANSWER to the host. -/
def hostAnswer (s : State) (p : Nat) (pkt : HostPacket) (code : Nat) : State :=
  s.hostEmit p ⟨4, pkt.tag, false, false, 0, 0, BitVec.ofNat 8 code :: List.replicate 15 0, []⟩

/-- The status that the address of a host access meets before the registers' own checks: another module, a reserved
space, an offset outside the valid range, and for a port that does not own the module any of spaces 0 to 2. -/
def hostStatus (s : State) (p : Nat) (a len : Nat) : Nat :=
  let sp := addrSpace a
  if !s.rankLocal (addrRank a) ∨ 3 < sp then stAddrInvalid
  else if sp = 3 then (if a % 4 ≠ 0 then stAddrInvalid else stDone)
  else
    let st := s.spaceStatus sp (addrOff a) len
    if st = stAddrInvalid then st else if !s.owns p then stAccessDenied else st

/-- Write 32-bit words to consecutive registers; the first that fails ends the packet. (DESIGN CHOICE, log 67) -/
def hostRegsWrite (s : State) (m : Master) (o : Nat) (ws : List (BitVec 32)) : State × Nat :=
  match ws with
  | [] => (s, stDone)
  | w :: rest =>
    let (s, st) := regWrite s m o w
    if st = stDone then hostRegsWrite s m (o + 4) rest else (s, st)

/-- Read `n` consecutive registers; the first that fails ends the packet. -/
def hostRegsRead (s : State) (m : Master) (o n : Nat) : State × Nat × List (BitVec 8) :=
  match n with
  | 0 => (s, stDone, [])
  | n + 1 =>
    let (s, st, v) := regRead s m o
    if st ≠ stDone then (s, st, [])
    else
      let (s, st, bs) := hostRegsRead s m (o + 4) n
      (s, st, leBytes 4 v.toNat ++ bs)

/-- The little-endian words of bytes. -/
def wordsOf (bs : List (BitVec 8)) : List (BitVec 32) :=
  (List.range (bs.length / 4)).map fun i => BitVec.ofNat 32 (leNat ((bs.drop (4 * i)).take 4))

/-- Whether a packet is answered ADDR_INVALID for its header: a TYPE other than the command's, a set reserved bit, or
a TAG that a request still awaits (R428). -/
def hostBad (pkt : HostPacket) (kind : Nat) (reused : Bool) : Bool := pkt.kind != kind || pkt.bad || reused

/-- HOST_WRITE (R428). -/
def hostWrite (s : State) (p : Nat) (pkt : HostPacket) (reused : Bool) : State :=
  if !s.portUp p then s
  else if hostBad pkt 0 reused then hostAnswer s p pkt stAddrInvalid
  else
    let a := pkt.addr.toNat
    let st := hostStatus s p a pkt.data.length
    if st ≠ stDone then hostAnswer s p pkt st
    else if addrSpace a = 3 then
      let (s, st) := hostRegsWrite s (.host p) (addrOff a) (wordsOf pkt.data)
      hostAnswer s p pkt st
    else hostAnswer (s.spaceWrite (addrSpace a) (addrOff a) pkt.data pkt.marks) p pkt stDone

/-- READ_DATA to the host: data and the poison causes of its lines. -/
def hostData (s : State) (p : Nat) (pkt : HostPacket) (bs : List (BitVec 8)) (cs : List Cause) : State :=
  s.hostEmit p ⟨3, pkt.tag, false, false, 0, 0, bs, cs⟩

/-- HOST_READ (R428). -/
def hostRead (s : State) (p : Nat) (pkt : HostPacket) (reused : Bool) : State :=
  if !s.portUp p then s
  else if hostBad pkt 1 reused then hostAnswer s p pkt stAddrInvalid
  else
    let a := pkt.addr.toNat
    let st := hostStatus s p a pkt.want
    if st ≠ stDone then hostAnswer s p pkt st
    else if addrSpace a = 3 then
      let (s, st, bs) := hostRegsRead s (.host p) (addrOff a) (pkt.want / 4)
      if st = stDone then hostData s p pkt bs [] else hostAnswer s p pkt st
    else
      let (s, bs, cs) := s.spaceRead (addrSpace a) (addrOff a) pkt.want
      hostData s p pkt bs cs

/-! ### Descriptors (R436 to R438) -/

/-- A descriptor as read: its 64 bytes. -/
abbrev Desc := List (BitVec 8)

/-- A field of a descriptor. -/
def descNat (d : Desc) (o n : Nat) : Nat := leNat ((d.drop o).take n)

/-- The byte at which a descriptor is bad, if it is (R438). -/
def cmdBadAt (d : Desc) : Option Nat :=
  let op := descNat d 0 1
  let count := descNat d 4 1
  let countBad := if op = 1 then count == 0 || decide (6 < count) else count != 0
  if 4 < op then some 0
  else if 2 ≤ descNat d 1 1 then some 1
  else if countBad then some 4
  else [5, 6, 7].find? fun o => descNat d o 1 != 0

/-- The OP of a descriptor, 5 where the descriptor is bad. -/
def cmdOp (d : Desc) : Nat := if (cmdBadAt d).isSome then 5 else descNat d 0 1

/-- The pairs of a REGW from number `k`, with the rights of the owning port: state, and pair and status of the first
that fails. A warm module reset that one of them starts ends the descriptor; `warm` says that one runs already. -/
def regwPairs (s : State) (m : Master) (d : Desc) (warm : Bool) (k n : Nat) : State × Option (Nat × Nat) :=
  match n with
  | 0 => (s, none)
  | n + 1 =>
    if s.rstWarm && !warm then (s, none)
    else
      let (s, st) := regWrite s m (descNat d (0x10 + 8 * k) 4) (BitVec.ofNat 32 (descNat d (0x14 + 8 * k) 4))
      if st = stDone then regwPairs s m d warm (k + 1) n else (s, some (k, st))

/-- What a descriptor does once it is neither stale nor bad: `fin` completes it with a status and a detail. -/
def descRun (s : State) (d : Desc) (fin : State → Bool → Nat → Nat → State) (wait : HlkWait → State → State) : State :=
  match descNat d 0 1 with
  | 1 =>
    let warm := s.rstWarm
    let (s, r) := regwPairs s (.host (s.ownState - 1)) d warm 0 (descNat d 4 1)
    -- a warm module reset that a pair starts takes the ring with it
    if s.rstWarm && !warm then s
    else
      match r with
      | none => fin s false 1 0
      | some (k, st) => fin s false 4 (k * 256 + st)
  | 2 =>
    let t := loadStartAt s (descNat d 0x10 8) (descNat d 0x18 4) (descNat d 0x1C 1)
    if t.load.isSome ∧ s.load.isNone then wait .load t else fin t false 5 (fld (t.reg DMC_LOAD_STATUS) 16 8)
  | 3 =>
    let c : BitVec 64 := BitVec.ofNat 64 (descNat d 0x10 8)
    if c.toNat ≤ (s.reg64 FRM_TICK_LO).toNat then fin s false 1 0 else wait (.tick c) s
  | 4 => fin s true 1 0
  | _ => fin s false 1 0

/-- The host link executes the descriptor at the front of its queue, if its OP is `want` (5 for a bad one): the
checks in order for an uncorrectable error, a stale token and a bad descriptor (R438). (DEDUCED, log 71) -/
def descStep (s : State) (want : Nat) : State :=
  match s.hlk.exec, s.hlk.queue with
  | none, num :: rest =>
    let base := s.hlk.base
    let a := addrOff base + 64 + 64 * (num % max 1 s.hlk.size)
    let (t, d, cs) := s.spaceRead (addrSpace base) a 64
    let notify := descNat d 1 1 % 2 == 1
    let cookie : BitVec 64 := BitVec.ofNat 64 (descNat d 8 8)
    let start := fun (s : State) => { s with hlk := { s.hlk with queue := rest } }
    let fin := fun (s : State) (mark : Bool) (st detail : Nat) => descDone s num base notify mark cookie st detail
    let wait := fun (w : HlkWait) (s : State) =>
      { s.setRegFld HLK_RING_STATUS 1 1 1 with hlk := { s.hlk with exec := some ⟨num, base, notify, cookie, w⟩ } }
    if cs.any fun c => c != .none then fin (start t) false 6 0
    else if cmdOp d ≠ want then s
    else if descNat d 2 2 ≠ s.ownGen then fin (start t) false 2 (descNat d 2 2)
    else match cmdBadAt d with
      | some o => fin (start t) false 3 o
      | none => descRun (start t) d fin wait
  | _, _ => s

/-! ### Commands -/

/-- HOST_WRITE (R428): the packet that port `p` receives, and whether its TAG is that of a request still outstanding. -/
def execHostWrite (p : Fin 2) (pkt : HostPacket) (reused : Bool) (s : State) : Host.Outcome State Fault Refusal :=
  .next (hostWrite s p pkt reused)

/-- HOST_READ (R428). -/
def execHostRead (p : Fin 2) (pkt : HostPacket) (reused : Bool) (s : State) : Host.Outcome State Fault Refusal :=
  .next (hostRead s p pkt reused)

/-- REGW (R437). -/
def execRegw (s : State) : Host.Outcome State Fault Refusal := .next (descStep s 1)

/-- LOAD (R437). -/
def execLoad (s : State) : Host.Outcome State Fault Refusal := .next (descStep s 2)

/-- WAIT_TICK (R437). -/
def execWaitTick (s : State) : Host.Outcome State Fault Refusal := .next (descStep s 3)

/-- MARK (R437). -/
def execMark (s : State) : Host.Outcome State Fault Refusal := .next (descStep s 4)

/-- NOP (R437). -/
def execNop (s : State) : Host.Outcome State Fault Refusal := .next (descStep s 0)

/-- CMD_BAD (R438). -/
def execCmdBad (s : State) : Host.Outcome State Fault Refusal := .next (descStep s 5)

end Sys2Proof.Machine
end

