-- ==== Sys2Proof/Machine/Idle.lean ====
section
/-! DEFINITION. What passes without a command, and the illegal instruction of a Mule or an engine (R151, R251). -/

namespace Sys2Proof.Machine

/-- A microsecond passes (DESIGN CHOICE, log 1): the time that leases, takeovers, stagger delays and rate limits count
goes on, and with main power good VCORE moves 50 mV towards its target (R357), and a free bit says whether the average
of the input power, which no rule gives, exceeds its limit (R511, log 86). -/
def idle (s : State) : State :=
  let s := { s with us := s.us + 1 }
  if s.power.mainGood then
    let (v, s) := (s.slew 50).free
    if v % 2 = 1 then s.orReg PWR_EVENT 4 else s
  else s

/-- An engine meets a reserved OP or a non-zero reserved field (R251). -/
def agpIllegalFetch (s : State) (n : Nat) : State :=
  let e := s.engine n
  if agpReady e && agpIllegal (s.agpInstr n e.pc.toNat) then agpFault s n 1 e.pc.toNat 0 else s

/-- ILLEGAL (R151): at engine `n`, or at the Mule of tile `n`. -/
def execIllegal (engine : Bool) (n : Nat) (s : State) : Host.Outcome State Fault Refusal :=
  if engine then .next (if n < 16 then agpIllegalFetch s n else s) else s.onTile n fun s => muleIllegalFetch s n

end Sys2Proof.Machine
end

