-- ==== Sys2Proof/Machine/Memory.lean ====
section
/-! DEFINITION. Upkeep of the memories: the scratchpad scrub and correction write-backs (R235, R237), and the
refresh windows of HBM and DDR5 (R256, R259). -/

namespace Sys2Proof.Machine

/-- Whether the general port of a bank is free of fixed accesses (R234) in the cycle that the tile's last
BUNDLE_ISSUE was. -/
def State.bankFree (s : State) (t bank : Nat) : Bool :=
  s.cycle t == 0 || mapGet 0 (s.tile t).portUse (32 * (s.cycle t - 1) + bank) == 0

/-- SCRUB_LINE (R237): a bank of a running scrub zeroes its next line, and the scrub ends with the last line
of every bank. (DEDUCED, log 46) -/
def scrubLine (s : State) (t bank : Nat) : State :=
  let x := s.tile t
  if x.gated || x.inReset || !s.bankFree t bank then s
  else match mapFind x.scrub bank with
    | none => s
    | some i =>
      let s := s.spadWrite t ((16 * i + bank) * 64) (List.replicate 64 0) []
      s.modTile t fun x =>
        let rest := if i + 1 < 1024 then mapPut x.scrub bank (i + 1) else mapDel x.scrub bank
        { x with scrub := rest, scrubBusy := !rest.isEmpty }

/-- ECC_WRITEBACK (R235): the oldest queued correction of a bank is written back. -/
def eccWriteBack (s : State) (t bank : Nat) : State :=
  let x := s.tile t
  match x.writeBacks.find? fun w => (w / 8) % 16 == bank with
  | none => s
  | some w =>
    if x.inReset || !s.bankFree t bank then s
    else State.modTile { s with spadErr := mapDel s.spadErr (t * (sliceBytes / 8) + w) } t fun x =>
      { x with writeBacks := x.writeBacks.erase w }

/-- A refresh window opens in cycle `cyc` of an armed frame (R256): `k` is the stack, 8 for DDR5. -/
def refreshWindow (s : State) (k cyc : Nat) (period phase : BitVec 32) : State :=
  if s.frame.armed.isSome ∧ s.frame.released ∧ cyc % max 1 (fld period 0 16) = fld phase 0 16 then
    { s with refresh := mapPut s.refresh k cyc }
  else s

/-- FORCED_REFRESH (R256): the controller refreshes at once and holds its region's clock for `ps`. -/
def forcedRefresh (s : State) (k ps : Nat) : State :=
  if k < 8 then
    if fld (s.reg (HBM_STATUS k)) 0 3 = 3 then (holdCharge s (48 + k) ps).incReg (HBM_REF_FORCED k) else s
  else holdCharge s 60 ps

/-- SPD_SCRUB_START (R237). -/
def execSpdScrubStart (t : Nat) (s : State) : Host.Outcome State Fault Refusal :=
  s.onTile t fun s => if (s.tile t).inReset then s else scrubStart s t

/-- SCRUB_LINE (R237). -/
def execScrubLine (t : Nat) (bank : Fin 16) (s : State) : Host.Outcome State Fault Refusal :=
  s.onTile t fun s => scrubLine s t bank

/-- ECC_WRITEBACK (R235). -/
def execEccWriteback (t : Nat) (bank : Fin 16) (s : State) : Host.Outcome State Fault Refusal :=
  s.onTile t fun s => eccWriteBack s t bank

/-- HBM_REFRESH_WINDOW (R256): physical stack `k`, cycle `cyc`. -/
def execHbmRefreshWindow (k : Fin 8) (cyc : Nat) (s : State) : Host.Outcome State Fault Refusal :=
  .next (if fld (s.reg (HBM_STATUS k)) 0 3 = 3 then
      refreshWindow s k cyc (s.reg (HBM_REF_PERIOD k)) (s.reg (HBM_REF_PHASE k))
    else s)

/-- FORCED_REFRESH (R256): stack `k`, or DDR5 for 8. -/
def execForcedRefresh (k : Fin 9) (ps : Nat) (s : State) : Host.Outcome State Fault Refusal :=
  .next (forcedRefresh s k ps)

/-- DDR_REFRESH_WINDOW (R259): for both controllers. -/
def execDdrRefreshWindow (cyc : Nat) (s : State) : Host.Outcome State Fault Refusal :=
  .next (if s.ddrChannels.isEmpty then s
    else refreshWindow s 8 cyc (s.reg (DDR_REF_PERIOD 0)) (s.reg (DDR_REF_PHASE 0)))

end Sys2Proof.Machine
end

