-- ==== Sys2Proof/Machine/SideBand.lean ====
section
/-! DEFINITION. The side-band port (R446 to R449, R455): addresses, MCTP control, register access, key enrolment,
platform events, and attestation over SPDM (R463 to R467). -/

namespace Sys2Proof.Machine

/-! ### The port (R446, R450) -/

/-- Whether the port answers at all: not while the controller restarts. -/
def State.sbUp (s : State) : Bool := s.power.p12 && !s.mgmt.down

/-- Send an answer or a message on the port. -/
def State.sbSend (s : State) (r : SbReply) : State := s.modMgmt fun m => { m with sent := m.sent ++ [r] }

/-- An answer of MCTP control, which the controller gives also from its ROM (R458). -/
def mctpAnswer (s : State) (code : Nat) (data : List (BitVec 8)) : State :=
  if s.sbUp then s.sbSend (.mctp code data) else s

/-- Take a dynamic address, where none is assigned (R446). (PRESUMED, log 99) -/
def takeAddress (s : State) (a : BitVec 7) : State :=
  if !s.sbUp ∨ bit (s.reg MMC_SB) 7 then s else s.setRegFld MMC_SB 0 8 (a.toNat + 128)

/-- SET_ENDPOINT_ID: operations 0 and 1 set the endpoint ID; there is no static one to return to (R447). (PRESUMED, log 60) -/
def setEndpointId (s : State) (op : BitVec 2) (eid : BitVec 8) : State :=
  if !s.sbUp then s
  else if 1 < op.toNat ∨ eid = 0 ∨ eid = 0xFF then mctpAnswer s 2 []
  else mctpAnswer (s.setRegFld MMC_SB 8 8 eid.toNat) 0 [0, eid, 0]

/-- The endpoint ID. -/
def State.eid (s : State) : Nat := fld (s.reg MMC_SB) 8 8

/-! ### Registers and keys (R447, R455) -/

/-- Read `n` consecutive registers: completion and the values read. -/
def sbRead (s : State) (o n : Nat) : State × Nat × List (BitVec 32) :=
  match n with
  | 0 => (s, stDone, [])
  | n + 1 =>
    let (s, st, v) := regRead s .sideBand o
    if st ≠ stDone then (s, st, [])
    else
      let (s, st, vs) := sbRead s (o + 4) n
      (s, st, v :: vs)

/-- REG_READ: 1 to 12 registers; what another count answers is not stated. (DEDUCED, log 61) -/
def regReadCmd (s : State) (o n : Nat) : State :=
  if !s.mmcRuns then s
  else if n = 0 ∨ 12 < n then s.sbSend (.regs stAddrInvalid [])
  else
    let (s, st, vs) := sbRead s o n
    s.sbSend (.regs st vs)

/-- REG_WRITE. -/
def regWriteCmd (s : State) (o : Nat) (vs : List (BitVec 32)) : State :=
  if !s.mmcRuns then s
  else if vs = [] ∨ 12 < vs.length then s.sbSend (.done stAddrInvalid)
  else
    let (s, st) := hostRegsWrite s .sideBand o vs
    s.sbSend (.done st)

/-- KEY_ENROLL: slot 2 or 3, once. (DEDUCED, log 98) -/
def keyEnroll (s : State) (slot : Nat) (ec hs : List (BitVec 8)) : State :=
  if !s.mmcRuns then s
  else if (slot ≠ 2 ∧ slot ≠ 3) ∨ (mapFind s.mgmt.keys slot).isSome then s.sbSend (.done stAccessDenied)
  else (s.modMgmt fun m => { m with keys := mapPut m.keys slot (ec, hs) }).sbSend (.done stDone)

/-! ### Platform events (R449, R491, R503) -/

/-- The thresholds of numeric sensors 1 to 5, in thousandths of the sensor's unit. (DEDUCED, log 100) -/
def thresholds (sensor : Nat) : List Nat :=
  match sensor with
  | 1 => [40000, 60000]
  | 2 => [65000]
  | 3 => [2600000]
  | 4 => [11400, 12600]
  | 5 => [60000]
  | _ => []

/-- What a state sensor shows, from the machine; for another sensor the value measured. -/
def State.sensor (s : State) (sensor measured : Nat) : Nat :=
  match sensor with
  | 8 => fld (s.reg GOS_VERDICT) 0 2
  | 9 => fld (s.reg GOS_STATUS) 8 4
  | 10 => s.mmcState
  | _ => measured

/-- Whether a sensor can be read: the main-side ones with main power on only. -/
def State.sensorOn (s : State) (sensor : Nat) : Bool :=
  (decide (1 ≤ sensor) && decide (sensor ≤ 5)) || sensor == 10 || ((sensor == 8 || sensor == 9) && s.power.mainGood)

/-- PLATFORM_EVENT_MESSAGE: a state sensor has changed, or a numeric one has crossed a threshold, since its last
report. -/
def platformEvent (s : State) (sensor measured : Nat) : State :=
  if !s.mmcRuns ∨ !s.sensorOn sensor then s
  else
    let new := s.sensor sensor measured
    let old := mapGet 0 s.mgmt.sensors sensor
    let news := if sensor ≤ 5 then (thresholds sensor).any fun x => decide (old < x) != decide (new < x) else old != new
    let s := s.modMgmt fun m => { m with sensors := mapSet 0 m.sensors sensor new }
    if news then s.sbSend (.event sensor new (bit (s.reg MMC_SB) 7)) else s

/-! ### SPDM (R464 to R467) -/

/-- Change the SPDM connection. -/
def State.modSpdm (s : State) (f : Spdm → Spdm) : State := s.modMgmt fun m => { m with spdm := f m.spdm }

/-- Add a request and its answer to the transcript. -/
def State.note (s : State) (request : Nat) (fields : List (BitVec 8)) : State :=
  s.modSpdm fun c => { c with transcript := c.transcript ++ Config.spdmBytes request fields }

/-- An SPDM error answers. -/
def spdmError (s : State) (e : SpdmError) : State := s.sbSend (.spdm (.error e))

/-- A request that the device management core answers: with main power off, or before READY, it receives Busy; before
the negotiation has come so far, UnexpectedRequest. -/
def spdmRequest (s : State) (need : Nat) (f : State → State) : State :=
  if !s.mmcRuns then s
  else if s.mgmt.dev ≠ 7 ∨ !s.power.mainGood then spdmError s .busy
  else if s.mgmt.spdm.state < need then spdmError s .unexpectedRequest
  else f s

/-- GET_VERSION, which also answers in standby: the connection starts afresh. (PRESUMED, log 62) -/
def spdmVersion (s : State) (fields : List (BitVec 8)) : State :=
  if !s.mmcRuns then s
  else
    let s := s.modSpdm fun c => { c with state := 1, transcript := [], held := none }
    (s.note 0 fields).sbSend (.spdm (.version [0x13]))

/-- GET_CAPABILITIES, which also answers in standby. -/
def spdmCapabilities (s : State) (fields : List (BitVec 8)) : State :=
  if !s.mmcRuns then s
  else if s.mgmt.spdm.state < 1 then spdmError s .unexpectedRequest
  else ((s.note 1 fields).modSpdm fun c => { c with state := max c.state 2 }).sbSend (.spdm (.capabilities true true true))

/-- NEGOTIATE_ALGORITHMS: the requester offers ECDSA P-384 and SHA-384. -/
def spdmAlgorithms (s : State) (ecdsa sha : Bool) (fields : List (BitVec 8)) : State :=
  spdmRequest s 2 fun s =>
    if !(ecdsa && sha) then spdmError s .invalidRequest
    else ((s.note 2 fields).modSpdm fun c => { c with state := 3 }).sbSend (.spdm (.algorithms true true))

/-- GET_DIGESTS: of certificate slot 0, the only one. -/
def spdmDigests (s : State) (fields : List (BitVec 8)) : State :=
  spdmRequest s 3 fun s => (s.note 3 fields).sbSend (.spdm (.digests [sha384 Config.certChain]))

/-- GET_CERTIFICATE: a portion of the chain of slot 0. -/
def spdmCertificate (s : State) (slot off len : Nat) (fields : List (BitVec 8)) : State :=
  spdmRequest s 3 fun s =>
    let chain := Config.certChain
    if slot ≠ 0 ∨ chain.length ≤ off then spdmError s .invalidRequest
    else
      let part := (chain.drop off).take len
      (s.note 4 fields).sbSend (.spdm (.certificate part (chain.length - off - part.length)))

/-! ### Signed answers (R464, R466, R467) -/

/-- The lower tree of an index, and the leaf in it. -/
def lmsTree (q : Nat) : Nat := q / 2 ^ 20
/-- The error that a signed request receives before anything is signed, if any: the rate limit, the PUF, the end of
the key, or a tree whose state is not complete. -/
def State.signRefusal (s : State) : Option SpdmError :=
  let recent := s.mgmt.spdm.signedAt.filter fun t => decide (s.us < t + 1000000)
  if 10 ≤ recent.length then some .busy
  else if !bit (s.reg SEC_STATUS) 1 ∨ 2 ^ 30 ≤ s.mgmt.lmsNext then some .unspecified
  else if s.mgmt.lmsBuilt < lmsTree s.mgmt.lmsNext then some .busy
  else none

/-- Sign the transcript: the LMS counter advances first; both signatures cover the prefix and the transcript hash.
Answers the ECDSA signature; the HSS signature is held. -/
def signTranscript (s : State) (request : Nat) : State × List (BitVec 8) :=
  let q := s.mgmt.lmsNext
  let msg := Config.spdmPrefix request ++ sha384 s.mgmt.spdm.transcript
  let s := s.modMgmt fun m => { m with lmsNext := q + 1 }
  let s := s.modSpdm fun c => { c with
    held := some (q, Config.hssSign Config.deviceSecret q msg)
    signedAt := (c.signedAt.filter fun t => decide (s.us < t + 1000000)) ++ [s.us] }
  (s.incReg SEC_ATTEST_COUNT, Config.ecdsaSign Config.deviceSecret msg)

/-- A signed request: refused, or answered by `f` from the state after the signature and the signature. -/
def spdmSigned (s : State) (request : Nat) (fields : List (BitVec 8))
    (f : State → List (BitVec 8) → State) : State :=
  match s.signRefusal with
  | some e => spdmError s e
  | none =>
    let (s, sig) := signTranscript (s.note request fields) request
    f s sig

/-- A nonce of 32 bytes, which nothing in the manual fixes. -/
def drawNonce (s : State) : State × List (BitVec 8) :=
  let (v, s) := s.free
  (s, leBytes 32 v)

/-- CHALLENGE. -/
def spdmChallenge (s : State) (slot : Nat) (fields : List (BitVec 8)) : State :=
  spdmRequest s 3 fun s =>
    if slot ≠ 0 then spdmError s .invalidRequest
    else
      let (s1, nonce) := drawNonce s
      spdmSigned s1 5 (fields ++ nonce) fun s sig => s.sbSend (.spdm (.challenge (sha384 Config.certChain) nonce sig))

/-- A measurement block (R465). (DEDUCED, log 101) -/
def State.measurement (s : State) (i : Nat) : List (BitVec 8) :=
  let record := fun (typ : Nat) => (s.recSelect typ).map fun k => s.flashImage typ k
  match i with
  | 1 => sha384 Config.mmcRom
  | 2 => sha384 ((s.running 1).getD [])
  | 3 => sha384 ((s.running 2).getD [])
  | 4 => sha384 ((record 3).getD [])
  | 5 => match record 4 with
    | some r => sha384 r
    | none => List.replicate 48 0
  | 6 => sha384 (([1, 2, 3, 4].flatMap fun typ => leBytes 4 (s.svnCounter typ)) ++ leBytes 1 s.mgmt.revoked.toNat)
  | _ => sha384 ((List.range 64).flatMap fun p =>
      if fld (s.reg (DMC_SLOT p)) 24 8 = 0 then [] else mapGet [] s.slotDigest p)

/-- The blocks that an index asks for: none for 0, all for 255; no answer for an index that has none. -/
def State.measurements (s : State) (index : Nat) : Option (List (Nat × List (BitVec 8))) :=
  if index = 0 then some []
  else if index = 255 then some ([1, 2, 3, 4, 5, 6, 7].map fun i => (i, s.measurement i))
  else if index ≤ 7 then some [(index, s.measurement index)]
  else none

/-- GET_MEASUREMENTS, with a signature where it asks for one. -/
def spdmMeasurements (s : State) (index : Nat) (sign : Bool) (fields : List (BitVec 8)) : State :=
  spdmRequest s 3 fun s =>
    match s.measurements index with
    | none => spdmError s .invalidRequest
    | some blocks =>
      let (s1, nonce) := drawNonce s
      let all := fields ++ (blocks.flatMap fun b => b.2) ++ nonce
      if sign then spdmSigned s1 6 all fun s sig => s.sbSend (.spdm (.measurements 7 blocks nonce sig))
      else (s1.note 6 all).sbSend (.spdm (.measurements 7 blocks nonce []))

/-- VENDOR_DEFINED_REQUEST: request code 1 fetches the held HSS signature. -/
def spdmVendor (s : State) (code : Nat) : State :=
  spdmRequest s 3 fun s =>
    if code ≠ 1 then spdmError s .unsupportedRequest
    else match s.mgmt.spdm.held with
      | some (q, sig) => s.sbSend (.spdm (.hss q sig))
      | none => spdmError s .unexpectedRequest

/-- LMS_FAIL: the increment for a signed request is not confirmed within 50 ms; `moved` says whether the secure
element's counter advanced all the same. (DEDUCED, log 104) -/
def lmsFail (s : State) (moved : Bool) : State :=
  spdmRequest s 3 fun s =>
    match s.signRefusal with
    | some e => spdmError s e
    | none =>
      let s := if moved then s.modMgmt fun m => { m with lmsNext := m.lmsNext + 1 } else s
      spdmError (s.orReg SEC_STATUS 0x10) .unspecified

/-- LMS_BUILD: the next tree's state is begun once half the active tree is used, and then completed. (DEDUCED, log 105) -/
def lmsBuild (s : State) : State :=
  if s.mgmt.dev ≠ 7 ∨ !s.power.mainGood then s
  else if bit (s.reg SEC_STATUS) 2 then (s.setRegFld SEC_STATUS 2 1 0).modMgmt fun m => { m with lmsBuilt := m.lmsBuilt + 1 }
  else
    let q := s.mgmt.lmsNext
    let due := decide (s.mgmt.lmsBuilt * 2 ^ 20 + 2 ^ 19 ≤ q)
    if due ∧ s.mgmt.lmsBuilt < 1023 then s.setRegFld SEC_STATUS 2 1 1 else s

/-! ### Commands -/

/-- REG_READ (R447). -/
def execRegRead (off : BitVec 32) (n : Nat) (s : State) : Host.Outcome State Fault Refusal := .next (regReadCmd s off.toNat n)

/-- REG_WRITE (R447). -/
def execRegWrite (off : BitVec 32) (vs : List (BitVec 32)) (s : State) : Host.Outcome State Fault Refusal :=
  .next (regWriteCmd s off.toNat vs)

/-- KEY_ENROLL (R455): the ECDSA and the HSS public key. -/
def execKeyEnroll (slot : BitVec 8) (ecdsa hss : List (BitVec 8)) (s : State) : Host.Outcome State Fault Refusal :=
  .next (keyEnroll s slot.toNat ecdsa hss)

/-- SET_ENDPOINT_ID (R447). -/
def execSetEndpointId (op : BitVec 2) (eid : BitVec 8) (s : State) : Host.Outcome State Fault Refusal :=
  .next (setEndpointId s op eid)

/-- GET_ENDPOINT_ID (R447): a dynamic endpoint ID. -/
def execGetEndpointId (s : State) : Host.Outcome State Fault Refusal :=
  .next (mctpAnswer s 0 [BitVec.ofNat 8 s.eid, 0, 0])

/-- GET_MCTP_VERSION_SUPPORT (R447). -/
def execGetMctpVersionSupport (typ : BitVec 8) (s : State) : Host.Outcome State Fault Refusal :=
  .next (mctpAnswer s 0 (Config.mctpVersions typ.toNat))

/-- GET_MESSAGE_TYPE_SUPPORT (R447). -/
def execGetMessageTypeSupport (s : State) : Host.Outcome State Fault Refusal := .next (mctpAnswer s 0 Config.mctpTypes)

/-- GET_VENDOR_DEFINED_MESSAGE_SUPPORT (R447): the IANA enterprise number, the most significant byte first. -/
def execGetVendorDefinedMessageSupport (s : State) : Host.Outcome State Fault Refusal :=
  .next (mctpAnswer s 0 (leBytes 4 Config.imhalNumber.toNat).reverse)

/-- ENTDAA (R446). -/
def execEntdaa (addr : BitVec 7) (s : State) : Host.Outcome State Fault Refusal := .next (takeAddress s addr)

/-- SETDASA (R446): from static address 0x4C. -/
def execSetdasa (static addr : BitVec 7) (s : State) : Host.Outcome State Fault Refusal :=
  .next (if static = 0x4C then takeAddress s addr else s)

/-- PLATFORM_EVENT_MESSAGE (R449): the sensor, and the value that sensors 1 to 5 measure, in thousandths of the unit. -/
def execPlatformEventMessage (sensor measured : Nat) (s : State) : Host.Outcome State Fault Refusal :=
  .next (platformEvent s sensor measured)

/-- GET_VERSION (R464). -/
def execGetVersion (fields : List (BitVec 8)) (s : State) : Host.Outcome State Fault Refusal := .next (spdmVersion s fields)

/-- GET_CAPABILITIES (R464). -/
def execGetCapabilities (fields : List (BitVec 8)) (s : State) : Host.Outcome State Fault Refusal :=
  .next (spdmCapabilities s fields)

/-- NEGOTIATE_ALGORITHMS (R464). -/
def execNegotiateAlgorithms (ecdsa sha : Bool) (fields : List (BitVec 8)) (s : State) : Host.Outcome State Fault Refusal :=
  .next (spdmAlgorithms s ecdsa sha fields)

/-- GET_DIGESTS (R464). -/
def execGetDigests (fields : List (BitVec 8)) (s : State) : Host.Outcome State Fault Refusal := .next (spdmDigests s fields)

/-- GET_CERTIFICATE (R463). -/
def execGetCertificate (slot off len : Nat) (fields : List (BitVec 8)) (s : State) : Host.Outcome State Fault Refusal :=
  .next (spdmCertificate s slot off len fields)

/-- CHALLENGE (R466). -/
def execChallenge (slot : Nat) (fields : List (BitVec 8)) (s : State) : Host.Outcome State Fault Refusal :=
  .next (spdmChallenge s slot fields)

/-- GET_MEASUREMENTS (R465). -/
def execGetMeasurements (index : BitVec 8) (sign : Bool) (fields : List (BitVec 8)) (s : State) :
    Host.Outcome State Fault Refusal :=
  .next (spdmMeasurements s index.toNat sign fields)

/-- VENDOR_DEFINED_REQUEST (R466). -/
def execVendorDefinedRequest (code : BitVec 16) (s : State) : Host.Outcome State Fault Refusal :=
  .next (spdmVendor s code.toNat)

/-- LMS_FAIL (R466). -/
def execLmsFail (moved : Bool) (s : State) : Host.Outcome State Fault Refusal := .next (lmsFail s moved)

/-- LMS_BUILD (R467). -/
def execLmsBuild (s : State) : Host.Outcome State Fault Refusal := .next (lmsBuild s)

end Sys2Proof.Machine
end

