-- ==== Sys2Proof/Machine/Dispatch.lean ====
section
/-! DEFINITION. The meaning of every command, one arm each. -/

namespace Sys2Proof.Machine

def exec (i : Instr) (s : State) : Host.Outcome State Fault Refusal :=
  match i with
  | .tick silent => Sys2Proof.Machine.execTick silent s
  | .tickPacket l p err => Sys2Proof.Machine.execTickPacket l p err s
  | .registerWrite m off v => Sys2Proof.Machine.execRegisterWrite m off v s
  | .rcRead m off => Sys2Proof.Machine.execRcRead m off s
  | .loReadLatch m off => Sys2Proof.Machine.execLoReadLatch m off s
  | .bundleIssue t => Sys2Proof.Machine.execBundleIssue t s
  | .kset t k imm => Sys2Proof.Machine.execKset t k imm s
  | .rep t k len => Sys2Proof.Machine.execRep t k len s
  | .repIterationEnd t => Sys2Proof.Machine.execRepIterationEnd t s
  | .jmp t target => Sys2Proof.Machine.execJmp t target s
  | .jq t q target => Sys2Proof.Machine.execJq t q target s
  | .qcmp t q k rel imm => Sys2Proof.Machine.execQcmp t q k rel imm s
  | .endOp t => Sys2Proof.Machine.execEnd t s
  | .pass t desc ind => Sys2Proof.Machine.execPass t desc ind s
  | .passStep t => Sys2Proof.Machine.execPassStep t s
  | .accumulate t => Sys2Proof.Machine.execAccumulate t s
  | .bf16Combine t => Sys2Proof.Machine.execBf16Combine t s
  | .checksumCompare t => Sys2Proof.Machine.execChecksumCompare t s
  | .drain t => Sys2Proof.Machine.execDrain t s
  | .vadd t v => Sys2Proof.Machine.execVadd t v s
  | .vsub t v => Sys2Proof.Machine.execVsub t v s
  | .vmul t v => Sys2Proof.Machine.execVmul t v s
  | .vfma t v => Sys2Proof.Machine.execVfma t v s
  | .vmin t v => Sys2Proof.Machine.execVmin t v s
  | .vmax t v => Sys2Proof.Machine.execVmax t v s
  | .vabs t v => Sys2Proof.Machine.execVabs t v s
  | .vneg t v => Sys2Proof.Machine.execVneg t v s
  | .vcmp t v => Sys2Proof.Machine.execVcmp t v s
  | .vsel t v => Sys2Proof.Machine.execVsel t v s
  | .vmov t v => Sys2Proof.Machine.execVmov t v s
  | .viadd t v => Sys2Proof.Machine.execViadd t v s
  | .visub t v => Sys2Proof.Machine.execVisub t v s
  | .vimul t v => Sys2Proof.Machine.execVimul t v s
  | .vand t v => Sys2Proof.Machine.execVand t v s
  | .vor t v => Sys2Proof.Machine.execVor t v s
  | .vxor t v => Sys2Proof.Machine.execVxor t v s
  | .vshl t v => Sys2Proof.Machine.execVshl t v s
  | .vshr t v => Sys2Proof.Machine.execVshr t v s
  | .vsra t v => Sys2Proof.Machine.execVsra t v s
  | .vicmp t v => Sys2Proof.Machine.execVicmp t v s
  | .viota t v => Sys2Proof.Machine.execViota t v s
  | .vcvt t v => Sys2Proof.Machine.execVcvt t v s
  | .vexp t v => Sys2Proof.Machine.execVexp t v s
  | .vexp2 t v => Sys2Proof.Machine.execVexp2 t v s
  | .vlog t v => Sys2Proof.Machine.execVlog t v s
  | .vlog2 t v => Sys2Proof.Machine.execVlog2 t v s
  | .vrcp t v => Sys2Proof.Machine.execVrcp t v s
  | .vrsqrt t v => Sys2Proof.Machine.execVrsqrt t v s
  | .vsqrt t v => Sys2Proof.Machine.execVsqrt t v s
  | .vtanh t v => Sys2Proof.Machine.execVtanh t v s
  | .vsigm t v => Sys2Proof.Machine.execVsigm t v s
  | .verf t v => Sys2Proof.Machine.execVerf t v s
  | .vsinpi t v => Sys2Proof.Machine.execVsinpi t v s
  | .vcospi t v => Sys2Proof.Machine.execVcospi t v s
  | .vrngu t v => Sys2Proof.Machine.execVrngu t v s
  | .vrngb t v => Sys2Proof.Machine.execVrngb t v s
  | .vrngn t v => Sys2Proof.Machine.execVrngn t v s
  | .vred t v => Sys2Proof.Machine.execVred t v s
  | .vscan t v => Sys2Proof.Machine.execVscan t v s
  | .vsegred t v => Sys2Proof.Machine.execVsegred t v s
  | .vsort t v => Sys2Proof.Machine.execVsort t v s
  | .vmerge t v => Sys2Proof.Machine.execVmerge t v s
  | .vqpop t v => Sys2Proof.Machine.execVqpop t v s
  | .vwadd t v => Sys2Proof.Machine.execVwadd t v s
  | .vwcvt t v => Sys2Proof.Machine.execVwcvt t v s
  | .vld t v => Sys2Proof.Machine.execVld t v s
  | .vst t v => Sys2Proof.Machine.execVst t v s
  | .vocld t v => Sys2Proof.Machine.execVocld t v s
  | .vocst t v => Sys2Proof.Machine.execVocst t v s
  | .vecResultWrite t => Sys2Proof.Machine.execVecResultWrite t s
  | .srun t ch desc sem semEn ind => Sys2Proof.Machine.execSrun t ch desc sem semEn ind s
  | .sgather t ch desc sem semEn ind => Sys2Proof.Machine.execSgather t ch desc sem semEn ind s
  | .sscatter t ch desc sem semEn ind => Sys2Proof.Machine.execSscatter t ch desc sem semEn ind s
  | .shalt t ch => Sys2Proof.Machine.execShalt t ch s
  | .streamReply t ch => Sys2Proof.Machine.execStreamReply t ch s
  | .streamComplete t ch => Sys2Proof.Machine.execStreamComplete t ch s
  | .rowStreamArrival t => Sys2Proof.Machine.execRowStreamArrival t s
  | .msend t tpl paddr ord ind step => Sys2Proof.Machine.execMsend t tpl paddr ord ind step s
  | .msig t tpl inc ord => Sys2Proof.Machine.execMsig t tpl inc ord s
  | .mfence t fc => Sys2Proof.Machine.execMfence t fc s
  | .fenceReleaseSend t => Sys2Proof.Machine.execFenceReleaseSend t s
  | .cpTake t n => Sys2Proof.Machine.execCpTake t n s
  | .cpGive t n => Sys2Proof.Machine.execCpGive t n s
  | .cpMark t => Sys2Proof.Machine.execCpMark t s
  | .add t d a b => Sys2Proof.Machine.execAdd t d a b s
  | .sub t d a b => Sys2Proof.Machine.execSub t d a b s
  | .and t d a b => Sys2Proof.Machine.execAnd t d a b s
  | .or t d a b => Sys2Proof.Machine.execOr t d a b s
  | .xor t d a b => Sys2Proof.Machine.execXor t d a b s
  | .shl t d a b => Sys2Proof.Machine.execShl t d a b s
  | .shr t d a b => Sys2Proof.Machine.execShr t d a b s
  | .sra t d a b => Sys2Proof.Machine.execSra t d a b s
  | .slt t d a b => Sys2Proof.Machine.execSlt t d a b s
  | .sltu t d a b => Sys2Proof.Machine.execSltu t d a b s
  | .mul t d a b => Sys2Proof.Machine.execMul t d a b s
  | .mulhu t d a b => Sys2Proof.Machine.execMulhu t d a b s
  | .mulh t d a b => Sys2Proof.Machine.execMulh t d a b s
  | .addi t d a imm => Sys2Proof.Machine.execAddi t d a imm s
  | .andi t d a imm => Sys2Proof.Machine.execAndi t d a imm s
  | .ori t d a imm => Sys2Proof.Machine.execOri t d a imm s
  | .xori t d a imm => Sys2Proof.Machine.execXori t d a imm s
  | .shli t d a imm => Sys2Proof.Machine.execShli t d a imm s
  | .shri t d a imm => Sys2Proof.Machine.execShri t d a imm s
  | .srai t d a imm => Sys2Proof.Machine.execSrai t d a imm s
  | .slti t d a imm => Sys2Proof.Machine.execSlti t d a imm s
  | .lui t d imm => Sys2Proof.Machine.execLui t d imm s
  | .ldw t d a imm => Sys2Proof.Machine.execLdw t d a imm s
  | .ldh t d a imm => Sys2Proof.Machine.execLdh t d a imm s
  | .ldhu t d a imm => Sys2Proof.Machine.execLdhu t d a imm s
  | .ldb t d a imm => Sys2Proof.Machine.execLdb t d a imm s
  | .ldbu t d a imm => Sys2Proof.Machine.execLdbu t d a imm s
  | .stw t d a imm => Sys2Proof.Machine.execStw t d a imm s
  | .sth t d a imm => Sys2Proof.Machine.execSth t d a imm s
  | .stb t d a imm => Sys2Proof.Machine.execStb t d a imm s
  | .beq t a b off => Sys2Proof.Machine.execBeq t a b off s
  | .bne t a b off => Sys2Proof.Machine.execBne t a b off s
  | .blt t a b off => Sys2Proof.Machine.execBlt t a b off s
  | .bge t a b off => Sys2Proof.Machine.execBge t a b off s
  | .bltu t a b off => Sys2Proof.Machine.execBltu t a b off s
  | .bgeu t a b off => Sys2Proof.Machine.execBgeu t a b off s
  | .jal t off => Sys2Proof.Machine.execJal t off s
  | .jalr t d a imm => Sys2Proof.Machine.execJalr t d a imm s
  | .muleWait t d a imm => Sys2Proof.Machine.execMuleWait t d a imm s
  | .muleWaitEnd t => Sys2Proof.Machine.execMuleWaitEnd t s
  | .muleSig t d a b => Sys2Proof.Machine.execMuleSig t d a b s
  | .muleFence t d a b => Sys2Proof.Machine.execMuleFence t d a b s
  | .send t d a b => Sys2Proof.Machine.execSend t d a b s
  | .yield t d a b => Sys2Proof.Machine.execYield t d a b s
  | .hret t d a b => Sys2Proof.Machine.execHret t d a b s
  | .muleHalt t d a b => Sys2Proof.Machine.execMuleHalt t d a b s
  | .cyc t d a b => Sys2Proof.Machine.execCyc t d a b s
  | .handlerDispatch t => Sys2Proof.Machine.execHandlerDispatch t s
  | .mulStart t => Sys2Proof.Machine.execMulStart t s
  | .mulStop t => Sys2Proof.Machine.execMulStop t s
  | .mulResume t => Sys2Proof.Machine.execMulResume t s
  | .mulImemWrite t word v => Sys2Proof.Machine.execMulImemWrite t word v s
  | .imemStageWrite m t word v => Sys2Proof.Machine.execImemStageWrite m t word v s
  | .imemBundleWrite m t b v => Sys2Proof.Machine.execImemBundleWrite m t b v s
  | .ptDataRead m => Sys2Proof.Machine.execPtDataRead m s
  | .ptDataWrite m v => Sys2Proof.Machine.execPtDataWrite m v s
  | .dmcLoadStart cop => Sys2Proof.Machine.execDmcLoadStart cop s
  | .spdScrubStart t => Sys2Proof.Machine.execSpdScrubStart t s
  | .scrubLine t bank => Sys2Proof.Machine.execScrubLine t bank s
  | .eccWriteback t bank => Sys2Proof.Machine.execEccWriteback t bank s
  | .agpStart n => Sys2Proof.Machine.execAgpStart n s
  | .agpStop n => Sys2Proof.Machine.execAgpStop n s
  | .agpResume n => Sys2Proof.Machine.execAgpResume n s
  | .agpNop n => Sys2Proof.Machine.execAgpNop n s
  | .seta n a imm => Sys2Proof.Machine.execSeta n a imm s
  | .setah n a imm => Sys2Proof.Machine.execSetah n a imm s
  | .adda n a imm => Sys2Proof.Machine.execAdda n a imm s
  | .mova n a b => Sys2Proof.Machine.execMova n a b s
  | .setc n c imm => Sys2Proof.Machine.execSetc n c imm s
  | .copy n a b len advance => Sys2Proof.Machine.execCopy n a b len advance s
  | .copyComplete n k => Sys2Proof.Machine.execCopyComplete n k s
  | .agpRep n c len => Sys2Proof.Machine.execAgpRep n c len s
  | .agpWait n d => Sys2Proof.Machine.execAgpWait n d s
  | .agpSig n target inc => Sys2Proof.Machine.execAgpSig n target inc s
  | .agpFence n => Sys2Proof.Machine.execAgpFence n s
  | .agpHalt n => Sys2Proof.Machine.execAgpHalt n s
  | .hbmRefreshWindow k cyc => Sys2Proof.Machine.execHbmRefreshWindow k cyc s
  | .forcedRefresh k ps => Sys2Proof.Machine.execForcedRefresh k ps s
  | .ddrRefreshWindow cyc => Sys2Proof.Machine.execDdrRefreshWindow cyc s
  | .messageReceive arrival => Sys2Proof.Machine.execMessageReceive arrival s
  | .scheduledLanding t => Sys2Proof.Machine.execScheduledLanding t s
  | .semaphoreSignal target => Sys2Proof.Machine.execSemaphoreSignal target s
  | .synSig t v => Sys2Proof.Machine.execSynSig t v s
  | .synDsig v => Sys2Proof.Machine.execSynDsig v s
  | .msgLandClose t mask => Sys2Proof.Machine.execMsgLandClose t mask s
  | .dumpStart dest => Sys2Proof.Machine.execDumpStart dest s
  | .flitReceive l f => Sys2Proof.Machine.execFlitReceive l f s
  | .linkSilence l lock => Sys2Proof.Machine.execLinkSilence l lock s
  | .laneBad l lane lock => Sys2Proof.Machine.execLaneBad l lane lock s
  | .linkTrained l flock member peerForward good rtt tdly => Sys2Proof.Machine.execLinkTrained l flock member peerForward good rtt tdly s
  | .retrain l => Sys2Proof.Machine.execRetrain l s
  | .slotSend l xfer twin => Sys2Proof.Machine.execSlotSend l xfer twin s
  | .scheduledArrival l crc p => Sys2Proof.Machine.execScheduledArrival l crc p s
  | .dueHold xfer twin part ps => Sys2Proof.Machine.execDueHold xfer twin part ps s
  | .transferTimeout xfer twin part => Sys2Proof.Machine.execTransferTimeout xfer twin part s
  | .routeNotice n => Sys2Proof.Machine.execRouteNotice n s
  | .beTimeout tid => Sys2Proof.Machine.execBeTimeout tid s
  | .write l crc p => Sys2Proof.Machine.execWrite l crc p s
  | .read l crc p => Sys2Proof.Machine.execRead l crc p s
  | .readData l crc p => Sys2Proof.Machine.execReadData l crc p s
  | .answer l crc p => Sys2Proof.Machine.execAnswer l crc p s
  | .collectiveStart d cyc => Sys2Proof.Machine.execCollectiveStart d cyc s
  | .colContribution c count bs marks differs => Sys2Proof.Machine.execColContribution c count bs marks differs s
  | .collectiveComplete d => Sys2Proof.Machine.execCollectiveComplete d s
  | .crossingHold r ps => Sys2Proof.Machine.execCrossingHold r ps s
  | .queueFullHold r ps => Sys2Proof.Machine.execQueueFullHold r ps s
  | .crossSlip r sender cyc => Sys2Proof.Machine.execCrossSlip r sender cyc s
  | .droopStretch r cyc mv ps => Sys2Proof.Machine.execDroopStretch r cyc mv ps s
  | .clkDroop r cyc mv => Sys2Proof.Machine.execClkDroop r cyc mv s
  | .clkMon r kind dev cyc => Sys2Proof.Machine.execClkMon r kind dev cyc s
  | .thermalReport r temp cyc => Sys2Proof.Machine.execThermalReport r temp cyc s
  | .digestItem d => Sys2Proof.Machine.execDigestItem d s
  | .pairMissing t k => Sys2Proof.Machine.execPairMissing t k s
  | .tickWatch interval => Sys2Proof.Machine.execTickWatch interval s
  | .selftest failing => Sys2Proof.Machine.execSelftest failing s
  | .frmWpairSwitch j v => Sys2Proof.Machine.execFrmWpairSwitch j v s
  | .copyReleased j => Sys2Proof.Machine.execCopyReleased j s
  | .shrStart sel => Sys2Proof.Machine.execShrStart sel s
  | .shadowRestoreEnd h0 h1 lines => Sys2Proof.Machine.execShadowRestoreEnd h0 h1 lines s
  | .hostWrite p pkt reused => Sys2Proof.Machine.execHostWrite p pkt reused s
  | .hostRead p pkt reused => Sys2Proof.Machine.execHostRead p pkt reused s
  | .claim p => Sys2Proof.Machine.execClaim p s
  | .release p => Sys2Proof.Machine.execRelease p s
  | .renew p => Sys2Proof.Machine.execRenew p s
  | .portRetrain p => Sys2Proof.Machine.execPortRetrain p s
  | .regRead off n => Sys2Proof.Machine.execRegRead off n s
  | .regWrite off vs => Sys2Proof.Machine.execRegWrite off vs s
  | .keyEnroll slot ecdsa hss => Sys2Proof.Machine.execKeyEnroll slot ecdsa hss s
  | .setEndpointId op eid => Sys2Proof.Machine.execSetEndpointId op eid s
  | .getMctpVersionSupport typ => Sys2Proof.Machine.execGetMctpVersionSupport typ s
  | .entdaa addr => Sys2Proof.Machine.execEntdaa addr s
  | .setdasa static addr => Sys2Proof.Machine.execSetdasa static addr s
  | .platformEventMessage sensor measured => Sys2Proof.Machine.execPlatformEventMessage sensor measured s
  | .firmwareUpdate image => Sys2Proof.Machine.execFirmwareUpdate image s
  | .recordCommit site => Sys2Proof.Machine.execRecordCommit site s
  | .getVersion fields => Sys2Proof.Machine.execGetVersion fields s
  | .getCapabilities fields => Sys2Proof.Machine.execGetCapabilities fields s
  | .negotiateAlgorithms ecdsa sha fields => Sys2Proof.Machine.execNegotiateAlgorithms ecdsa sha fields s
  | .getDigests fields => Sys2Proof.Machine.execGetDigests fields s
  | .getCertificate slot off len fields => Sys2Proof.Machine.execGetCertificate slot off len fields s
  | .challenge slot fields => Sys2Proof.Machine.execChallenge slot fields s
  | .getMeasurements index sign fields => Sys2Proof.Machine.execGetMeasurements index sign fields s
  | .vendorDefinedRequest code => Sys2Proof.Machine.execVendorDefinedRequest code s
  | .lmsFail moved => Sys2Proof.Machine.execLmsFail moved s
  | .standbyPowerGood flock member par => Sys2Proof.Machine.execStandbyPowerGood flock member par s
  | .bootStageComplete stage b => Sys2Proof.Machine.execBootStageComplete stage b s
  | .candidateExchange l cs => Sys2Proof.Machine.execCandidateExchange l cs s
  | .dmcRowrst rows => Sys2Proof.Machine.execDmcRowrst rows s
  | .coldPowerOn p52 => Sys2Proof.Machine.execColdPowerOn p52 s
  | .inputWaitExpiry high => Sys2Proof.Machine.execInputWaitExpiry high s
  | .protectionTrip codes => Sys2Proof.Machine.execProtectionTrip codes s
  | .samplePreload pins cells => Sys2Proof.Machine.execSamplePreload pins cells s
  | .extest pins => Sys2Proof.Machine.execExtest pins s
  | .illegal engine n => Sys2Proof.Machine.execIllegal engine n s
  | .holdoverTick => Sys2Proof.Machine.execHoldoverTick s
  | .tickLost => Sys2Proof.Machine.execTickLost s
  | .drainComplete => Sys2Proof.Machine.execDrainComplete s
  | .releaseCycle0 => Sys2Proof.Machine.execReleaseCycle0 s
  | .runStart => Sys2Proof.Machine.execRunStart s
  | .runStop => Sys2Proof.Machine.execRunStop s
  | .safeReq => Sys2Proof.Machine.execSafeReq s
  | .atNextTick => Sys2Proof.Machine.execAtNextTick s
  | .atCount => Sys2Proof.Machine.execAtCount s
  | .now => Sys2Proof.Machine.execNow s
  | .cancel => Sys2Proof.Machine.execCancel s
  | .subtickSample => Sys2Proof.Machine.execSubtickSample s
  | .loadChecks => Sys2Proof.Machine.execLoadChecks s
  | .loadInstall => Sys2Proof.Machine.execLoadInstall s
  | .loadEnd => Sys2Proof.Machine.execLoadEnd s
  | .dmcLoadAbort => Sys2Proof.Machine.execDmcLoadAbort s
  | .messageAnswer => Sys2Proof.Machine.execMessageAnswer s
  | .save => Sys2Proof.Machine.execSave s
  | .restore => Sys2Proof.Machine.execRestore s
  | .contextSaveRun => Sys2Proof.Machine.execContextSaveRun s
  | .contextRestoreRun => Sys2Proof.Machine.execContextRestoreRun s
  | .forward => Sys2Proof.Machine.execForward s
  | .fabTwinClear => Sys2Proof.Machine.execFabTwinClear s
  | .tidFreeSend => Sys2Proof.Machine.execTidFreeSend s
  | .verdictFormed => Sys2Proof.Machine.execVerdictFormed s
  | .gooseStop => Sys2Proof.Machine.execGooseStop s
  | .ringEnable => Sys2Proof.Machine.execRingEnable s
  | .ringDisable => Sys2Proof.Machine.execRingDisable s
  | .cplEnable => Sys2Proof.Machine.execCplEnable s
  | .cplDisable => Sys2Proof.Machine.execCplDisable s
  | .regw => Sys2Proof.Machine.execRegw s
  | .load => Sys2Proof.Machine.execLoad s
  | .waitTick => Sys2Proof.Machine.execWaitTick s
  | .mark => Sys2Proof.Machine.execMark s
  | .nop => Sys2Proof.Machine.execNop s
  | .getEndpointId => Sys2Proof.Machine.execGetEndpointId s
  | .getMessageTypeSupport => Sys2Proof.Machine.execGetMessageTypeSupport s
  | .getVendorDefinedMessageSupport => Sys2Proof.Machine.execGetVendorDefinedMessageSupport s
  | .lmsBuild => Sys2Proof.Machine.execLmsBuild s
  | .watchdogReset => Sys2Proof.Machine.execWatchdogReset s
  | .mainOn => Sys2Proof.Machine.execMainOn s
  | .mainOff => Sys2Proof.Machine.execMainOff s
  | .mmcSafeReq => Sys2Proof.Machine.execMmcSafeReq s
  | .ownRelease => Sys2Proof.Machine.execOwnRelease s
  | .warmReset => Sys2Proof.Machine.execWarmReset s
  | .svnCommit => Sys2Proof.Machine.execSvnCommit s
  | .electionSettle => Sys2Proof.Machine.execElectionSettle s
  | .takeover => Sys2Proof.Machine.execTakeover s
  | .elect => Sys2Proof.Machine.execElect s
  | .handover => Sys2Proof.Machine.execHandover s
  | .warm => Sys2Proof.Machine.execWarm s
  | .job => Sys2Proof.Machine.execJob s
  | .jobResetRun => Sys2Proof.Machine.execJobResetRun s
  | .rowResetEnd => Sys2Proof.Machine.execRowResetEnd s
  | .mainEnNHigh => Sys2Proof.Machine.execMainEnNHigh s
  | .staggerExpiry => Sys2Proof.Machine.execStaggerExpiry s
  | .railStep => Sys2Proof.Machine.execRailStep s
  | .mainPowerGood => Sys2Proof.Machine.execMainPowerGood s
  | .seqFail => Sys2Proof.Machine.execSeqFail s
  | .powerDownStep => Sys2Proof.Machine.execPowerDownStep s
  | .bypass => Sys2Proof.Machine.execBypass s
  | .idcode => Sys2Proof.Machine.execIdcode s
  | .cmdBad => Sys2Proof.Machine.execCmdBad s
  | .mainEnNLow => Sys2Proof.Machine.execMainEnNLow s
  | .p52vInRange => Sys2Proof.Machine.execP52vInRange s

end Sys2Proof.Machine
end

