-- ==== Sys2Proof/WellFormed.lean ====
section
/-! DEFINITION. Which commands are well formed: the checks on operands that the rules make and that the types of the
operands do not. A command of a tile names a logical tile that a part can have (R4); the fields of a bundle's slot
hold no reserved value (R175 to R189); lists have the lengths that their packets and messages carry (R423, R447,
R455). -/

namespace Sys2Proof.Machine

/-- The logical tile that a command names, and that the part must have (R33). -/
def tileOf (i : Instr) : Option Nat :=
  match i with
  | .bundleIssue t => some t
  | .kset t _ _ => some t
  | .rep t _ _ => some t
  | .repIterationEnd t => some t
  | .jmp t _ => some t
  | .jq t _ _ => some t
  | .qcmp t _ _ _ _ => some t
  | .endOp t => some t
  | .pass t _ _ => some t
  | .passStep t => some t
  | .accumulate t => some t
  | .bf16Combine t => some t
  | .checksumCompare t => some t
  | .drain t => some t
  | .vadd t _ => some t
  | .vsub t _ => some t
  | .vmul t _ => some t
  | .vfma t _ => some t
  | .vmin t _ => some t
  | .vmax t _ => some t
  | .vabs t _ => some t
  | .vneg t _ => some t
  | .vcmp t _ => some t
  | .vsel t _ => some t
  | .vmov t _ => some t
  | .viadd t _ => some t
  | .visub t _ => some t
  | .vimul t _ => some t
  | .vand t _ => some t
  | .vor t _ => some t
  | .vxor t _ => some t
  | .vshl t _ => some t
  | .vshr t _ => some t
  | .vsra t _ => some t
  | .vicmp t _ => some t
  | .viota t _ => some t
  | .vcvt t _ => some t
  | .vexp t _ => some t
  | .vexp2 t _ => some t
  | .vlog t _ => some t
  | .vlog2 t _ => some t
  | .vrcp t _ => some t
  | .vrsqrt t _ => some t
  | .vsqrt t _ => some t
  | .vtanh t _ => some t
  | .vsigm t _ => some t
  | .verf t _ => some t
  | .vsinpi t _ => some t
  | .vcospi t _ => some t
  | .vrngu t _ => some t
  | .vrngb t _ => some t
  | .vrngn t _ => some t
  | .vred t _ => some t
  | .vscan t _ => some t
  | .vsegred t _ => some t
  | .vsort t _ => some t
  | .vmerge t _ => some t
  | .vqpop t _ => some t
  | .vwadd t _ => some t
  | .vwcvt t _ => some t
  | .vld t _ => some t
  | .vst t _ => some t
  | .vocld t _ => some t
  | .vocst t _ => some t
  | .vecResultWrite t => some t
  | .srun t _ _ _ _ _ => some t
  | .sgather t _ _ _ _ _ => some t
  | .sscatter t _ _ _ _ _ => some t
  | .shalt t _ => some t
  | .streamReply t _ => some t
  | .streamComplete t _ => some t
  | .rowStreamArrival t => some t
  | .msend t _ _ _ _ _ => some t
  | .msig t _ _ _ => some t
  | .mfence t _ => some t
  | .fenceReleaseSend t => some t
  | .cpTake t _ => some t
  | .cpGive t _ => some t
  | .cpMark t => some t
  | .add t _ _ _ => some t
  | .sub t _ _ _ => some t
  | .and t _ _ _ => some t
  | .or t _ _ _ => some t
  | .xor t _ _ _ => some t
  | .shl t _ _ _ => some t
  | .shr t _ _ _ => some t
  | .sra t _ _ _ => some t
  | .slt t _ _ _ => some t
  | .sltu t _ _ _ => some t
  | .mul t _ _ _ => some t
  | .mulhu t _ _ _ => some t
  | .mulh t _ _ _ => some t
  | .addi t _ _ _ => some t
  | .andi t _ _ _ => some t
  | .ori t _ _ _ => some t
  | .xori t _ _ _ => some t
  | .shli t _ _ _ => some t
  | .shri t _ _ _ => some t
  | .srai t _ _ _ => some t
  | .slti t _ _ _ => some t
  | .lui t _ _ => some t
  | .ldw t _ _ _ => some t
  | .ldh t _ _ _ => some t
  | .ldhu t _ _ _ => some t
  | .ldb t _ _ _ => some t
  | .ldbu t _ _ _ => some t
  | .stw t _ _ _ => some t
  | .sth t _ _ _ => some t
  | .stb t _ _ _ => some t
  | .beq t _ _ _ => some t
  | .bne t _ _ _ => some t
  | .blt t _ _ _ => some t
  | .bge t _ _ _ => some t
  | .bltu t _ _ _ => some t
  | .bgeu t _ _ _ => some t
  | .jal t _ => some t
  | .jalr t _ _ _ => some t
  | .muleWait t _ _ _ => some t
  | .muleWaitEnd t => some t
  | .muleSig t _ _ _ => some t
  | .muleFence t _ _ _ => some t
  | .send t _ _ _ => some t
  | .yield t _ _ _ => some t
  | .hret t _ _ _ => some t
  | .muleHalt t _ _ _ => some t
  | .cyc t _ _ _ => some t
  | .handlerDispatch t => some t
  | .mulStart t => some t
  | .mulStop t => some t
  | .mulResume t => some t
  | .mulImemWrite t _ _ => some t
  | .imemStageWrite _ t _ _ => some t
  | .imemBundleWrite _ t _ _ => some t
  | .spdScrubStart t => some t
  | .scrubLine t _ => some t
  | .eccWriteback t _ => some t
  | .scheduledLanding t => some t
  | .synSig t _ => some t
  | .msgLandClose t _ => some t
  | .pairMissing t _ => some t
  | .semaphoreSignal target => if target.getLsbD 15 then none else some (target.toNat / 32 % 1024)
  | .illegal engine n => if engine then none else some n
  | _ => none

/-- The operation of the vector slot that a command issues: its VOP (R183) and its fields. -/
def vectorOf (i : Instr) : Option (Nat × VecSlot) :=
  match i with
  | .vadd _ v => some (0x01, v)
  | .vsub _ v => some (0x02, v)
  | .vmul _ v => some (0x03, v)
  | .vfma _ v => some (0x04, v)
  | .vmin _ v => some (0x05, v)
  | .vmax _ v => some (0x06, v)
  | .vabs _ v => some (0x07, v)
  | .vneg _ v => some (0x08, v)
  | .vcmp _ v => some (0x09, v)
  | .vsel _ v => some (0x0A, v)
  | .vmov _ v => some (0x0B, v)
  | .viadd _ v => some (0x10, v)
  | .visub _ v => some (0x11, v)
  | .vimul _ v => some (0x12, v)
  | .vand _ v => some (0x13, v)
  | .vor _ v => some (0x14, v)
  | .vxor _ v => some (0x15, v)
  | .vshl _ v => some (0x16, v)
  | .vshr _ v => some (0x17, v)
  | .vsra _ v => some (0x18, v)
  | .vicmp _ v => some (0x19, v)
  | .viota _ v => some (0x1A, v)
  | .vcvt _ v => some (0x20, v)
  | .vexp _ v => some (0x21, v)
  | .vexp2 _ v => some (0x22, v)
  | .vlog _ v => some (0x23, v)
  | .vlog2 _ v => some (0x24, v)
  | .vrcp _ v => some (0x25, v)
  | .vrsqrt _ v => some (0x26, v)
  | .vsqrt _ v => some (0x27, v)
  | .vtanh _ v => some (0x28, v)
  | .vsigm _ v => some (0x29, v)
  | .verf _ v => some (0x2A, v)
  | .vsinpi _ v => some (0x2B, v)
  | .vcospi _ v => some (0x2C, v)
  | .vrngu _ v => some (0x30, v)
  | .vrngb _ v => some (0x31, v)
  | .vrngn _ v => some (0x32, v)
  | .vred _ v => some (0x38, v)
  | .vscan _ v => some (0x39, v)
  | .vsegred _ v => some (0x3A, v)
  | .vsort _ v => some (0x3C, v)
  | .vmerge _ v => some (0x3D, v)
  | .vqpop _ v => some (0x40, v)
  | .vwadd _ v => some (0x41, v)
  | .vwcvt _ v => some (0x42, v)
  | .vld _ v => some (0x48, v)
  | .vst _ v => some (0x49, v)
  | .vocld _ v => some (0x4A, v)
  | .vocst _ v => some (0x4B, v)
  | _ => none

/-- The IND field of a command of a bundle's slot (R177). -/
def indOf (i : Instr) : Option (BitVec 3) :=
  match i with
  | .pass _ _ ind => some ind
  | .srun _ _ _ _ _ ind => some ind
  | .sgather _ _ _ _ _ ind => some ind
  | .sscatter _ _ _ _ _ ind => some ind
  | .msend _ _ _ _ ind _ => some ind
  | _ => none

/-- A logical tile number that some part has: there are 1,024 tile sites (R4). -/
def tileOk (i : Instr) : Bool :=
  match tileOf i with
  | some t => decide (t < 1024)
  | none => true

/-- The vector slot holds no reserved value (R175, R182 to R184). -/
def vectorOk (i : Instr) : Bool :=
  match vectorOf i with
  | some (vop, v) => !vecMalformed vop v
  | none => true

/-- The IND field holds none of its reserved values 1 to 3 (R177). -/
def indOk (i : Instr) : Bool :=
  match indOf i with
  | some ind => !indReserved ind
  | none => true

/-- The data of a host packet are whole 32-bit words, at most 256 bytes (R427, R428). -/
def hostOk (i : Instr) : Bool :=
  match i with
  | .hostWrite _ pkt _ => decide (pkt.data.length ≤ 256) && pkt.data.length % 4 == 0
  | .hostRead _ pkt _ => decide (pkt.want ≤ 256) && pkt.want % 4 == 0
  | _ => true

/-- REG_READ and REG_WRITE name 1 to 12 registers (R447). -/
def sideBandOk (i : Instr) : Bool :=
  match i with
  | .regRead _ n => decide (1 ≤ n) && decide (n ≤ 12)
  | .regWrite _ vs => decide (1 ≤ vs.length) && decide (vs.length ≤ 12)
  | _ => true

/-- A command is well formed. -/
def wellFormed (i : Instr) : Bool := tileOk i && vectorOk i && indOk i && hostOk i && sideBandOk i

end Sys2Proof.Machine
end

