-- ==== Sys2Proof/Safety.lean ====
section
/-! DEFINITION. What the statements are said with: what a command leaves unchanged, when a unit is about to act, and
the words of the Mule's instructions. -/

namespace Sys2Proof.Machine

/-! ### What is left unchanged -/

/-- Every byte of spaces 0, 1 and 2 reads as before. -/
def sameMemory (s s' : State) : Prop :=
  ∀ a, memGet s'.spad a = memGet s.spad a ∧ memGet s'.hbm a = memGet s.hbm a ∧ memGet s'.ddr a = memGet s.ddr a

/-- The state but for the fields of tiles is the same. -/
def onlyTiles (s s' : State) : Prop := { s' with tiles := s.tiles } = s

/-- The state but for the registers is the same. -/
def onlyRegs (s s' : State) : Prop := { s' with regs := s.regs } = s

/-- The state but for tiles and registers is the same. -/
def onlyTilesRegs (s s' : State) : Prop := { s' with tiles := s.tiles, regs := s.regs } = s

/-- Every register but the listed ones reads as before. -/
def sameRegsBut (s s' : State) (offs : List Nat) : Prop := ∀ o, o ∉ offs → s'.reg o = s.reg o

/-- Every tile but the listed ones is as before. -/
def sameTilesBut (s s' : State) (ts : List Nat) : Prop := ∀ t, t ∉ ts → s'.tile t = s.tile t

/-- Every engine but the listed ones is as before. -/
def sameEnginesBut (s s' : State) (ns : List Nat) : Prop := ∀ n, n ∉ ns → s'.engine n = s.engine n

/-- Of tile `t` only its Mule may have changed, and nothing else of the state. -/
def onlyMule (s s' : State) (t : Nat) : Prop :=
  onlyTiles s s' ∧ sameTilesBut s s' [t] ∧ { s'.tile t with mule := (s.tile t).mule } = s.tile t

/-- Of tile `t` only its control state may have changed, and nothing else of the state. -/
def onlyCtl (s s' : State) (t : Nat) : Prop :=
  onlyTiles s s' ∧ sameTilesBut s s' [t] ∧ { s'.tile t with ctl := (s.tile t).ctl } = s.tile t

/-- Of tile `t` only its vector engine may have changed, and nothing else of the state. -/
def onlyVec (s s' : State) (t : Nat) : Prop :=
  onlyTiles s s' ∧ sameTilesBut s s' [t] ∧ { s'.tile t with vec := (s.tile t).vec } = s.tile t

/-- The canonical form of the three memories. -/
def memoriesWf (s : State) : Prop := Memory.wf s.spad = true ∧ Memory.wf s.hbm = true ∧ Memory.wf s.ddr = true

/-! ### Units that are about to act -/

/-- Tile `t` has a bundle to issue in the open frame (R170). -/
def issuing (s : State) (t : Nat) : Prop := t < s.tileCount ∧ s.tileIssues t = true

/-- The Mule of tile `t` is about to issue the word `w`, fetched without an error (R151, R164). -/
def muleAt (s : State) (t : Nat) (w : BitVec 32) : Prop :=
  t < s.tileCount ∧ muleReady (s.tile t).mule = true ∧ (s.tile t).mule.pc.toNat < 0x4000
    ∧ mapFind (s.tile t).mule.imemErr ((s.tile t).mule.pc.toNat / 4) = none
    ∧ mapGet 0 (s.tile t).mule.imem ((s.tile t).mule.pc.toNat / 4) = w

/-- Engine `n` is about to run the instruction `i` (R249, R251). -/
def engineAt (s : State) (n : Fin 16) (i : BitVec 64) : Prop :=
  agpReady (s.engine n) = true ∧ s.agpInstr n (s.engine n).pc.toNat = i

/-- The vector engine of tile `t` is free, nothing is on its way to its registers, none of its words has an error,
and the tile has broken no promise in this frame (R8, R127, R131, R132). -/
def vecClean (s : State) (t : Nat) : Prop :=
  issuing s t ∧ (s.tile t).broken = false ∧ (s.vec t).run = none ∧ (s.vec t).pending = []
    ∧ (s.vec t).tregErr = [] ∧ (s.vec t).ocacheErr = []

/-! ### The Mule's words -/

/-- The tile and the instruction word of a command of the Mule (R150, R151). -/
def muleWord (i : Instr) : Option (Nat × BitVec 32) :=
  match i with
  | .add t d a b => some (t, muleA 0x00 d a b)
  | .sub t d a b => some (t, muleA 0x01 d a b)
  | .and t d a b => some (t, muleA 0x02 d a b)
  | .or t d a b => some (t, muleA 0x03 d a b)
  | .xor t d a b => some (t, muleA 0x04 d a b)
  | .shl t d a b => some (t, muleA 0x05 d a b)
  | .shr t d a b => some (t, muleA 0x06 d a b)
  | .sra t d a b => some (t, muleA 0x07 d a b)
  | .slt t d a b => some (t, muleA 0x08 d a b)
  | .sltu t d a b => some (t, muleA 0x09 d a b)
  | .mul t d a b => some (t, muleA 0x0A d a b)
  | .mulhu t d a b => some (t, muleA 0x0B d a b)
  | .mulh t d a b => some (t, muleA 0x0C d a b)
  | .addi t d a imm => some (t, muleB 0x10 d a imm)
  | .andi t d a imm => some (t, muleB 0x11 d a imm)
  | .ori t d a imm => some (t, muleB 0x12 d a imm)
  | .xori t d a imm => some (t, muleB 0x13 d a imm)
  | .shli t d a imm => some (t, muleB 0x14 d a imm)
  | .shri t d a imm => some (t, muleB 0x15 d a imm)
  | .srai t d a imm => some (t, muleB 0x16 d a imm)
  | .slti t d a imm => some (t, muleB 0x17 d a imm)
  | .lui t d imm => some (t, muleC 0x18 d imm)
  | .ldw t d a imm => some (t, muleB 0x20 d a imm)
  | .ldh t d a imm => some (t, muleB 0x21 d a imm)
  | .ldhu t d a imm => some (t, muleB 0x22 d a imm)
  | .ldb t d a imm => some (t, muleB 0x23 d a imm)
  | .ldbu t d a imm => some (t, muleB 0x24 d a imm)
  | .stw t d a imm => some (t, muleB 0x28 d a imm)
  | .sth t d a imm => some (t, muleB 0x29 d a imm)
  | .stb t d a imm => some (t, muleB 0x2A d a imm)
  | .beq t a b off => some (t, muleB 0x30 a b off)
  | .bne t a b off => some (t, muleB 0x31 a b off)
  | .blt t a b off => some (t, muleB 0x32 a b off)
  | .bge t a b off => some (t, muleB 0x33 a b off)
  | .bltu t a b off => some (t, muleB 0x34 a b off)
  | .bgeu t a b off => some (t, muleB 0x35 a b off)
  | .jal t off => some (t, muleE 0x36 off)
  | .jalr t d a imm => some (t, muleB 0x37 d a imm)
  | .muleWait t d a imm => some (t, muleB 0x38 d a imm)
  | .muleSig t d a b => some (t, muleA 0x39 d a b)
  | .muleFence t d a b => some (t, muleA 0x3A d a b)
  | .send t d a b => some (t, muleA 0x3B d a b)
  | .yield t d a b => some (t, muleA 0x3C d a b)
  | .hret t d a b => some (t, muleA 0x3D d a b)
  | .muleHalt t d a b => some (t, muleA 0x3E d a b)
  | .cyc t d a b => some (t, muleA 0x3F d a b)
  | _ => none

/-! ### Events (R370, R371) -/

/-- A hard event was raised: the local Goose of its region counts it, and the open frame holds it unless the drain of
an overrun is under way. -/
def raisedHard (s s' : State) (e : GEvent) : Prop :=
  (s.frame.draining = false → s'.events = s.events ++ [e] ∧ s'.closed = s.closed)
    ∧ (s'.reg (GOS_L_HARD e.region)).toNat = min ((s.reg (GOS_L_HARD e.region)).toNat + 1) (2 ^ 32 - 1)
    ∧ s'.reg (GOS_L_EVENT e.region) = s.reg (GOS_L_EVENT e.region) ||| 4

/-- The registers that a hard event of region `r` writes. -/
def hardRegs (r : Nat) : List Nat := [GOS_L_HARD r, GOS_L_EVENT r, GOS_REC_FAULT]

/-- Nothing but tiles, registers and the events of the frames has changed. -/
def onlyEvents (s s' : State) : Prop :=
  { s' with tiles := s.tiles, regs := s.regs, events := s.events, closed := s.closed } = s

/-- The Mule of tile `t` has stopped with a fault at the instruction at its pc, and nothing else has changed but
the records of the event (R164). -/
def muleFaulted (s s' : State) (t code : Nat) : Prop :=
  s'.tile t = { s.tile t with
      mule := { (s.tile t).mule with state := .fault, fcode := code, faultPc := (s.tile t).mule.pc, waitSem := none } }
    ∧ sameTilesBut s s' [t] ∧ onlyEvents s s'
    ∧ raisedHard s s' ⟨.muleFault, s.tileRegion t, t, s.cycle t, code⟩
    ∧ sameRegsBut s s' (hardRegs (s.tileRegion t))

/-! ### The Mule's arithmetic (R151) -/

/-- The scalar register that an arithmetic instruction writes and the value it writes, from the registers as they
stand: the table of R151, row by row. -/
def muleResult (s : State) (i : Instr) : Option (BitVec 5 × BitVec 32) :=
  match i with
  | .add t d a b => some (d, s.sreg t a + s.sreg t b)
  | .sub t d a b => some (d, s.sreg t a - s.sreg t b)
  | .and t d a b => some (d, s.sreg t a &&& s.sreg t b)
  | .or t d a b => some (d, s.sreg t a ||| s.sreg t b)
  | .xor t d a b => some (d, s.sreg t a ^^^ s.sreg t b)
  | .shl t d a b => some (d, s.sreg t a <<< ((s.sreg t b).toNat % 32))
  | .shr t d a b => some (d, s.sreg t a >>> ((s.sreg t b).toNat % 32))
  | .sra t d a b => some (d, (s.sreg t a).sshiftRight ((s.sreg t b).toNat % 32))
  | .slt t d a b => some (d, if (s.sreg t a).toInt < (s.sreg t b).toInt then 1 else 0)
  | .sltu t d a b => some (d, if (s.sreg t a).toNat < (s.sreg t b).toNat then 1 else 0)
  | .mul t d a b => some (d, s.sreg t a * s.sreg t b)
  | .mulhu t d a b => some (d, BitVec.ofNat 32 ((s.sreg t a).toNat * (s.sreg t b).toNat / 2 ^ 32))
  | .mulh t d a b => some (d, BitVec.ofInt 32 ((s.sreg t a).toInt * (s.sreg t b).toInt / 2 ^ 32))
  | .addi t d a imm => some (d, s.sreg t a + imm.signExtend 32)
  | .andi t d a imm => some (d, s.sreg t a &&& imm.setWidth 32)
  | .ori t d a imm => some (d, s.sreg t a ||| imm.setWidth 32)
  | .xori t d a imm => some (d, s.sreg t a ^^^ imm.setWidth 32)
  | .shli t d a imm => some (d, s.sreg t a <<< (imm.toNat % 32))
  | .shri t d a imm => some (d, s.sreg t a >>> (imm.toNat % 32))
  | .srai t d a imm => some (d, (s.sreg t a).sshiftRight (imm.toNat % 32))
  | .slti t d a imm => some (d, if (s.sreg t a).toInt < imm.toInt then 1 else 0)
  | .lui _ d imm => some (d, imm.setWidth 32 <<< 11)
  | _ => none

/-- A load (R151): its tile, its width in bytes, whether it sign-extends, its destination and its address. -/
def muleLoadOf (s : State) (i : Instr) : Option (Nat × Nat × Bool × BitVec 5 × BitVec 32) :=
  match i with
  | .ldw t d a imm => some (t, 4, false, d, s.sreg t a + imm.signExtend 32)
  | .ldh t d a imm => some (t, 2, true, d, s.sreg t a + imm.signExtend 32)
  | .ldhu t d a imm => some (t, 2, false, d, s.sreg t a + imm.signExtend 32)
  | .ldb t d a imm => some (t, 1, true, d, s.sreg t a + imm.signExtend 32)
  | .ldbu t d a imm => some (t, 1, false, d, s.sreg t a + imm.signExtend 32)
  | _ => none

/-- A store (R151): its tile, its width in bytes, its address and the value. -/
def muleStoreOf (s : State) (i : Instr) : Option (Nat × Nat × BitVec 32 × BitVec 32) :=
  match i with
  | .stw t d a imm => some (t, 4, s.sreg t a + imm.signExtend 32, s.sreg t d)
  | .sth t d a imm => some (t, 2, s.sreg t a + imm.signExtend 32, s.sreg t d)
  | .stb t d a imm => some (t, 1, s.sreg t a + imm.signExtend 32, s.sreg t d)
  | _ => none

/-- A branch (R151): its tile, its condition and its target. -/
def muleBranchOf (s : State) (i : Instr) : Option (Nat × Bool × BitVec 32) :=
  match i with
  | .beq t a b off => some (t, s.sreg t a == s.sreg t b, (s.tile t).mule.pc + 4 * off.signExtend 32)
  | .bne t a b off => some (t, s.sreg t a != s.sreg t b, (s.tile t).mule.pc + 4 * off.signExtend 32)
  | .blt t a b off => some (t, decide ((s.sreg t a).toInt < (s.sreg t b).toInt), (s.tile t).mule.pc + 4 * off.signExtend 32)
  | .bge t a b off => some (t, decide ((s.sreg t b).toInt ≤ (s.sreg t a).toInt), (s.tile t).mule.pc + 4 * off.signExtend 32)
  | .bltu t a b off => some (t, decide ((s.sreg t a).toNat < (s.sreg t b).toNat), (s.tile t).mule.pc + 4 * off.signExtend 32)
  | .bgeu t a b off => some (t, decide ((s.sreg t b).toNat ≤ (s.sreg t a).toNat), (s.tile t).mule.pc + 4 * off.signExtend 32)
  | _ => none

/-- A value as `n` bytes give it, sign- or zero-extended to a scalar register. -/
def extended (n : Nat) (sx : Bool) (v : Nat) : BitVec 32 :=
  if sx ∧ 2 ^ (8 * n - 1) ≤ v then BitVec.ofNat 32 (v + 2 ^ 32 - 2 ^ (8 * n)) else BitVec.ofNat 32 v

/-- An instruction of tile `t`'s Mule has completed: it wrote `v` to `d` (nothing where `d` is s0), the pc is
`pc`, and nothing else of the state has changed (R148, R151). -/
def muleWrote (s s' : State) (t : Nat) (d : BitVec 5) (v pc : BitVec 32) : Prop :=
  s'.sreg t d = (if d = 0 then 0 else v)
    ∧ (∀ r, r ≠ d → s'.sreg t r = s.sreg t r)
    ∧ { (s'.tile t).mule with regs := (s.tile t).mule.regs } = { (s.tile t).mule with pc := pc }
    ∧ onlyMule s s' t

/-- A WAIT of tile `t`'s Mule on semaphore `n` has ended (R157): the semaphore is one less, `d` holds its new value, the
pc has advanced, and nothing else has changed. -/
def waitEnded (s s' : State) (t n : Nat) (d : BitVec 5) : Prop :=
  s'.sem t n = s.sem t n - 1 ∧ sameRegsBut s s' [SYN_SEM t n]
    ∧ s'.sreg t d = (if d = 0 then 0 else BitVec.ofNat 32 (s.sem t n - 1)) ∧ (∀ r, r ≠ d → s'.sreg t r = s.sreg t r)
    ∧ { (s'.tile t).mule with regs := (s.tile t).mule.regs }
        = { (s.tile t).mule with
            pc := (s.tile t).mule.pc + 4
            state := if (s.tile t).mule.inHandler then .handler else .running
            waitSem := none }
    ∧ { s'.tile t with mule := (s.tile t).mule } = s.tile t ∧ sameTilesBut s s' [t] ∧ onlyTilesRegs s s'

/-- The Mule of tile `t` has taken the message of an inbox entry and runs its handler, which is to return to `resume`
(R161, R163): s28 to s31 hold payload, tag, epoch and flags, and the address, the entry has left the inbox, and nothing else has
changed. -/
def dispatched (s s' : State) (t : Nat) (e : InboxEntry) (resume : BitVec 32) : Prop :=
  s'.sreg t 28 = e.msg.payload.extractLsb' 0 32 ∧ s'.sreg t 29 = e.msg.payload.extractLsb' 32 32
    ∧ (s'.sreg t 30).extractLsb' 0 16 = e.msg.tag ∧ (s'.sreg t 30).extractLsb' 16 8 = e.msg.epoch
    ∧ (s'.sreg t 30).extractLsb' 24 8
        = BitVec.ofNat 8 (e.msg.ord.toNat + 2 * e.msg.be.toNat + 4 * e.msg.notice.toNat + 8 * e.msg.user.toNat)
    ∧ s'.sreg t 31 = resume ∧ (∀ r, r ∉ [28, 29, 30, 31] → s'.sreg t r = s.sreg t r)
    ∧ (s'.tile t).mule.pc = BitVec.ofNat 32 (fld (s.reg (MUL_HADDR t e.handler)) 0 12 * 4)
    ∧ (s'.tile t).mule.state = .handler ∧ (s'.tile t).mule.inHandler = true
    ∧ (s'.tile t).mule.inbox = (s.tile t).mule.inbox.erase e ∧ onlyMule s s' t

/-- The Mule of tile `t` has become `m`, and nothing else has changed. -/
def muleBecame (s s' : State) (t : Nat) (m : Mule) : Prop := (s'.tile t).mule = m ∧ onlyMule s s' t

/-! ### The control slot and the bundle -/

/-- Of the control state of tile `t` loop counter `k` is `n` and its iteration index `j`; the other counters and
indices, the comparators and END are as before. -/
def counterMoved (s s' : State) (t k : Nat) (n j : BitVec 16) : Prop :=
  let c := (s.tile t).ctl
  let c' := (s'.tile t).ctl
  ctlK c' k = n ∧ ctlJ c' k = j ∧ (∀ x, x ≠ k → ctlK c' x = ctlK c x ∧ ctlJ c' x = ctlJ c x)
    ∧ c'.q = c.q ∧ c'.ended = c.ended ∧ c'.cycle = c.cycle

/-- As `counterMoved`, with the pc and the repeat blocks unchanged. -/
def counterSet (s s' : State) (t k : Nat) (n j : BitVec 16) : Prop :=
  counterMoved s s' t k n j ∧ (s'.tile t).ctl.pc = (s.tile t).ctl.pc ∧ (s'.tile t).ctl.reps = (s.tile t).ctl.reps

/-- The command is a control operation of tile `t` that breaks a promise of R180. -/
def flowViolation (c : Ctl) (t : Nat) (i : Instr) : Prop :=
  match i with
  | .kset u k _ => u = t ∧ ctlActive c k.toNat = true
  | .rep u k len => u = t ∧ (ctlActive c k.toNat = true ∨ ctlAtBodyEnd c = true
      ∨ (ctlK c k.toNat ≠ 0 ∧ len ≠ 0 ∧ 2047 < c.pc.toNat + len.toNat))
  | .jmp u target => u = t ∧ (ctlJumpBreaks c target.toNat = true ∨ ctlAtBodyEnd c = true)
  | .jq u q target => u = t ∧ ((ctlQ c q.toNat = true ∧ ctlJumpBreaks c target.toNat = true) ∨ ctlAtBodyEnd c = true)
  | _ => False

/-- No unit of tile `t` is busy and nothing is on its way to it. -/
def quietTile (s : State) (t : Nat) : Prop :=
  (s.tile t).passes = [] ∧ (s.vec t).run = none ∧ (s.vec t).pending = [] ∧ (∀ ch, (s.chan t ch).run = none)
    ∧ (s.tile t).sigs = [] ∧ (s.tile t).landings = [] ∧ (s.tile t).held = []
    ∧ (∀ a, (s.array t a).lag = [] ∧ (s.array t a).lateDue = [])
    ∧ (∀ f ∈ s.flight, f.msg.tile.toNat ≠ t) ∧ (∀ w ∈ s.rowWords, w.dest ≠ t)
    ∧ (∀ a ∈ s.answers, sourceTile a.source ≠ some t)

/-! ### The vector engine -/

/-- The tile, the VOP and the slot of a vector instruction: the table of R183. -/
def vecOp (i : Instr) : Option (Nat × Nat × VecSlot) :=
  match i with
  | .vadd t v => some (t, 0x01, v)
  | .vsub t v => some (t, 0x02, v)
  | .vmul t v => some (t, 0x03, v)
  | .vfma t v => some (t, 0x04, v)
  | .vmin t v => some (t, 0x05, v)
  | .vmax t v => some (t, 0x06, v)
  | .vabs t v => some (t, 0x07, v)
  | .vneg t v => some (t, 0x08, v)
  | .vcmp t v => some (t, 0x09, v)
  | .vsel t v => some (t, 0x0A, v)
  | .vmov t v => some (t, 0x0B, v)
  | .viadd t v => some (t, 0x10, v)
  | .visub t v => some (t, 0x11, v)
  | .vimul t v => some (t, 0x12, v)
  | .vand t v => some (t, 0x13, v)
  | .vor t v => some (t, 0x14, v)
  | .vxor t v => some (t, 0x15, v)
  | .vshl t v => some (t, 0x16, v)
  | .vshr t v => some (t, 0x17, v)
  | .vsra t v => some (t, 0x18, v)
  | .vicmp t v => some (t, 0x19, v)
  | .viota t v => some (t, 0x1A, v)
  | .vcvt t v => some (t, 0x20, v)
  | .vexp t v => some (t, 0x21, v)
  | .vexp2 t v => some (t, 0x22, v)
  | .vlog t v => some (t, 0x23, v)
  | .vlog2 t v => some (t, 0x24, v)
  | .vrcp t v => some (t, 0x25, v)
  | .vrsqrt t v => some (t, 0x26, v)
  | .vsqrt t v => some (t, 0x27, v)
  | .vtanh t v => some (t, 0x28, v)
  | .vsigm t v => some (t, 0x29, v)
  | .verf t v => some (t, 0x2A, v)
  | .vsinpi t v => some (t, 0x2B, v)
  | .vcospi t v => some (t, 0x2C, v)
  | .vrngu t v => some (t, 0x30, v)
  | .vrngb t v => some (t, 0x31, v)
  | .vrngn t v => some (t, 0x32, v)
  | .vred t v => some (t, 0x38, v)
  | .vscan t v => some (t, 0x39, v)
  | .vsegred t v => some (t, 0x3A, v)
  | .vsort t v => some (t, 0x3C, v)
  | .vmerge t v => some (t, 0x3D, v)
  | .vqpop t v => some (t, 0x40, v)
  | .vwadd t v => some (t, 0x41, v)
  | .vwcvt t v => some (t, 0x42, v)
  | .vld t v => some (t, 0x48, v)
  | .vst t v => some (t, 0x49, v)
  | .vocld t v => some (t, 0x4A, v)
  | .vocst t v => some (t, 0x4B, v)
  | _ => none

/-- Value `c` of row `row` of register `reg` as a view reads it (R124, R125). -/
def regValue (s : State) (t reg row view c : Nat) : Elem :=
  (viewVals view (rowOf (s.vec t).treg (2048 * reg + 64 * row))).getD c elemReset

/-- Value `c` of row `row` of the operand cache as a view reads it (R125, R128). -/
def cacheValue (s : State) (t row view c : Nat) : Elem :=
  (viewVals view ((List.range 64).map fun k => ocWord (s.vec t) (64 * (row % 256) + k))).getD c elemReset

/-- Value `c` of source b in the first row of an instruction (R182): register VB, or cache row OROW. -/
def sourceB (s : State) (t : Nat) (v : VecSlot) (c : Nat) : Elem :=
  if v.bsrc = 0 then regValue s t v.vb.toNat v.row.toNat v.view.toNat c
  else cacheValue s t v.orow.toNat v.view.toNat c

/-- What an elementwise instruction writes at a position, from the values a, b and c there (R134, R93, R136), and which of
them it reads: the value, and whether a, b and c contribute. -/
def elementResult (i : Instr) (v : VecSlot) (pos : Nat) (a b c : BitVec 32) : Option (BitVec 32 × Bool × Bool × Bool) :=
  let view := v.view.toNat
  let rnd := vRnd v
  let f := viewVal view
  let bool := fun (x : Bool) => viewBool view x
  let count := if vmode v 52 1 = 1 then vmode v 53 5 else b.toNat % 32
  let bShift := vmode v 52 1 ≠ 1
  match i with
  | .vadd _ _ => some (roundTo view rnd (valAdd rnd (f a) (f b)), true, true, false)
  | .vsub _ _ => some (roundTo view rnd (valAdd rnd (f a) (valNeg (f b))), true, true, false)
  | .vmul _ _ => some (roundTo view rnd (valMul (f a) (f b)), true, true, false)
  | .vfma _ _ => some (roundTo view rnd (valAdd rnd (valMul (f a) (f b)) (f c)), true, true, true)
  | .vmin _ _ => some (roundTo view rnd (valMin (f a) (f b)), true, true, false)
  | .vmax _ _ => some (roundTo view rnd (valMax (f a) (f b)), true, true, false)
  | .vabs _ _ => some (a &&& (if view = 2 then 0xFFFF7FFF else 0x7FFFFFFF), true, false, false)
  | .vneg _ _ => some (a ^^^ (if view = 2 then 0x8000 else 0x80000000), true, false, false)
  | .vcmp _ _ => some (bool (match vmode v 52 2, valCmp (f a) (f b) with
      | 0, o => o == some .eq
      | 1, o => o != some .eq
      | 2, o => o == some .lt
      | _, o => o == some .lt || o == some .eq), true, true, false)
  | .vsel _ _ => some (if c ≠ 0 then a else b, true, true, true)
  | .vmov _ _ => some (b, false, true, false)
  | .viadd _ _ => some (a + b, true, true, false)
  | .visub _ _ => some (a - b, true, true, false)
  | .vimul _ _ => some (a * b, true, true, false)
  | .vand _ _ => some (a &&& b, true, true, false)
  | .vor _ _ => some (a ||| b, true, true, false)
  | .vxor _ _ => some (a ^^^ b, true, true, false)
  | .vshl _ _ => some (a <<< count, true, bShift, false)
  | .vshr _ _ => some (a >>> count, true, bShift, false)
  | .vsra _ _ => some (a.sshiftRight count, true, bShift, false)
  | .vicmp _ _ => some (if (match vmode v 52 2 with
      | 0 => a == b
      | 1 => a != b
      | 2 => decide (a.toInt < b.toInt)
      | _ => decide (a.toInt ≤ b.toInt)) then 1 else 0, true, true, false)
  | .viota _ _ => some (BitVec.ofNat 32 (vmode v 52 32 + 64 * v.row.toNat + pos), false, false, false)
  | .vexp _ _ => some (transcend (view == 2) 0x21 a, true, false, false)
  | .vexp2 _ _ => some (transcend (view == 2) 0x22 a, true, false, false)
  | .vlog _ _ => some (transcend (view == 2) 0x23 a, true, false, false)
  | .vlog2 _ _ => some (transcend (view == 2) 0x24 a, true, false, false)
  | .vrcp _ _ => some (transcend (view == 2) 0x25 a, true, false, false)
  | .vrsqrt _ _ => some (transcend (view == 2) 0x26 a, true, false, false)
  | .vsqrt _ _ => some (transcend (view == 2) 0x27 a, true, false, false)
  | .vtanh _ _ => some (transcend (view == 2) 0x28 a, true, false, false)
  | .vsigm _ _ => some (transcend (view == 2) 0x29 a, true, false, false)
  | .verf _ _ => some (transcend (view == 2) 0x2A a, true, false, false)
  | .vsinpi _ _ => some (transcend (view == 2) 0x2B a, true, false, false)
  | .vcospi _ _ => some (transcend (view == 2) 0x2C a, true, false, false)
  | _ => none

/-- Wide word `n` of the area at cache row `row`: four words of the cache, with a cause that joins their marks (R78, R128). -/
def areaWord (s : State) (t row n : Nat) : Wide :=
  let raw := (List.range 4).map fun q => ocWord (s.vec t) (64 * ((row + n / 16) % 256) + 4 * (n % 16) + q)
  let w := wideOfBits (BitVec.ofNat 128 (raw.foldr (fun e acc => e.bits.toNat + 2 ^ 32 * acc) 0))
  { w with cause := causeJoin w.cause (causeJoinAll (raw.map (·.cause))) }

/-- A vector instruction of tile `t` that is well formed, names at least one row, and issues on a clean engine. -/
def vecIssues (s : State) (t vop : Nat) (v : VecSlot) : Prop :=
  vecClean s t ∧ vecMalformed vop v = false ∧ v.count ≠ 0

/-- The results that tile `t`'s vector engine has on their way are exactly `ws`, issued in this cycle, each due `lat` cycles
from it, and an instruction of one row has issued all of it (R131). -/
def vecSends (s s' : State) (t : Nat) (v : VecSlot) (lat : Nat) (ws : List Landed) : Prop :=
  (s'.vec t).pending = ws.map (fun w => ⟨s.cycle t + lat, s.cycle t, w⟩) ∧ (v.count = 1 → (s'.vec t).run = none)
    ∧ (s'.vec t).treg = (s.vec t).treg ∧ (s'.vec t).ocache = (s.vec t).ocache

/-! ### Stream channels -/

/-- A stream start: its tile, SOP, channel, DESC, SEM, SEMEN and IND (R185). -/
def streamOpOf (i : Instr) : Option (Nat × Nat × BitVec 2 × BitVec 5 × BitVec 5 × Bool × BitVec 3) :=
  match i with
  | .srun t ch desc sem semEn ind => some (t, 1, ch, desc, sem, semEn, ind)
  | .sgather t ch desc sem semEn ind => some (t, 2, ch, desc, sem, semEn, ind)
  | .sscatter t ch desc sem semEn ind => some (t, 3, ch, desc, sem, semEn, ind)
  | _ => none

/-! ### Messages -/

/-- The message slot of tile `t` has sent, or holds, the message that template `tpl` gives with a payload (R277, R279): the
operation awaits its answer under the next serial number. -/
def slotSent (s s' : State) (t tpl : Nat) (ord : Bool) (payload : BitVec 64) : Prop :=
  let w0 := s.template t tpl 0
  let w1 := s.template t tpl 1
  let m := templateMsg s t tpl ord payload
  let id := (s.tile t).msgSerial
  let waits := bit w0 30 = true ∧ s.fence t (fld w1 26 2) ≠ 0
  (waits → (s'.tile t).held = (s.tile t).held ++ [⟨id, fld w1 26 2, fld (s.template t tpl 2) 16 16, m⟩]
      ∧ s'.flight = s.flight)
    ∧ (¬ waits → s.rankLocal m.rank.toNat = true →
        s'.flight = s.flight ++ [⟨m, .slotMsg t id, s.cycle t + 3 + s.msgDelta (.slotMsg t id) m⟩])
    ∧ (waits ∨ s.rankLocal m.rank.toNat = true → (s'.tile t).msgSerial = id + 1
        ∧ (∃ o, (s'.tile t).outstanding = (s.tile t).outstanding ++ [o] ∧ o.id = id ∧ o.template = tpl
            ∧ o.nackpol = fld w0 28 2) ∧ sameTilesBut s s' [t])
    ∧ sameMemory s s'

/-! ### Instruction memories -/

/-- Word `k` of a bundle as a master has staged it for a tile (R190). -/
def stagedWord (s : State) (t : Nat) (m : Master) (k : Nat) : BitVec 32 := mapGet 0 (s.tile t).staging (8 * masterKey m + k)

/-! ### The address-generator engines -/

/-- The engine of an engine instruction. -/
def engineOf (c : Instr) : Option (Fin 16) :=
  match c with
  | .agpNop n => some n
  | .seta n _ _ => some n
  | .setah n _ _ => some n
  | .adda n _ _ => some n
  | .mova n _ _ => some n
  | .setc n _ _ => some n
  | .copy n _ _ _ _ => some n
  | .agpRep n _ _ => some n
  | .agpWait n _ => some n
  | .agpSig n _ _ => some n
  | .agpFence n => some n
  | .agpHalt n => some n
  | _ => none

/-- The OP and the operand fields that a word spells an engine instruction with: the table of R249. -/
def agpSpells (c : Instr) (i : BitVec 64) : Prop :=
  let op := fun (x : Nat) => agpFld i 58 6 = x
  let fa := fun (a : BitVec 3) => agpFld i 55 3 = a.toNat
  let fb := fun (b : BitVec 3) => agpFld i 52 3 = b.toNat
  let fc := fun (x : BitVec 2) => agpFld i 50 2 = x.toNat
  match c with
  | .agpNop _ => op 0x00
  | .seta _ a imm => op 0x01 ∧ fa a ∧ agpFld i 0 48 = imm.toNat
  | .setah _ a imm => op 0x02 ∧ fa a ∧ agpFld i 0 16 = imm.toNat
  | .adda _ a imm => op 0x03 ∧ fa a ∧ agpFld i 0 48 = imm.toNat
  | .mova _ a b => op 0x04 ∧ fa a ∧ fb b
  | .setc _ x imm => op 0x05 ∧ fc x ∧ agpFld i 0 32 = imm.toNat
  | .copy _ a b len adv => op 0x06 ∧ fa a ∧ fb b ∧ agpFld i 0 32 = len.toNat ∧ agpFld i 32 1 = (if adv then 1 else 0)
  | .agpRep _ x len => op 0x07 ∧ fc x ∧ agpFld i 0 8 = len.toNat
  | .agpWait _ d => op 0x08 ∧ agpFld i 0 8 = d.toNat
  | .agpSig _ target inc => op 0x09 ∧ agpFld i 0 16 = target.toNat ∧ agpFld i 16 16 = inc.toNat
  | .agpFence _ => op 0x0A
  | .agpHalt _ => op 0x0B
  | _ => False

/-- Engine `n` is about to run the instruction `c`, spelt by a word whose reserved field is 0. -/
def engineSpells (s : State) (c : Instr) (n : Fin 16) : Prop :=
  engineOf c = some n ∧ ∃ i, engineAt s n i ∧ agpSpells c i ∧ agpFld i 48 2 = 0

/-- No repeat block of engine `n` ends at its current instruction. -/
def engineAway (s : State) (n : Nat) : Prop := ∀ b ∈ (s.engine n).reps, b.last ≠ (s.engine n).pc.toNat

/-- Engine `n` is at `pc` in a state; of everything else only registers may have changed. -/
def engineWent (s s' : State) (n : Nat) (pc : BitVec 8) (st : AgpState) : Prop :=
  s'.engine n = { s.engine n with pc := pc, state := st } ∧ sameEnginesBut s s' [n]
    ∧ { s' with regs := s.regs, agp := s.agp } = s

/-- The registers that an engine instruction without flow or traffic writes, with their values (R249); none for the other
instructions, and for a SETC of a counter whose block is active (R180). -/
def agpWrites (s : State) (c : Instr) : Option (List (Nat × BitVec 32)) :=
  match c with
  | .agpNop _ => some []
  | .seta n a imm => some [(AGP_A_LO n a.toNat, imm.setWidth 32),
      (AGP_A_LO n a.toNat + 4, (s.reg (AGP_A_LO n a.toNat + 4)).extractLsb' 16 16 ++ imm.extractLsb' 32 16)]
  | .setah n a imm => some [(AGP_A_LO n a.toNat, s.reg (AGP_A_LO n a.toNat)),
      (AGP_A_LO n a.toNat + 4, imm ++ (s.reg (AGP_A_LO n a.toNat + 4)).extractLsb' 0 16)]
  | .adda n a imm =>
    let old := s.reg64 (AGP_A_LO n a.toNat)
    let new : BitVec 64 := old.extractLsb' 47 17 ++ (old.extractLsb' 0 47 + imm.setWidth 47)
    some [(AGP_A_LO n a.toNat, new.setWidth 32), (AGP_A_LO n a.toNat + 4, new.extractLsb' 32 32)]
  | .mova n a b => some [(AGP_A_LO n a.toNat, s.reg (AGP_A_LO n b.toNat)),
      (AGP_A_LO n a.toNat + 4, s.reg (AGP_A_LO n b.toNat + 4))]
  | .setc n x imm => if ∃ b ∈ (s.engine n).reps, b.counter = x.toNat then none else some [(AGP_C n x.toNat, imm)]
  | _ => none

/-! ### Links -/

/-- A command that takes a link DOWN, with the link and the cause code of R321: silence, loss of lock, a bad lane. -/
def linkFault (c : Instr) : Option (Fin 34 × Nat) :=
  match c with
  | .linkSilence l lock => some (l, if lock then 1 else 4)
  | .laneBad l _ lock => some (l, if lock then 1 else 3)
  | _ => none

/-! ### Traffic between ranks -/

/-- A packet of a request or an answer on a link, of the TYPE its command names: link, whether its CRC holds, packet. -/
def packetOf (c : Instr) : Option (Fin 32 × Bool × Packet) :=
  match c with
  | .write l crc p => if p.kind = 0 then some (l, crc, p) else none
  | .read l crc p => if p.kind = 1 then some (l, crc, p) else none
  | .readData l crc p => if p.kind = 3 then some (l, crc, p) else none
  | .answer l crc p => if p.kind = 4 then some (l, crc, p) else none
  | _ => none

/-- The packet `p` has been answered with a packet of TYPE `kind` whose first byte is `b` (R310, R326): one packet for its
source, under its transaction, has left the module, or, with no path, none. -/
def answered (s s' : State) (p : Packet) (kind b : Nat) : Prop :=
  s'.sent = s.sent ∨ ∃ l q, s'.sent = s.sent ++ [(l, q)] ∧ q.kind = kind ∧ q.dst = p.src ∧ q.tid = p.tid ∧ q.be = p.be
    ∧ (q.data.headD 0).toNat = b

/-- The command completes the transaction `tid` with a status: a packet for this rank, or its timeout. -/
def completing (s : State) (c : Instr) (tid code : Nat) : Prop :=
  (∃ l p, (c = .readData l true p ∧ p.kind = 3 ∧ code = stDone
      ∨ c = .answer l true p ∧ p.kind = 4 ∧ code = (p.data.headD 0).toNat)
    ∧ s.linkUp l.val = true ∧ p.be = true ∧ p.dst = s.ownRank ∧ s.ownRank ≠ selfRank ∧ p.tid = tid)
  ∨ (∃ x : BitVec 14, c = .beTimeout x ∧ x.toNat = tid ∧ code = stTimeout)

/-- Nothing but the fabric's own state, registers and the events of the frames has changed. -/
def onlyFabric (s s' : State) : Prop :=
  { s' with fab := s.fab, regs := s.regs, events := s.events, closed := s.closed } = s

/-! ### The safe state (R390, R391) -/

/-- The module is in the safe state with a cause: the open frame has stopped and no tile issues. -/
def inSafe (s : State) (cause : Nat) : Prop :=
  s.frame.safe = some cause ∧ bit (s.reg GOS_STATUS) 0 = true ∧ fld (s.reg GOS_STATUS) 8 4 = cause
    ∧ s.frame.released = false ∧ ∀ t, s.tileIssues t = false

/-! ### Descriptors (R437, R438) -/

/-- The OP that a descriptor command executes; 5 for one that is bad. -/
def descCommand (c : Instr) : Option Nat :=
  match c with
  | .nop => some 0
  | .regw => some 1
  | .load => some 2
  | .waitTick => some 3
  | .mark => some 4
  | .cmdBad => some 5
  | _ => none

/-! ### The side-band port (R446 to R449) -/

/-- The side-band port has answered, or told, `r`. -/
def sbSent (s s' : State) (r : SbReply) : Prop := s'.mgmt.sent = s.mgmt.sent ++ [r]

/-- Nothing but registers and the management controller's own state has changed. -/
def onlyMgmt (s s' : State) : Prop := { s' with regs := s.regs, mgmt := s.mgmt } = s

/-! ### Power (R492, R496) -/

/-- Nothing but registers and the power state has changed. -/
def onlyPower (s s' : State) : Prop := { s' with regs := s.regs, power := s.power } = s

end Sys2Proof.Machine
end

