-- ==== Sys2Proof/Certificates/Slice0/Obligations.lean ====
section
/-! DEFINITION. The statements for the provers, in the order of OBLIGATIONS.json. -/

open Sys2Proof Sys2Proof.Machine

/-! ### The machine as a whole -/

/-- A step takes the command at the front of the queue and runs it with the rest of the queue; on an empty queue a
microsecond passes and no memory, tile or register of the tiles changes (log 1). -/
def Obligations.StepRunsFrontCommand : Prop :=
  (∀ (c : Instr) (rest : List Instr) (s : State),
    step { s with pending := c :: rest } = exec c { s with pending := rest })
  ∧ ∀ s : State, s.pending = [] →
    ∃ s', step s = .next s' ∧ s'.us = s.us + 1 ∧ s'.pending = [] ∧ sameMemory s s' ∧ s'.tiles = s.tiles

/-- After reset every register holds the reset value of its table (DMC_IDENT, whose fields the part gives, apart), no
command waits, the memories list nothing and have their canonical form, and no part of the module has power. What an
unlisted byte reads as, and the reset values of registers for which no table gives one, are the model's choice (log 2, log
3). -/
def Obligations.ResetState : Prop :=
  (∀ off, off ≠ DMC_IDENT → State.reset.reg off = regReset off)
    ∧ State.reset.pending = [] ∧ memoriesWf State.reset
    ∧ (∀ a, memGet State.reset.spad a = memDefault ∧ memGet State.reset.hbm a = memDefault
        ∧ memGet State.reset.ddr a = memDefault)
    ∧ (∀ t, State.reset.tile t = tileReset) ∧ State.reset.power.mainGood = false
    ∧ State.reset.frame.armed = none ∧ State.reset.events = []

/-- Every step keeps the canonical form of the three memories: addresses rise strictly, and no listed byte equals what an
unlisted address reads as. -/
def Obligations.StepKeepsMemoriesCanonical : Prop :=
  ∀ s s' : State, memoriesWf s → step s = .next s' → memoriesWf s'

/-- A command that names a logical tile the part does not have stops with a fault (log 33); every other command, and every
command of a tile that the part has, answers a next state. No command is refused. -/
def Obligations.OnlyMissingTilesFault : Prop :=
  ∀ (i : Instr) (s : State),
    (∀ t, tileOf i = some t → s.tileCount ≤ t → exec i s = .fault (.noSuchTile t))
    ∧ ((∀ t, tileOf i = some t → t < s.tileCount) → ∃ s', exec i s = .next s')

/-! ### The Mule -/

/-- The words of the Mule's instructions (R150, R151): each legal word is the word of exactly one command of a tile, with
every register number and immediate at every value; the words of the commands are legal but for an instruction of form A
whose opcode needs bits 10:0 clear, which the form itself clears. -/
def Obligations.MuleWordsAreUnique : Prop :=
  (∀ (i j : Instr) (t : Nat) (w : BitVec 32), muleWord i = some (t, w) → muleWord j = some (t, w) → i = j)
    ∧ (∀ (i : Instr) (t : Nat) (w : BitVec 32), muleWord i = some (t, w) → muleIllegal w = false)
    ∧ ∀ (t : Nat) (w : BitVec 32), muleIllegal w = false → ∃ i, muleWord i = some (t, w)

/-- Arithmetic of the Mule (R151): the 22 arithmetic instructions write the value of the table of R151 to d, a write to s0
is ignored (R148), the pc advances by 4, and nothing else changes. -/
def Obligations.MuleArithmeticWritesResult : Prop :=
  ∀ (i : Instr) (s : State) (t : Nat) (w : BitVec 32) (d : BitVec 5) (v : BitVec 32),
    muleWord i = some (t, w) → muleAt s t w → muleResult s i = some (d, v) →
    ∃ s', exec i s = .next s' ∧ muleWrote s s' t d v ((s.tile t).mule.pc + 4)

/-- Loads of the Mule (R149, R151, R164): from data memory and from the tile's own slice the little-endian bytes at the
address, sign- or zero-extended; from the register window, by words only, what the register read answers; an address
outside the map faults with ADDR before an address that is no multiple of the width faults with MISALIGNED; an
uncorrectable word or a poison mark faults with DATA, a failed register access with ADDR. Stores of the Mule (R149, R151,
R164): the low bytes of d go, little-endian, to data memory, to the tile's own slice or, by words only, to the register
window, and no other byte of any memory changes; the faults are those of loads. -/
def Obligations.MuleMemoryAccesses : Prop :=
  (∀ (i : Instr) (s : State) (t : Nat) (w : BitVec 32) (n : Nat) (sx : Bool) (d : BitVec 5) (addr : BitVec 32),
    muleWord i = some (t, w) → muleAt s t w → muleLoadOf s i = some (t, n, sx, d, addr) →
    let a := addr.toNat
    let pc := (s.tile t).mule.pc
    -- data memory
    (a < 0x2000 → a % n = 0 →
      let v := extended n sx (leNat ((List.range n).map fun k => mapGet 0 (s.tile t).mule.dmem (a + k)))
      (mapFind (s.tile t).mule.dmemErr (a / 4) = none → ∃ s', exec i s = .next s' ∧ muleWrote s s' t d v (pc + 4))
      ∧ (mapFind (s.tile t).mule.dmemErr (a / 4) = some .single →
          ∃ s', exec i s = .next s' ∧ s'.sreg t d = (if d = 0 then 0 else v) ∧ (s'.tile t).mule.pc = pc + 4
            ∧ (s'.reg (MUL_ECC_CORR t)).toNat = min ((s.reg (MUL_ECC_CORR t)).toNat + 1) (2 ^ 32 - 1))
      ∧ (mapFind (s.tile t).mule.dmemErr (a / 4) = some .double →
          ∃ s', exec i s = .next s' ∧ muleFaulted s s' t faultData))
    -- the tile's own slice: `s1` is the state with the errors of the read recorded (R235)
    ∧ (0x10000000 ≤ a → a < 0x10100000 → a % n = 0 →
      let r := s.spadRead t (a - 0x10000000) n
      let v := extended n sx (leNat ((List.range n).map fun k => memGet s.spad (spadOff t (a - 0x10000000 + k))))
      (causeJoinAll r.2.causes = .none → ∃ s', exec i s = .next s' ∧ muleWrote r.1 s' t d v (pc + 4))
      ∧ (causeJoinAll r.2.causes ≠ .none → ∃ s', exec i s = .next s' ∧ muleFaulted r.1 s' t faultData))
    -- the tile's own registers
    ∧ (0x20000000 ≤ a → a < 0x20100000 → n = 4 → a % 4 = 0 →
      let r := tileRead s (.mule t) t (a - 0x20000000)
      (r.2.1 = stDone → ∃ s', exec i s = .next s' ∧ muleWrote r.1 s' t d r.2.2 (pc + 4))
      ∧ (r.2.1 ≠ stDone → ∃ s', exec i s = .next s' ∧ muleFaulted r.1 s' t faultAddr))
    -- elsewhere, and not aligned
    ∧ (¬ a < 0x2000 → ¬ (0x10000000 ≤ a ∧ a < 0x10100000) → ¬ (0x20000000 ≤ a ∧ a < 0x20100000 ∧ n = 4) →
        ∃ s', exec i s = .next s' ∧ muleFaulted s s' t faultAddr)
    ∧ (a < 0x2000 ∨ (0x10000000 ≤ a ∧ a < 0x10100000) ∨ (0x20000000 ≤ a ∧ a < 0x20100000 ∧ n = 4) → a % n ≠ 0 →
        ∃ s', exec i s = .next s' ∧ muleFaulted s s' t faultMisaligned))
  ∧ (∀ (i : Instr) (s : State) (t : Nat) (w : BitVec 32) (n : Nat) (addr v : BitVec 32),
    muleWord i = some (t, w) → muleAt s t w → muleStoreOf s i = some (t, n, addr, v) →
    let a := addr.toNat
    let pc := (s.tile t).mule.pc
    let byte := fun k => BitVec.ofNat 8 (v.toNat / 256 ^ k)
    -- data memory
    (a < 0x2000 → a % n = 0 →
      ∃ s', exec i s = .next s' ∧ onlyMule s s' t ∧ (s'.tile t).mule.pc = pc + 4
        ∧ (∀ r, s'.sreg t r = s.sreg t r)
        ∧ ∀ x, mapGet 0 (s'.tile t).mule.dmem x
            = if a ≤ x ∧ x < a + n then byte (x - a) else mapGet 0 (s.tile t).mule.dmem x)
    -- the tile's own slice
    ∧ (0x10000000 ≤ a → a < 0x10100000 → a % n = 0 →
      let b := spadOff t (a - 0x10000000)
      ∃ s', exec i s = .next s' ∧ (s'.tile t).mule = { (s.tile t).mule with pc := pc + 4 } ∧ sameTilesBut s s' [t]
        ∧ { s' with spad := s.spad, spadMark := s.spadMark, spadErr := s.spadErr, tiles := s.tiles } = s
        ∧ ∀ x, memGet s'.spad x = if b ≤ x ∧ x < b + n then byte (x - b) else memGet s.spad x)
    -- the tile's own registers: `s1` is the state that the register write leaves
    ∧ (0x20000000 ≤ a → a < 0x20100000 → n = 4 → a % 4 = 0 →
      let r := tileWrite s (.mule t) t (a - 0x20000000) v
      (r.2 = stDone → ∃ s', exec i s = .next s' ∧ onlyMule r.1 s' t
          ∧ (s'.tile t).mule = { (r.1.tile t).mule with pc := (r.1.tile t).mule.pc + 4 })
      ∧ (r.2 ≠ stDone → ∃ s', exec i s = .next s' ∧ muleFaulted r.1 s' t faultAddr))
    -- elsewhere, and not aligned
    ∧ (¬ a < 0x2000 → ¬ (0x10000000 ≤ a ∧ a < 0x10100000) → ¬ (0x20000000 ≤ a ∧ a < 0x20100000 ∧ n = 4) →
        ∃ s', exec i s = .next s' ∧ muleFaulted s s' t faultAddr)
    ∧ (a < 0x2000 ∨ (0x10000000 ≤ a ∧ a < 0x10100000) ∨ (0x20000000 ≤ a ∧ a < 0x20100000 ∧ n = 4) → a % n ≠ 0 →
        ∃ s', exec i s = .next s' ∧ muleFaulted s s' t faultMisaligned))

/-- Branches and jumps of the Mule (R151): a taken branch, JAL and JALR go to their target, with the return address in d
or s1; an untaken branch goes on; a target outside instruction memory faults with ADDR at the instruction, which does not
complete. -/
def Obligations.MuleBranchesAndJumps : Prop :=
  (∀ (i : Instr) (s : State) (t : Nat) (w : BitVec 32) (taken : Bool) (target : BitVec 32),
    muleWord i = some (t, w) → muleAt s t w → muleBranchOf s i = some (t, taken, target) →
    ∃ s', exec i s = .next s' ∧
      (if taken then
        (if target.toNat < 0x4000 then muleWrote s s' t 0 0 target else muleFaulted s s' t faultAddr)
       else muleWrote s s' t 0 0 ((s.tile t).mule.pc + 4)))
  ∧ (∀ (s : State) (t : Nat) (off : BitVec 26), muleAt s t (muleE 0x36 off) →
    let target := (s.tile t).mule.pc + 4 * off.signExtend 32
    ∃ s', exec (.jal t off) s = .next s' ∧
      (if target.toNat < 0x4000 then muleWrote s s' t 1 ((s.tile t).mule.pc + 4) target
       else muleFaulted s s' t faultAddr))
  ∧ ∀ (s : State) (t : Nat) (d a : BitVec 5) (imm : BitVec 16), muleAt s t (muleB 0x37 d a imm) →
    let sum := (s.sreg t a + imm.signExtend 32).toNat
    ∃ s', exec (.jalr t d a imm) s = .next s' ∧
      (if sum < 0x4000 then muleWrote s s' t d ((s.tile t).mule.pc + 4) (BitVec.ofNat 32 (sum - sum % 4))
       else muleFaulted s s' t faultAddr)

/-- WAIT and its end (R157): with the semaphore at 0 the Mule waits at its pc; with it at 1 or more the WAIT ends in the
same cycle, and so does a WAIT in progress once a signal has come. SIG (R158): with bit 15 of a set the signal goes to
device semaphore a[7:0]; with it clear to semaphore a[4:0] of tile a[14:5], at once where that is the Mule's own tile,
saturating at 65,535 (R276); a tile the part does not have faults with ADDR. FENCE, HALT and CYC (R151): FENCE goes on,
since every earlier store is written; HALT stops the Mule at the HALT; CYC writes the schedule cycle of the open frame (on
a tile that has no bundle to issue the value is free, log 23). -/
def Obligations.MuleSynchronises : Prop :=
  ((∀ (s : State) (t : Nat) (d a : BitVec 5) (imm : BitVec 16), muleAt s t (muleB 0x38 d a imm) →
    let n := imm.toNat % 32
    ∃ s', exec (.muleWait t d a imm) s = .next s' ∧
      (if s.sem t n = 0 then
        muleBecame s s' t { (s.tile t).mule with state := .waiting, waitSem := some (n, d.toNat) }
       else waitEnded s s' t n d))
  ∧ ∀ (s : State) (t n : Nat) (d : BitVec 5), t < s.tileCount → (s.tile t).mule.state = .waiting →
    (s.tile t).mule.waitSem = some (n, d.toNat) → 1 ≤ s.sem t n →
    ∃ s', exec (.muleWaitEnd t) s = .next s' ∧ waitEnded s s' t n d)
  ∧ (∀ (s : State) (t : Nat) (d a b : BitVec 5), muleAt s t (muleA 0x39 d a b) →
    let target := (s.sreg t a).toNat
    let inc := (s.sreg t b).toNat
    let u := target / 32 % 1024
    let n := target % 32
    let pc := (s.tile t).mule.pc + 4
    ∃ s', exec (.muleSig t d a b) s = .next s' ∧
      (if target / 2 ^ 15 % 2 = 1 then
        s'.dsigs = s.dsigs ++ [(target % 256, inc)] ∧ muleBecame { s with dsigs := s'.dsigs } s' t { (s.tile t).mule with pc := pc }
      else if s.tileCount ≤ u then muleFaulted s s' t faultAddr
      else if u = t then
        s'.sem t n = min (s.sem t n + inc) 65535 ∧ (s'.tile t).mule = { (s.tile t).mule with pc := pc }
          ∧ sameTilesBut s s' [t] ∧ onlyEvents s s'
          ∧ (s.sem t n + inc ≤ 65535 → s'.events = s.events ∧ sameRegsBut s s' [SYN_SEM t n])
          ∧ (65535 < s.sem t n + inc → s'.reg (SYN_SAT t) = BitVec.ofNat 32 n)
      else
        (s'.tile u).sigs = (s.tile u).sigs ++ [⟨n, inc, none⟩] ∧ (s'.tile t).mule = { (s.tile t).mule with pc := pc }
          ∧ { s'.tile u with sigs := (s.tile u).sigs } = s.tile u
          ∧ { s'.tile t with mule := (s.tile t).mule } = s.tile t ∧ sameTilesBut s s' [t, u] ∧ onlyTiles s s'))
  ∧ ((∀ (s : State) (t : Nat) (d a b : BitVec 5), muleAt s t (muleA 0x3A d a b) →
    ∃ s', exec (.muleFence t d a b) s = .next s' ∧ muleWrote s s' t 0 0 ((s.tile t).mule.pc + 4))
  ∧ (∀ (s : State) (t : Nat) (d a b : BitVec 5), muleAt s t (muleA 0x3E d a b) →
    ∃ s', exec (.muleHalt t d a b) s = .next s'
      ∧ muleBecame s s' t { (s.tile t).mule with state := .halted, haltedByHalt := true })
  ∧ ∀ (s : State) (t : Nat) (d a b : BitVec 5), muleAt s t (muleA 0x3F d a b) →
    (s.tileIssues t = true → ∃ s', exec (.cyc t d a b) s = .next s'
        ∧ muleWrote s s' t d (BitVec.ofNat 32 (s.cycle t)) ((s.tile t).mule.pc + 4))
    ∧ (s.tileIssues t = false → ∃ s' v, exec (.cyc t d a b) s = .next s'
        ∧ muleWrote { s with freeCount := s'.freeCount } s' t d v ((s.tile t).mule.pc + 4)))

/-- Dispatch points (R161, R163): a YIELD outside a handler takes the eligible message and resumes after itself; a WAIT
whose semaphore is 0 and the idle-dispatch state take it and resume at the pc; with no eligible message, or inside a
handler, YIELD only goes on. Handlers do not nest. HRET (R163, R164): inside a handler it jumps to s31 and ends the
handler, so that the Mule runs again; outside one it faults with HRET, and with a bad target with ADDR or MISALIGNED. -/
def Obligations.MuleHandlers : Prop :=
  ((∀ (s : State) (t : Nat) (d a b : BitVec 5), muleAt s t (muleA 0x3C d a b) →
    ∃ s', exec (.yield t d a b) s = .next s' ∧
      (match (s.tile t).mule.inHandler, eligible s t with
      | false, some e => dispatched s s' t e ((s.tile t).mule.pc + 4)
      | _, _ => muleWrote s s' t 0 0 ((s.tile t).mule.pc + 4)))
  ∧ (∀ (s : State) (t n d : Nat) (e : InboxEntry), t < s.tileCount → (s.tile t).mule.state = .waiting →
    (s.tile t).mule.waitSem = some (n, d) → s.sem t n = 0 → (s.tile t).mule.inHandler = false →
    (s.tile t).gated = false → eligible s t = some e →
    ∃ s', exec (.handlerDispatch t) s = .next s' ∧ dispatched s s' t e (s.tile t).mule.pc)
  ∧ (∀ (s : State) (t : Nat) (e : InboxEntry), t < s.tileCount → (s.tile t).mule.state = .halted →
    (s.tile t).mule.haltedByHalt = true → bit (s.reg (MUL_CTRL t)) 3 = true → (s.tile t).mule.inHandler = false →
    (s.tile t).gated = false → eligible s t = some e →
    ∃ s', exec (.handlerDispatch t) s = .next s' ∧ dispatched s s' t e (s.tile t).mule.pc)
  ∧ ∀ (s : State) (t : Nat), t < s.tileCount → (s.tile t).mule.inHandler = true →
    exec (.handlerDispatch t) s = .next s)
  ∧ (∀ (s : State) (t : Nat) (d a b : BitVec 5), muleAt s t (muleA 0x3D d a b) →
    let target := s.sreg t 31
    ∃ s', exec (.hret t d a b) s = .next s' ∧
      (if (s.tile t).mule.inHandler = false then muleFaulted s s' t faultHret
       else if 0x4000 ≤ target.toNat then muleFaulted s s' t faultAddr
       else if target.toNat % 4 ≠ 0 then muleFaulted s s' t faultMisaligned
       else muleBecame s s' t { (s.tile t).mule with pc := target, inHandler := false, state := .running }))

/-- SEND (R159): the Mule builds the message from s24 to s27 and holds the instruction; to this module the message is in
flight to its receiver; to a rank that is not VALID it is answered at once, and d receives NOROUTE. The answer of a SEND
ends it: d receives the code and the pc advances. -/
def Obligations.MuleSendsMessages : Prop :=
  (∀ (s : State) (t : Nat) (d a b : BitVec 5), muleAt s t (muleA 0x3B d a b) →
    let m := muleMessage (s.tile t).mule
    (s.rankLocal m.rank.toNat = true → ∃ s', exec (.send t d a b) s = .next s'
      ∧ s'.flight = s.flight ++ [⟨m, .mule t, s.cycle t + 3 + s.msgDelta (.mule t) m⟩]
      ∧ muleBecame { s with flight := s'.flight } s' t { (s.tile t).mule with sendDest := some d.toNat })
    ∧ (s.rankLocal m.rank.toNat = false → s.rankModule m.rank.toNat = none →
      ∃ s', exec (.send t d a b) s = .next s' ∧ (s'.tile t).mule.pc = (s.tile t).mule.pc + 4
        ∧ (s'.tile t).mule.sendDest = none ∧ s'.sreg t d = (if d = 0 then 0 else BitVec.ofNat 32 stNoRoute)
        ∧ (∀ r, r ≠ d → s'.sreg t r = s.sreg t r) ∧ sameMemory s s' ∧ sameTilesBut s s' [t]))
  ∧ ∀ (s : State) (t : Nat) (d : BitVec 5) (code due : Nat) (rest : List MsgAnswer),
    (s.tile t).mule.sendDest = some d.toNat → s.answers = ⟨.mule t, code, due⟩ :: rest →
    ∃ s', exec .messageAnswer s = .next s' ∧ s'.answers = rest ∧ (s'.tile t).mule.sendDest = none
      ∧ (s'.tile t).mule.pc = (s.tile t).mule.pc + 4
      ∧ s'.sreg t d = (if d = 0 then 0 else BitVec.ofNat 32 code) ∧ (∀ r, r ≠ d → s'.sreg t r = s.sreg t r)
      ∧ sameTilesBut s s' [t] ∧ sameMemory s s'

/-- MUL_CTRL (R168): START from HALTED or FAULT sets the pc from MUL_BOOT and runs; RESUME from HALTED or FAULT runs from
the pc; STOP halts a running Mule at the next instruction boundary, after a SEND that waits for its answer. A Mule that is
not HALTED or FAULT ignores START and RESUME, and a stopped one STOP. Faults of the fetch (R151, R164): a Mule whose pc is
beyond instruction memory, or whose word is uncorrectable, faults whatever instruction is commanded, and ILLEGAL on a word
with an absent opcode or reserved bits faults with ILLEGAL. A command whose word is not the one at the pc changes nothing
(the model's reading of a command, log 40). -/
def Obligations.MuleControlAndFaults : Prop :=
  (∀ (s : State) (t : Nat), t < s.tileCount → (s.tile t).inReset = false →
    let m := (s.tile t).mule
    let stopped := m.state = .halted ∨ m.state = .fault
    ((s.tile t).gated = false → stopped →
      (∃ s', exec (.mulStart t) s = .next s' ∧ muleBecame s s' t { m with
          pc := BitVec.ofNat 32 (fld (s.reg (MUL_BOOT t)) 0 12 * 4), state := .running, fcode := 0
          haltedByHalt := false, inHandler := false, stopAsked := false })
      ∧ ∃ s', exec (.mulResume t) s = .next s' ∧ muleBecame s s' t { m with
          state := if m.inHandler then .handler else .running, fcode := 0, haltedByHalt := false, stopAsked := false })
    ∧ (¬ stopped → exec (.mulStart t) s = .next s ∧ exec (.mulResume t) s = .next s)
    ∧ (¬ stopped → m.sendDest = none →
        ∃ s', exec (.mulStop t) s = .next s'
          ∧ muleBecame s s' t { m with state := .halted, haltedByHalt := false, waitSem := none })
    ∧ (¬ stopped → m.sendDest ≠ none →
        ∃ s', exec (.mulStop t) s = .next s' ∧ muleBecame s s' t { m with stopAsked := true })
    ∧ (stopped → ∃ s', exec (.mulStop t) s = .next s' ∧ muleBecame s s' t m))
  ∧ (∀ (i : Instr) (s : State) (t : Nat) (w : BitVec 32), (muleWord i = some (t, w) ∨ i = .illegal false t) →
    t < s.tileCount → muleReady (s.tile t).mule = true →
    let pc := (s.tile t).mule.pc.toNat
    (0x4000 ≤ pc → ∃ s', exec i s = .next s' ∧ muleFaulted s s' t faultAddr)
    ∧ (pc < 0x4000 → mapFind (s.tile t).mule.imemErr (pc / 4) = some .double →
        ∃ s', exec i s = .next s' ∧ muleFaulted s s' t faultImemEcc)
    ∧ (∀ w', muleAt s t w' → muleWord i = some (t, w) → w ≠ w' → exec i s = .next s)
    ∧ (∀ w', muleAt s t w' → i = .illegal false t → muleIllegal w' = true →
        ∃ s', exec i s = .next s' ∧ muleFaulted s s' t faultIllegal))

/-! ### The control slot and the bundle -/

/-- The control slot (R178): KSET sets k to IMM16 and clears j; JMP goes to TARGET; JQ goes to TARGET where q is set and
to the next bundle otherwise; QCMP sets q from an unsigned comparison of k with IMM16; END ends the program. Only the
control state of the tile changes, where no promise of R180 is broken. Repeat blocks (R179, R180): REP at address a with n
= 0 or LEN = 0 leaves k at 0 and goes to a + LEN + 1, otherwise it opens the block of a + 1 to a + LEN and goes to a + 1;
it clears j. At the end of an iteration k is one less and j one more, and the block starts over at its first bundle, or
closes after its last iteration; then an enclosing block that ends on the same bundle counts an iteration. What breaks the
promises of the control slot (R180): a KSET or REP on a counter whose block is active, a taken jump out of the innermost
body, a JMP, JQ or REP in the last bundle of an active body, a body that crosses address 2,047. The tile's results are
undefined from there on in the frame (R8); the hazard detector counts the report where FRM_MODE.HAZARD is set, raises
HAZARD with kind FLOW at the first report of the tile in the frame, and reports nothing otherwise (R196, R197). -/
def Obligations.ControlSlot : Prop :=
  (∀ (s : State) (t : Nat), issuing s t →
    let c := (s.tile t).ctl
    (∀ (k : BitVec 2) (imm : BitVec 16), ctlActive c k.toNat = false →
      ∃ s', exec (.kset t k imm) s = .next s' ∧ onlyCtl s s' t ∧ counterSet s s' t k.toNat imm 0)
    ∧ (∀ target : BitVec 11, ctlAtBodyEnd c = false → ctlJumpBreaks c target.toNat = false →
      ∃ s', exec (.jmp t target) s = .next s' ∧ onlyCtl s s' t ∧ (s'.tile t).ctl = { c with pc := target })
    ∧ (∀ (q : BitVec 2) (target : BitVec 11), ctlAtBodyEnd c = false →
      (ctlQ c q.toNat = true → ctlJumpBreaks c target.toNat = false) →
      ∃ s', exec (.jq t q target) s = .next s' ∧ onlyCtl s s' t
        ∧ (s'.tile t).ctl = { c with pc := if ctlQ c q.toNat then target else c.pc + 1 })
    ∧ (∀ (q k rel : BitVec 2) (imm : BitVec 16),
      let v := (ctlK c k.toNat).toNat
      ∃ s', exec (.qcmp t q k rel imm) s = .next s' ∧ onlyCtl s s' t
        ∧ { (s'.tile t).ctl with q := c.q } = c ∧ (∀ x, x ≠ q.toNat → ctlQ (s'.tile t).ctl x = ctlQ c x)
        ∧ (ctlQ (s'.tile t).ctl q.toNat = true ↔
            (rel = 0 ∧ v = imm.toNat) ∨ (rel = 1 ∧ v ≠ imm.toNat) ∨ (rel = 2 ∧ v < imm.toNat)
              ∨ (rel = 3 ∧ imm.toNat ≤ v)))
    ∧ ∃ s', exec (.endOp t) s = .next s' ∧ onlyCtl s s' t
        ∧ (s'.tile t).ctl = { c with ended := true, reps := [] })
  ∧ (∀ (s : State) (t : Nat), issuing s t →
    let c := (s.tile t).ctl
    let a := c.pc.toNat
    (∀ (k : BitVec 2) (len : BitVec 10), ctlActive c k.toNat = false → ctlAtBodyEnd c = false →
      let n := ctlK c k.toNat
      (n = 0 ∨ len = 0 → ∃ s', exec (.rep t k len) s = .next s' ∧ onlyCtl s s' t
        ∧ (s'.tile t).ctl.pc = BitVec.ofNat 11 (a + len.toNat + 1) ∧ (s'.tile t).ctl.reps = c.reps
        ∧ counterMoved s s' t k.toNat 0 0)
      ∧ (n ≠ 0 → len ≠ 0 → a + len.toNat ≤ 2047 → ∃ s', exec (.rep t k len) s = .next s' ∧ onlyCtl s s' t
        ∧ (s'.tile t).ctl.pc = BitVec.ofNat 11 (a + 1)
        ∧ (s'.tile t).ctl.reps = ⟨k.toNat, a + 1, a + len.toNat⟩ :: c.reps
        ∧ counterMoved s s' t k.toNat n 0))
    ∧ (∀ (b : RepBlock) (rest : List RepBlock), c.reps = b :: rest → b.last = a →
      let n := ctlK c b.counter
      let j := ctlJ c b.counter
      ∃ s', exec (.repIterationEnd t) s = .next s' ∧ onlyCtl s s' t
        ∧ (n ≠ 1 → (s'.tile t).ctl.pc = BitVec.ofNat 11 b.first ∧ (s'.tile t).ctl.reps = c.reps
            ∧ counterMoved s s' t b.counter (n - 1) (j + 1))
        ∧ (n = 1 → (∀ e r, rest = e :: r → e.last ≠ a) →
            (s'.tile t).ctl.pc = BitVec.ofNat 11 (a + 1) ∧ (s'.tile t).ctl.reps = rest
            ∧ counterMoved s s' t b.counter 0 (j + 1))
        ∧ (∀ e r, n = 1 → rest = e :: r → e.last = a → e.counter ≠ b.counter → ctlK c e.counter ≠ 1 →
            (s'.tile t).ctl.pc = BitVec.ofNat 11 e.first ∧ (s'.tile t).ctl.reps = rest
            ∧ ctlK (s'.tile t).ctl e.counter = ctlK c e.counter - 1
            ∧ ctlJ (s'.tile t).ctl e.counter = ctlJ c e.counter + 1
            ∧ ctlK (s'.tile t).ctl b.counter = 0 ∧ ctlJ (s'.tile t).ctl b.counter = j + 1))
    ∧ ((∀ b r, c.reps = b :: r → b.last ≠ a) →
      ∃ s', exec (.repIterationEnd t) s = .next s' ∧ onlyCtl s s' t ∧ (s'.tile t).ctl = c))
  ∧ (∀ (i : Instr) (s : State) (t : Nat), issuing s t → flowViolation (s.tile t).ctl t i →
    ∃ s', exec i s = .next s' ∧ (s'.tile t).broken = true ∧ sameTilesBut s s' [t] ∧ sameMemory s s'
      ∧ (bit (s.reg FRM_MODE) 2 = false → ∀ o, s'.reg o = s.reg o)
      ∧ (bit (s.reg FRM_MODE) 2 = true →
          (s'.tile t).hazardSeen = true ∧ min ((s.reg DBG_HZ_COUNT).toNat + 1) (2 ^ 32 - 1) ≤ (s'.reg DBG_HZ_COUNT).toNat
          ∧ ((s.tile t).hazardSeen = false → s.frame.draining = false →
              ⟨.hazard, s.tileRegion t, t, s.cycle t, hazardCode .flow⟩ ∈ s'.events
              ∧ (bit (s.reg DBG_HZ_STATUS) 0 = false →
                  s'.reg DBG_HZ_STATUS = BitVec.ofNat 32 (1 + 7 * 16) ∧ s'.reg DBG_HZ_TILE = BitVec.ofNat 32 t
                  ∧ s'.reg DBG_HZ_CYCLE = BitVec.ofNat 32 (s.cycle t)))))

/-- Bundle issue (R170, R175, R191): a tile in the used-tile mask issues exactly one bundle in a cycle, and its cycle
number is one more after it; a malformed bundle and one that cannot be corrected act as an empty bundle, the pc advances
by 1, and TIL_EVENT tells which it was; after the last cycle the pc stays. Shown where no unit of the tile is busy and no
iteration ends. PRED (R176): a slot whose predicate is false acts as a NOP. A bundle whose matrix, vector, stream and
message slots are all predicated on comparators that are clear, with an empty Mule-interface slot and control slot, leaves
on a quiet tile what an empty bundle leaves. The control state at cycle 0 of a frame (R171): on every tile pc is
FRM_PROG_ENTRY of the armed slot, the loop counters and their iteration indices are 0, the comparators are clear, and no
repeat block is active. -/
def Obligations.BundlesIssue : Prop :=
  (∀ (s : State) (t : Nat), issuing s t → quietTile s t →
    let c := (s.tile t).ctl
    let word := mapGet 0 (s.tile t).imem c.pc.toNat
    let err := mapFind (s.tile t).imemErr c.pc.toNat
    ∃ s', exec (.bundleIssue t) s = .next s'
      ∧ ((∀ b r, c.reps = b :: r → b.last ≠ c.pc.toNat) →
          c.ended = true ∨ word = 0 ∨ bundleMalformed word = true ∨ err = some .double →
          (s'.tile t).ctl = { c with
            cycle := c.cycle + 1
            pc := if c.ended ∨ s.armedC ≤ c.cycle + 1 then c.pc else c.pc + 1 }
          ∧ sameTilesBut s s' [t] ∧ sameMemory s s' ∧ (s'.tile t).passes = [] ∧ (s'.tile t).vec = (s.tile t).vec)
      ∧ (c.ended = false → err = some .double → bit (s'.reg (TIL_EVENT t)) 1 = true)
      ∧ (c.ended = false → err = none → bundleMalformed word = true → bit (s'.reg (TIL_EVENT t)) 0 = true))
  ∧ (∀ (s : State) (t : Nat), issuing s t → quietTile s t →
    let c := (s.tile t).ctl
    let b := mapGet 0 (s.tile t).imem c.pc.toNat
    c.ended = false → mapFind (s.tile t).imemErr c.pc.toNat = none → bundleMalformed b = false →
    bndCop b = 0 → bndMif b = 0 → (∀ r rest, c.reps = r :: rest → r.last ≠ c.pc.toNat) →
    (∀ p, p = bnd b 8 3 ∨ p = bnd b 23 3 ∨ p = bnd b 115 3 ∨ p = bnd b 147 3 → 4 ≤ p ∧ ctlQ c (p - 4) = false) →
    ∃ s', exec (.bundleIssue t) s = .next s' ∧ sameMemory s s' ∧ sameTilesBut s s' [t] ∧ (∀ o, s'.reg o = s.reg o)
      ∧ s'.events = s.events ∧ s'.flight = s.flight
      ∧ { s'.tile t with ctl := c, portUse := (s.tile t).portUse } = s.tile t
      ∧ (s'.tile t).ctl = { c with cycle := c.cycle + 1, pc := if s.armedC ≤ c.cycle + 1 then c.pc else c.pc + 1 })
  ∧ (∀ (s : State) (p : Nat), s.frame.armed = some p → s.power.mainGood = true → s.frame.acquired = true →
    s.frame.released = false → s.frame.stopped = false →
    ∃ s', exec .releaseCycle0 s = .next s' ∧ s'.frame = { s.frame with released := true } ∧ s'.regs = s.regs
      ∧ sameMemory s s' ∧ ∀ t, t < s.tileCount →
        let c := (s'.tile t).ctl
        c.pc.toNat = fld (s.reg (FRM_PROG_ENTRY p)) 0 11 ∧ (∀ k, ctlK c k = 0 ∧ ctlJ c k = 0 ∧ ctlQ c k = false)
          ∧ c.reps = [] ∧ c.ended = false ∧ c.cycle = 0 ∧ (s'.tile t).broken = false ∧ (s'.tile t).passes = []
          ∧ (s'.tile t).imem = (s.tile t).imem)

/-! ### Exact accumulation and the matrix unit -/

/-- Exact addition (R76): from a cleared accumulator at most 65,535 terms, each within the window top, add up exactly in
every order, and TERMS counts them; an addition that would raise TERMS above 65,535 adds nothing and gives cause COUNT.
Wide words (R78, R77): the fields lie where the table of R78 puts them, and reading back a written wide word gives it; a
drain leaves an |A| of at most 2^79 − 1 as it is, and saturates a greater one with cause WINDOW_HIGH. -/
def Obligations.AccumulatorsAndWideWords : Prop :=
  ((∀ (w : BitVec 10) (ts us : List (Int × Cause)), (∀ e ∈ ts, e.1.natAbs ≤ 2 ^ 79 - 1) → ts.length ≤ 65535 →
    ts.Perm us →
    let sum := us.foldl (fun (x : Wide) e => (accAddTerm x e.1 e.2).1) (wideClear w)
    sum.a.toInt = (ts.map Prod.fst).sum ∧ sum.terms.toNat = ts.length)
  ∧ ∀ (x : Wide) (p : Int) (c : Cause), x.terms = 65535 →
    (accAddTerm x p c).1 = { x with cause := causeJoin x.cause .count })
  ∧ ((∀ x : Wide, wideOfBits (wideBits x) = x ∧ (wideBits x).extractLsb' 0 96 = x.a
    ∧ (wideBits x).extractLsb' 96 10 = x.w ∧ (wideBits x).extractLsb' 106 3 = BitVec.ofNat 3 (causeCode x.cause)
    ∧ (wideBits x).extractLsb' 109 16 = x.terms ∧ (wideBits x).extractLsb' 125 3 = 0)
  ∧ ∀ x : Wide,
    (x.a.toInt.natAbs ≤ 2 ^ 79 - 1 → (drainCheck x).1 = x)
    ∧ (2 ^ 79 - 1 < x.a.toInt.natAbs →
        (drainCheck x).1.a.toInt = (if x.a.toInt < 0 then -(2 ^ 79 - 1) else 2 ^ 79 - 1)
        ∧ (drainCheck x).1.cause = causeJoin x.cause .windowHigh
        ∧ (drainCheck x).1.w = x.w ∧ (drainCheck x).1.terms = x.terms))

/-- PASS (R109, R181): the descriptor (DESC + j) mod 64 starts in the cycle of the command, with its four words as
committed; no step has issued, nothing waits, and the passes in flight go on. A start while the unit is busy breaks a
promise (R112). Only the tile, its registers, events and marks change. PASS_STEP (R104, R112): the next step of a pass
whose issue cycle has come issues: its products, formed from the weight rows of the step, wait for their update, 36 cycles
after the issue. A pass with WSRC = 1 takes the rows that have reached the tile on the row stream (R247). -/
def Obligations.MatrixPasses : Prop :=
  (∀ (s : State) (t : Nat) (desc : BitVec 6) (ind : BitVec 3), issuing s t → (ind = 0 ∨ 4 ≤ ind.toNat) →
    let d := if ind = 0 then desc.toNat else (desc.toNat + (ctlJ (s.tile t).ctl (ind.toNat - 4)).toNat) % 64
    ∃ s' p, exec (.pass t desc ind) s = .next s' ∧ (s'.tile t).passes = (s.tile t).passes ++ [p]
      ∧ p.desc = d ∧ p.words = (List.range 4).map (fun w => s.reg (MXA_DESC t d w)) ∧ p.issue0 = s.cycle t
      ∧ p.nextStep = 0 ∧ p.waiting = [] ∧ p.updated = 0 ∧ p.copied = false ∧ p.drained = false
      ∧ (s'.tile t).unitDesc = d ∧ (s'.tile t).ctl = (s.tile t).ctl ∧ (s'.tile t).mule = (s.tile t).mule
      ∧ ((∃ q ∈ (s.tile t).passes, s.cycle t < passIssue q (passSteps q - 1) + stepSpacing (passCls q)) →
          (s'.tile t).broken = true)
      ∧ sameTilesBut s s' [t] ∧ sameMemory s s')
  ∧ (∀ (s : State) (t i : Nat) (p : Pass), t < s.tileCount → s.tileRuns t = true →
    findPass s t (fun p => decide (p.nextStep < passSteps p) && s.dueNow t (passIssue p p.nextStep)) = some (i, p) →
    ∃ s' p' st, exec (.passStep t) s = .next s' ∧ (s'.tile t).passes = (s.tile t).passes.set i p'
      ∧ p' = { p with nextStep := p.nextStep + 1, waiting := p.waiting ++ [st] }
      ∧ st.step = p.nextStep ∧ st.issue = passIssue p p.nextStep ∧ (∃ rw, st = stepProducts p p.nextStep rw)
      ∧ (∀ rw, passK p ≠ 0 → passWsrc p = true →
          (s.tile t).rowIn.find? (fun r => r.due == passIssue p p.nextStep) = some rw →
          st = stepProducts p p.nextStep rw ∧ (s'.tile t).rowIn = (s.tile t).rowIn.erase rw)
      ∧ sameMemory s s' ∧ (s'.tile t).ctl = (s.tile t).ctl ∧ (s'.tile t).mule = (s.tile t).mule)

/-- ACCUMULATE (R76, R83, R112, R113): the sums of the oldest waiting step are added: in an exact pass each column adds
its terms to A and counts them, and C grows by their sum; in a BF16 pass each product is added to its partial. CLEAR adds
the first step's sums to zero. After its last step the pass copies its accumulators. (On a tile that keeps its promises,
with no lag above 4.) DRAIN (R77, R78, R120): a pass whose drain cycle has come writes its columns once. With DEST = 0 the
finished-tile queue receives one entry of 128 columns where it has room; with DEST = 1 and WIDE each column's wide word,
checked, is written little-endian at the output address of its array, and no other byte changes. -/
def Obligations.AccumulateAndDrain : Prop :=
  (∀ (s : State) (t i : Nat) (p : Pass) (st : StepSums) (rest : List StepSums),
    t < s.tileCount → s.tileRuns t = true → p.waiting = st :: rest →
    findPass s t (fun p => match p.waiting with
      | st :: _ => s.dueNow t (st.issue + 36)
      | [] => false) = some (i, p) →
    ∃ s' p', exec (.accumulate t) s = .next s' ∧ (s'.tile t).passes = (s.tile t).passes.set i p'
      ∧ p'.updated = p.updated + 1 ∧ p'.waiting = rest
      ∧ (p.updated + 1 = passSteps p → p'.copied = true) ∧ sameMemory s s' ∧ sameTilesBut s s' [t]
      ∧ ∀ a, a ∈ passArrays p → (s.tile t).broken = false → passK p ≠ 0 → mapGet 0 st.late a ≤ 4 →
          (p.updated ≠ 0 ∨ passClear p = true) → (s'.tile t).broken = false →
        let start := fun j => if p.updated = 0 then wideClear (passWin p) else accOf (s.array t a) j
        let part := fun k => if p.updated = 0 then 0 else mapGet 0 (s.array t a).partials k
        (passCls p ≠ .bf16 → ∀ j, j < 32 →
          let r := foldTerms (start j) ((mapFind st.terms (32 * a + j)).getD [])
          (accOf (s'.array t a) j).a = r.1.a ∧ (accOf (s'.array t a) j).terms = r.1.terms
            ∧ (accOf (s'.array t a) j).cause = causeJoin r.1.cause (mapGet Cause.none st.carried (32 * a + j)))
        ∧ (passCls p = .bf16 → ∀ j r, j < 32 →
          let ps := (mapFind st.prods (32 * a + j)).getD []
          ((∀ x, ((mapFind st.prods (32 * a + x)).getD []).length ≤ 32) → r < ps.length → mapGet 0 (s'.array t a).partials (32 * j + r)
            = fp32Add .rne (part (32 * j + r)) (ps.getD r 0))))
  ∧ (∀ (s : State) (t i : Nat) (p : Pass), t < s.tileCount → s.tileRuns t = true →
    findPass s t (fun p => drainReady p && s.dueNow t (drainDue s t p)) = some (i, p) →
    ∃ s' p', exec (.drain t) s = .next s' ∧ (s'.tile t).passes = (s.tile t).passes.set i p' ∧ p'.drained = true
      ∧ sameTilesBut s s' [t]
      ∧ (passDest p = false → sameMemory s s'
          ∧ ((s.tile t).vec.queue.length < 4 → ∃ e, (s'.tile t).vec.queue = (s.tile t).vec.queue ++ [e]
              ∧ (match e with
                | .narrow es => passDrain p = 1 ∧ es.length = 128
                | .wide ws => passDrain p = 2 ∧ ws.length = 128)))
      ∧ ∀ a, passDest p = true → passDrain p = 2 → passCls p ≠ .bf16 → passArrays p = [a] → (s.tile t).broken = false →
          (s.tile t).portUse = [] →
        let n := min (passN p) 32
        let off := passAddrO p a
        let word := fun j => wideBits (drainCheck ((mapFind p.snap (32 * a + j)).getD accReset)).1
        (∀ k, k < 16 * n → memGet s'.spad (spadOff t (off + k)) = (word (k / 16)).extractLsb' (8 * (k % 16)) 8)
          ∧ ∀ x, (∀ k, k < 16 * n → x ≠ spadOff t (off + k)) → memGet s'.spad x = memGet s.spad x)

/-- CHECKSUM_COMPARE (R86, R118): the copied C is compared with the exact sum of the 32 accumulators of each array. Where
they agree, or a cause other than CHECK stands already, nothing but the pass's progress changes; where they differ (or the
array's elastic link has overflowed, R116) every accumulator of the array takes cause CHECK, and MXA_CHK_FAILS and
MXA_EVENT record it. BF16_COMBINE (R83, R119): at V the 32 partials of each column of each array are combined left to
right in FP32 under RNE, and the combined values go to the drain; the partials keep their own values. The event UNCOVERED
marks a pass that no checksum covers (R84). -/
def Obligations.ChecksumsAndPartials : Prop :=
  (∀ (s : State) (t i : Nat) (p : Pass), t < s.tileCount → s.tileRuns t = true →
    findPass s t (fun p => p.copied && !p.compared && passCls p != .bf16 && passK p != 0
      && s.dueNow t (passLastU p + 1)) = some (i, p) →
    let ws := fun a => (List.range 32).map fun j => (mapFind p.snap (32 * a + j)).getD accReset
    let marked := fun a => ∃ w ∈ ws a, w.cause ≠ .none ∧ w.cause ≠ .check
    let agrees := fun a => (mapFind p.snapChk a).getD 0 = BitVec.ofInt 104 (((ws a).map fun w => w.a.toInt).sum)
    ∃ s', exec (.checksumCompare t) s = .next s' ∧ sameMemory s s' ∧ sameTilesBut s s' [t]
      ∧ ((∀ a ∈ passArrays p, a ∉ p.overflow ∧ (marked a ∨ agrees a)) →
          s'.regs = s.regs ∧ s'.events = s.events ∧ (s'.tile t).passes = (s.tile t).passes.set i { p with compared := true }
          ∧ ∀ a, s'.array t a = s.array t a)
      ∧ ∀ a ∈ passArrays p, a ∈ p.overflow ∨ (¬ marked a ∧ ¬ agrees a) →
          (∀ j, j < 32 → (accOf (s'.array t a) j).cause = causeJoin (accOf (s.array t a) j).cause .check
            ∧ (accOf (s'.array t a) j).a = (accOf (s.array t a) j).a)
          ∧ (s'.reg (MXA_CHK_FAILS t a)).toNat = min ((s.reg (MXA_CHK_FAILS t a)).toNat + 1) (2 ^ 32 - 1)
          ∧ bit (s'.reg (MXA_EVENT t a)) 1 = true)
  ∧ (∀ (s : State) (t i : Nat) (p : Pass), t < s.tileCount → s.tileRuns t = true → s.frame.draining = false →
    findPass s t (fun p => p.copied && !p.combined && passCls p == .bf16 && s.dueNow t (passV p)) = some (i, p) →
    ∃ s' p', exec (.bf16Combine t) s = .next s' ∧ (s'.tile t).passes = (s.tile t).passes.set i p' ∧ p'.combined = true
      ∧ (passArrays p ≠ [] →
          s'.events = s.events ++ [⟨.uncovered, s.tileRegion t, t, s.cycle t, 0⟩])
      ∧ (∀ a, a ∈ passArrays p → ∀ j, j < 32 →
          let combined := bf16Combine ((List.range 32).map fun r => mapGet 0 p.snapBfParts (1024 * a + 32 * j + r))
          mapGet 0 p'.snapBf (32 * a + j) = (if p.overflow.contains a then 0x7FC00000 else combined)
          ∧ (s'.array t a).partials = (s.array t a).partials)
      ∧ sameMemory s s' ∧ sameTilesBut s s' [t])

/-! ### The vector engine -/

/-- Issue (R131, R175): a vector instruction in the command's cycle issues its first row in it; one of one row has issued
then, a longer one goes on with its second row in the next cycle; a row count of 0 changes nothing; reserved field values
act as a malformed bundle; an issue while rows of another instruction are left breaks a promise. -/
def Obligations.VectorInstructionsIssue : Prop :=
  ∀ (i : Instr) (s : State) (t vop : Nat) (v : VecSlot), vecOp i = some (t, vop, v) → issuing s t →
    ∃ s', exec i s = .next s' ∧
      (vecMalformed vop v = true → bit (s'.reg (TIL_EVENT t)) 0 = true ∧ s'.tile t = s.tile t ∧ sameMemory s s')
      ∧ (vecMalformed vop v = false → v.count = 0 → (s.vec t).run = none → onlyVec s s' t ∧ s'.vec t = s.vec t)
      ∧ (vecMalformed vop v = false → v.count = 1 → (s'.vec t).run = none)
      ∧ (vecMalformed vop v = false → 1 < v.count.toNat → ∃ r, (s'.vec t).run = some r
          ∧ r.vop = vop ∧ r.slot = v ∧ r.issue = s.cycle t ∧ r.row = 1)
      ∧ (vecMalformed vop v = false → (s.vec t).run.isSome = true → (s'.tile t).broken = true)
      ∧ sameTilesBut s s' [t]

/-- Elementwise instructions (R134, R136, R131): each value of the first row is the operation of the values at its
position, poisoned where a value it reads is poisoned (R125), and is written to row ROW of VD after the latency of the
family: 4 cycles for VADD to VMOV, 2 for VIADD to VIOTA. The operands are the registers as they stand (R132). Nothing else
changes. VCVT (R135, R90, R91): between FP32 and INT32 value c becomes value c; to BF16 it becomes BF16 value 2c, and
value 2c + 1 is +0; from BF16, value 2c becomes value c. Each conversion rounds once under RND; a poisoned value converts
to the pattern of R82. -/
def Obligations.ElementwiseAndConversion : Prop :=
  (∀ (i : Instr) (s : State) (t vop : Nat) (v : VecSlot), vecOp i = some (t, vop, v) → vecIssues s t vop v →
    (elementResult i v 0 0 0 0).isSome = true →
    let view := v.view.toNat
    let a := fun p => regValue s t v.va.toNat v.row.toNat view p
    let b := fun p => sourceB s t v p
    let c := fun p => regValue s t v.vc.toNat v.row.toNat view p
    ∃ s' res, exec i s = .next s' ∧ onlyVec s s' t
      ∧ vecSends s s' t v (s.latency t (vecLatency vop 0)) [.treg v.vd.toNat v.row.toNat (rowLanes (viewRow view res))]
      ∧ (vop ≤ 0x0B → s.latency t (vecLatency vop 0) = 4) ∧ (0x10 ≤ vop → vop ≤ 0x1A → s.latency t (vecLatency vop 0) = 2)
      ∧ res.length = (if view = 2 then 128 else 64)
      ∧ ∀ p, p < res.length → ∃ x ra rb rc, elementResult i v p (a p).bits (b p).bits (c p).bits = some (x, ra, rb, rc)
          ∧ (res.getD p elemReset).bits = x
          ∧ (res.getD p elemReset).cause = causeJoin (causeJoin (if ra then (a p).cause else .none)
              (if rb then (b p).cause else .none)) (if rc then (c p).cause else .none))
  ∧ (∀ (s : State) (t : Nat) (v : VecSlot), vecIssues s t 0x20 v → vRnd v ≠ .sr →
    let view := v.view.toNat
    let a := fun p => regValue s t v.va.toNat v.row.toNat view p
    let f := viewFormat (vTview v)
    let conv := fun (e : Elem) => if e.cause = .none then
        BitVec.ofNat 32 (elemBits f (vRnd v) 0 (if view = 1 then intVal 32 e.bits.toNat else viewVal view e.bits))
      else BitVec.ofNat 32 (poisonBits f)
    ∃ s' res, exec (.vcvt t v) s = .next s' ∧ onlyVec s s' t
      ∧ vecSends s s' t v 3 [.treg v.vd.toNat v.row.toNat (rowLanes (viewRow (vTview v) res))]
      ∧ res.length = (if vTview v = 2 then 128 else 64)
      ∧ ∀ p, p < res.length →
        let src := if view = 2 ∧ vTview v ≠ 2 then 2 * p else if view ≠ 2 ∧ vTview v = 2 then p / 2 else p
        (res.getD p elemReset).bits
            = (if view ≠ 2 ∧ vTview v = 2 ∧ p % 2 = 1 then 0 else conv (a src))
          ∧ (res.getD p elemReset).cause = (a src).cause)

/-- The special values of the table of R136: NaN inputs, infinities, zeros, negative arguments of VLOG, VLOG2, VRSQRT and
VSQRT, the logarithms of 1, and VSINPI and VCOSPI at integers and halves. Random instructions (R137, R95, R94): from an
enabled stream that is not BOUND, element c of the first row takes the next draws of the stream, one for VRNGU and VRNGB
and two for VRNGN, and the stream's position advances by as many; VRNGU writes (draw >> 8) × 2^−24, or ((draw >> 8) + 1) ×
2^−24 with OPEN0 = 1; VRNGB writes 1.0 where the draw is below the threshold of p and +0 elsewhere. -/
def Obligations.TranscendentalsAndRandom : Prop :=
  ((∀ (vop : Nat) (x : BitVec 32), 0x21 ≤ vop → vop ≤ 0x2C → fp32Val x = .nan → transFp32 vop x = 0x7FC00000)
  ∧ (transFp32 0x21 0xFF800000 = 0 ∧ transFp32 0x22 0xFF800000 = 0 ∧ transFp32 0x21 0x7F800000 = 0x7F800000
    ∧ transFp32 0x22 0x7F800000 = 0x7F800000)
  ∧ (∀ x : BitVec 32, x = 0 ∨ x = 0x80000000 →
      transFp32 0x21 x = 0x3F800000 ∧ transFp32 0x22 x = 0x3F800000 ∧ transFp32 0x23 x = 0xFF800000
      ∧ transFp32 0x24 x = 0xFF800000 ∧ transFp32 0x25 x = (x ||| 0x7F800000) ∧ transFp32 0x26 x = (x ||| 0x7F800000)
      ∧ transFp32 0x27 x = x ∧ transFp32 0x28 x = x ∧ transFp32 0x2A x = x ∧ transFp32 0x2B x = x)
  ∧ (∀ (x : BitVec 32) (m : Nat) (e : Int), fp32Val x = .fin true m e → m ≠ 0 →
      transFp32 0x23 x = 0x7FC00000 ∧ transFp32 0x24 x = 0x7FC00000 ∧ transFp32 0x26 x = 0x7FC00000
      ∧ transFp32 0x27 x = 0x7FC00000)
  ∧ (transFp32 0x23 0x7F800000 = 0x7F800000 ∧ transFp32 0x24 0x7F800000 = 0x7F800000 ∧ transFp32 0x23 0x3F800000 = 0
    ∧ transFp32 0x24 0x3F800000 = 0 ∧ transFp32 0x25 0x7F800000 = 0 ∧ transFp32 0x25 0xFF800000 = 0x80000000
    ∧ transFp32 0x26 0x7F800000 = 0 ∧ transFp32 0x28 0x7F800000 = 0x3F800000 ∧ transFp32 0x28 0xFF800000 = 0xBF800000
    ∧ transFp32 0x29 0xFF800000 = 0 ∧ transFp32 0x29 0x7F800000 = 0x3F800000 ∧ transFp32 0x2A 0x7F800000 = 0x3F800000
    ∧ transFp32 0x2A 0xFF800000 = 0xBF800000 ∧ transFp32 0x2B 0x7F800000 = 0x7FC00000
    ∧ transFp32 0x2B 0xFF800000 = 0x7FC00000 ∧ transFp32 0x2C 0x7F800000 = 0x7FC00000
    ∧ transFp32 0x2C 0xFF800000 = 0x7FC00000)
  ∧ ∀ (x : BitVec 32) (n : Bool) (m : Nat) (e : Int), fp32Val x = .fin n m e →
      (0 ≤ e ∨ 2 ^ (-e).toNat ∣ m → transFp32 0x2B x = if n then 0x80000000 else 0)
      ∧ (0 ≤ e + 1 ∨ 2 ^ (-(e + 1)).toNat ∣ m → ¬ (0 ≤ e ∨ 2 ^ (-e).toNat ∣ m) → transFp32 0x2C x = 0))
  ∧ (∀ (i : Instr) (s : State) (t vop : Nat) (v : VecSlot), vecOp i = some (t, vop, v) → 0x30 ≤ vop → vop ≤ 0x32 →
    vecIssues s t vop v →
    let k := v.rstr.toNat
    bit (s.reg (VEC_RNG_CFG t k)) 31 = true → s.rngBind t k ≠ 1 →
    let per := if vop = 0x32 then 2 else 1
    let draw := fun n => rngDraw (s.rngKey t k) (s.reg (VEC_RNG_ID t k)) ((s.rngOf t k).cur + BitVec.ofNat 64 n)
    ∃ s' res, exec i s = .next s' ∧ onlyTiles s s' ∧ sameTilesBut s s' [t]
      ∧ vecSends s s' t v (s.latency t (vecLatency vop 0)) [.treg v.vd.toNat v.row.toNat (rowLanes res)]
      ∧ (s'.rngOf t k).cur = (s.rngOf t k).cur + BitVec.ofNat 64 (64 * per) ∧ res.length = 64
      ∧ ∀ c, c < 64 →
        let e := res.getD c elemReset
        (vop = 0x30 → e.cause = .none
          ∧ e.bits = fp32Bits .rne (.fin false ((draw c).toNat / 256 + vmode v 52 1) (-24)))
        ∧ (vop = 0x31 → let p := cacheValue s t v.orow.toNat 0 c
            e.cause = p.cause ∧ e.bits = if (draw c).toNat < rngThreshold (fp32Val p.bits) then 0x3F800000 else 0)
        ∧ (vop = 0x32 → e.cause = .none ∧ e.bits = rngNormal (draw (2 * c)).toNat (draw (2 * c + 1)).toNat))

/-- The pairwise tree (R138): the reduction of 2^(k + 1) values is the operator of the reductions of its halves, that of
one value is the value, and a shorter sequence is padded with the identity. VRED, VSCAN and VSEGRED (R138, R141, R142):
VRED along ROW writes the tree of the first row to column DCOL of its row of VD, along COL over one row that row to DROW;
a VSCAN of INT32 sums along ROW, inclusive and without segments, writes at column c the sum of columns 0 to c modulo 2^32;
VSEGRED over one row writes at column n of DROW the tree of the elements of segment n. -/
def Obligations.ReductionsScansAndTree : Prop :=
  ((∀ (op : BitVec 32 → BitVec 32 → BitVec 32) (pad : BitVec 32) (k : Nat) (xs ys : List (BitVec 32)),
    xs.length = 2 ^ k → ys.length = 2 ^ k →
    reduceTree op pad (xs ++ ys) = op (reduceTree op pad xs) (reduceTree op pad ys))
  ∧ (∀ (op : BitVec 32 → BitVec 32 → BitVec 32) (pad x : BitVec 32), reduceTree op pad [x] = x)
  ∧ ∀ (op : BitVec 32 → BitVec 32 → BitVec 32) (pad : BitVec 32) (k : Nat) (xs : List (BitVec 32)),
    2 ^ k < xs.length → xs.length ≤ 2 ^ (k + 1) →
    reduceTree op pad xs = reduceTree op pad (xs ++ List.replicate (2 ^ (k + 1) - xs.length) pad))
  ∧ ((∀ (s : State) (t : Nat) (v : VecSlot), vecIssues s t 0x38 v →
    let view := v.view.toNat
    let a := (List.range (viewCount view)).map fun c => regValue s t v.va.toNat v.row.toNat view c
    let op := ropElem (vRop v) view
    ∃ s', exec (.vred t v) s = .next s' ∧ onlyVec s s' t
      ∧ (vAxis v = 0 → vecSends s s' t v (s.latency t (vecLatency 0x38 0))
          [.treg v.vd.toNat v.row.toNat
            [valueLane view (vDcol v) (reduceTree op ⟨ropIdentity (vRop v) view, .none⟩ a)]])
      ∧ (vAxis v = 1 → v.count = 1 → vecSends s s' t v (s.latency t (vecLatency 0x38 1))
          [.treg v.vd.toNat (vDrow v) (rowLanes (viewRow view a))]))
  ∧ (∀ (s : State) (t : Nat) (v : VecSlot), vecIssues s t 0x39 v → v.view = 1 → vRop v = 0 → vAxis v = 0 → vSeg v = 0 →
    vExcl v = false →
    let a := fun c => regValue s t v.va.toNat v.row.toNat 1 c
    ∃ s' res, exec (.vscan t v) s = .next s' ∧ onlyVec s s' t
      ∧ vecSends s s' t v (s.latency t (vecLatency 0x39 0)) [.treg v.vd.toNat v.row.toNat (rowLanes res)]
      ∧ res.length = 64 ∧ ∀ c, c < 64 →
        (res.getD c elemReset).bits = ((List.range (c + 1)).map fun k => (a k).bits).sum
        ∧ ((res.getD c elemReset).cause = .none ↔ ∀ k, k ≤ c → (a k).cause = .none))
  ∧ ∀ (s : State) (t : Nat) (v : VecSlot), vecIssues s t 0x3A v → v.view ≠ 2 → v.count = 1 →
    let view := v.view.toNat
    let a := (List.range 64).map fun c => regValue s t v.va.toNat v.row.toNat view c
    let lens := (List.range 64).map fun c => cacheValue s t v.orow.toNat 1 c
    let len := fun n => ((lens.getD n elemReset).bits.toInt).toNat
    (∀ c, c < 64 → (lens.getD c elemReset).cause = .none) →
    ∃ s' lanes, exec (.vsegred t v) s = .next s' ∧ onlyVec s s' t
      ∧ vecSends s s' t v (s.latency t (vecLatency 0x3A 2)) [.treg v.vd.toNat (vDrow v) lanes]
      ∧ (∀ n, 0 < len n → n < 64 → ∃ l ∈ lanes, l.idx = n ∧ l.half = none
          ∧ let seg := (a.drop (((List.range n).map len).sum)).take (len n)
            (⟨l.bits, l.cause⟩ : Elem) = reduceTree (ropElem (vRop v) view) ⟨ropIdentity (vRop v) view, .none⟩ seg)
      ∧ ∀ l ∈ lanes, ∃ n, l.idx ≤ n ∧ n < 64 ∧ 0 < len n)

/-- VSORT and VMERGE (R143): the pairs of the first row, or of the two rows, are put in the descending order of R143,
equal pairs in the order of their operand and column, and the first 64 are written. A poisoned key or index poisons its
own pair only. The finished-tile queue and wide areas (R129, R130, R79): VQPOP removes the oldest entry and, where it
holds FP32 values, writes value 64q + c of it to column c of row ROW + q; VWADD from the queue adds value n of a WIDE
entry to word n of the area at OROW, or replaces the area with CLEAR; VWCVT converts the words of the area, without SR, in
the same placement. A pop from an empty queue breaks a promise. -/
def Obligations.SortsQueuesAndAreas : Prop :=
  (∀ (i : Instr) (s : State) (t vop : Nat) (v : VecSlot), vecOp i = some (t, vop, v) → vop = 0x3C ∨ vop = 0x3D →
    vecIssues s t vop v →
    let pairs := fun kr ir row => (List.range 64).map fun c =>
      (⟨regValue s t kr row 0 c, regValue s t ir row 1 c⟩ : SortPair)
    let ps := pairs v.va.toNat v.vb.toNat v.row.toNat
      ++ (if vop = 0x3D then pairs v.vc.toNat (vVe v) (vRow2 v) else [])
    ∃ s', ∃ out : List (Nat × SortPair), exec i s = .next s' ∧ (v.vd.toNat ≠ vVf v → onlyVec s s' t)
      ∧ vecSends s s' t v (s.latency t (vecLatency vop 0))
          [.treg v.vd.toNat v.row.toNat (rowLanes ((out.take 64).map fun p => ⟨p.2.key.bits, pairCause p.2⟩)),
           .treg (vVf v) v.row.toNat (rowLanes ((out.take 64).map fun p => ⟨p.2.index.bits, pairCause p.2⟩))]
      ∧ out.Perm ((List.range ps.length).zip ps)
      ∧ out.Pairwise (fun p q => pairBefore p.2 q.2 = true ∨ (pairBefore q.2 p.2 = false ∧ p.1 < q.1)))
  ∧ ((∀ (s : State) (t : Nat) (v : VecSlot), vecIssues s t 0x40 v →
    ∃ s', exec (.vqpop t v) s = .next s' ∧ sameMemory s s' ∧ sameTilesBut s s' [t]
      ∧ ((s.vec t).queue = [] → (s'.tile t).broken = true)
      ∧ ∀ es rest, (s.vec t).queue = .narrow es :: rest → (s'.vec t).queue = rest
          ∧ vecSends s s' t v 2 [.treg v.vd.toNat v.row.toNat (rowLanes (es.take 64))])
  ∧ (∀ (s : State) (t : Nat) (v : VecSlot) (ws : List Wide) (rest : List QEntry), vecIssues s t 0x41 v →
    vmode v 53 1 = 0 → (s.vec t).queue = .wide ws :: rest → ws.length = 128 →
    ∃ s' out, exec (.vwadd t v) s = .next s' ∧ (s'.vec t).queue = rest
      ∧ vecSends s s' t v 5 [.ocache v.orow.toNat (wideLanes out)] ∧ out.length = 128
      ∧ ∀ n, n < 128 → out.getD n accReset = (if vmode v 52 1 = 1 then ws.getD n accReset
          else (wideAdd (areaWord s t v.orow.toNat n) (ws.getD n accReset)).1))
  ∧ ∀ (s : State) (t : Nat) (v : VecSlot), vecIssues s t 0x42 v → vRnd v ≠ .sr →
    ∃ s' res, exec (.vwcvt t v) s = .next s' ∧ sameMemory s s' ∧ sameTilesBut s s' [t]
      ∧ vecSends s s' t v (s.latency t (vecLatency 0x42 0)) [.treg v.vd.toNat v.row.toNat (rowLanes res)]
      ∧ res.length = 64 ∧ ∀ c, c < 64 →
        let w := areaWord s t v.orow.toNat c
        res.getD c elemReset = ⟨BitVec.ofNat 32 (wideToElem .fp32 (vRnd v) 0 w), (drainCheck w).1.cause⟩)

/-- The memory instructions (R128, R135, R184): VLD of FP32 in the FP32 view and VOCLD bring the 64 little-endian words at
the row's address, VST of FP32 and VOCST send the 64 words of their row there; the address is (SADDR + j × STEP) mod 2^14
lines. Where the words carry no error and no mark, the values carry none. The results are written after 6, 4, 5 and 4
cycles. VEC_RESULT_WRITE (R131, R132): the first result whose cycle has come is written: a register row takes the listed
elements whole and keeps the others; it no longer waits. Where no result is due, nothing changes (log 40). -/
def Obligations.VectorMemoryAndLanding : Prop :=
  (∀ (i : Instr) (s : State) (t vop : Nat) (v : VecSlot), vecOp i = some (t, vop, v) → 0x48 ≤ vop →
    vecIssues s t vop v → v.view = 0 → (vop ≤ 0x49 → vFmt v = 7 ∧ vRnd v ≠ .sr) → (s.tile t).portUse = [] →
    let j := if 4 ≤ vInd v then (ctlJ (s.tile t).ctl (vInd v - 4)).toNat else 0
    let off := 64 * ((vmode v 52 14 : Int) + (j : Int) * signed 8 (vmode v 81 8)).emod 16384 |>.toNat
    let word := fun c => BitVec.ofNat 32 (leNat ((List.range 4).map fun b => memGet s.spad (spadOff t (off + 4 * c + b))))
    let clean := ∀ b, b < 256 → mapGet Cause.none s.spadMark (spadOff t (off + b) / 64) = .none
      ∧ mapFind s.spadErr (spadOff t (off + b) / 8) = none
    let reg := fun c => regValue s t v.va.toNat v.row.toNat 0 c
    ∃ s', exec i s = .next s' ∧ sameMemory s s' ∧ sameTilesBut s s' [t]
      ∧ (vop = 0x4A → clean → ∃ ls, vecSends s s' t v 4 [.ocache v.orow.toNat ls] ∧ ls.length = 64
          ∧ ∀ c, c < 64 → ls.getD c ⟨0, none, 0, .none⟩ = ⟨c, none, word c, .none⟩)
      ∧ (vop = 0x4B → vecSends s s' t v 4 [.spad off
          ((List.range 64).flatMap fun c => leBytes 4 (ocWord (s.vec t) (64 * v.orow.toNat + c)).bits.toNat)
          ((List.range 64).flatMap fun c => List.replicate 4 (ocWord (s.vec t) (64 * v.orow.toNat + c)).cause)])
      ∧ (vop = 0x49 → ∃ bs cs, vecSends s s' t v 5 [.spad off bs cs] ∧ bs.length = 256
          ∧ ∀ c, c < 64 → (reg c).cause = .none → fp32Val (reg c).bits ≠ .nan →
            leNat ((bs.drop (4 * c)).take 4) = (reg c).bits.toNat)
      ∧ (vop = 0x48 → clean → ∃ es, vecSends s s' t v 6 [.treg v.vd.toNat v.row.toNat (rowLanes es)] ∧ es.length = 64
          ∧ ∀ c, c < 64 → fp32Val (word c) ≠ .nan → es.getD c elemReset = ⟨word c, .none⟩))
  ∧ (∀ (s : State) (t : Nat), t < s.tileCount → s.tileRuns t = true →
    ((s.vec t).pending.find? (fun p => s.dueNow t p.due) = none → exec (.vecResultWrite t) s = .next s)
    ∧ ∀ p, (s.vec t).pending.find? (fun p => s.dueNow t p.due) = some p →
      ∃ s', exec (.vecResultWrite t) s = .next s' ∧ (s'.vec t).pending = (s.vec t).pending.erase p
        ∧ sameTilesBut s s' [t] ∧ s'.hbm = s.hbm ∧ s'.ddr = s.ddr
        ∧ (∀ reg row es, p.what = .treg reg row (rowLanes es) → es.length ≤ 64 →
            onlyVec s s' t ∧ ∀ k, mapGet elemReset (s'.vec t).treg k
              = if 2048 * reg + 64 * row ≤ k ∧ k < 2048 * reg + 64 * row + es.length
                then es.getD (k - (2048 * reg + 64 * row)) elemReset else mapGet elemReset (s.vec t).treg k)
        ∧ (∀ off bs cs, p.what = .spad off bs cs → off + bs.length ≤ sliceBytes →
            ∀ x, memGet s'.spad x = if t * sliceBytes + off ≤ x ∧ x < t * sliceBytes + off + bs.length
              then bs.getD (x - (t * sliceBytes + off)) 0 else memGet s.spad x))

/-! ### Stream channels -/

/-- SRUN, SGATHER and SSCATTER (R185, R238, R241, R242): descriptor (DESC + j) mod 32 of the channel starts, with its
words as committed, its first request two cycles later; the cursor base of a LINEAR or INDEXED run is 0 under RESTART and
the cursor otherwise, and the cursor moves on by the count of elements; a run of no element completes at once; an
operation that does not fit the mode of its descriptor raises STREAM with code MODE and moves nothing; a start on a
channel that is still running breaks a promise. SHALT (R185): the run of the channel stops at the next element boundary:
at once where no request of it is on its way or half issued, else it is marked as halted; an idle channel stays as it is.
No completion is signalled. -/
def Obligations.StreamStartsAndHalts : Prop :=
  (∀ (i : Instr) (s : State) (t sop : Nat) (ch : BitVec 2) (desc sem : BitVec 5) (semEn : Bool) (ind : BitVec 3),
    streamOpOf i = some (t, sop, ch, desc, sem, semEn, ind) → issuing s t → (ind = 0 ∨ 4 ≤ ind.toNat) →
    let d := if ind = 0 then desc.toNat else (desc.toNat + (ctlJ (s.tile t).ctl (ind.toNat - 4)).toNat) % 32
    let w := s.strDesc t ch.toNat d
    let fits := (sop = 1 → descMode w ≠ 2) ∧ (sop ≠ 1 → descMode w = 2)
    let c := s.chan t ch.toNat
    ∃ s' r, exec i s = .next s' ∧ sameMemory s s' ∧ sameTilesBut s s' [t] ∧ (s'.chan t ch.toNat).run = some r
      ∧ r.desc = d ∧ r.words = w ∧ r.sop = sop ∧ r.sem = sem.toNat ∧ r.semEn = semEn ∧ r.issue = s.cycle t
      ∧ r.done = 0 ∧ r.next = 0 ∧ r.nextOff = 0 ∧ r.waiting = [] ∧ r.halted = false ∧ r.reqAt = s.cycle t + 2
      ∧ (¬ fits ∨ descCount w = 0 ∨ (descMode w ≠ 1 ∧ descRsize w = 0) → r.ended = some (s.cycle t))
      ∧ (fits → descCount w ≠ 0 → (descMode w = 1 ∨ descRsize w ≠ 0) → r.ended = none)
      ∧ (¬ fits → s'.reg (STR_FAULT t ch.toNat) = 4 ∧ bit (s'.reg (STR_EVENT t)) ch.toNat = true)
      ∧ (descMode w = 1 → (s'.chan t ch.toNat).cur = c.cur)
      ∧ (fits → descMode w ≠ 1 →
          let b := if descRestart w then 0 else c.cur
          (s'.chan t ch.toNat).base = b ∧ (s'.chan t ch.toNat).cur = b + BitVec.ofNat 64 (descCount w))
      ∧ ((∃ q, c.run = some q ∧ q.ended = none) → (s'.tile t).broken = true)
      ∧ (c.run = none → (∀ o, fits → s'.reg o = s.reg o) ∧ ∀ x, x ≠ ch.toNat → s'.chan t x = s.chan t x))
  ∧ (∀ (s : State) (t : Nat) (ch : BitVec 2), issuing s t →
    let c := s.chan t ch.toNat
    (c.run = none → exec (.shalt t ch) s = .next s)
    ∧ ∀ r, c.run = some r →
      ∃ s', exec (.shalt t ch) s = .next s' ∧ onlyTiles s s' ∧ sameTilesBut s s' [t] ∧ (s'.tile t).sigs = (s.tile t).sigs
        ∧ (r.waiting = [] → r.nextOff = 0 → (s'.chan t ch.toNat).run = none)
        ∧ (r.waiting ≠ [] ∨ r.nextOff ≠ 0 → (s'.chan t ch.toNat).run = some { r with halted := true })
        ∧ (s'.chan t ch.toNat).cur = c.cur)

/-- Completion (R187): a run that has completed leaves its channel idle, and where SEMEN is set its semaphore is signalled
by 1 in the cycle after completion; a run that has not completed by now stays as it is. Replies (R241, R242, R243): the
reply to the oldest request of a run on this module writes the bytes read to the slice at LADDR + i × RSIZE, or zeros
where the far access fails, or the index lies outside the table; towards the far side it writes the slice's bytes there.
The first fault of a run raises STREAM and records its code and element. The run advances to its next element, and
completes with its last. Row streams (R247): the rows whose cycle has come reach their tile, and no others. -/
def Obligations.StreamRunsProceed : Prop :=
  (∀ (s : State) (t : Nat) (ch : BitVec 2) (r : StreamRun), t < s.tileCount → (s.chan t ch.toNat).run = some r →
    (∀ e, r.ended = some e → s.dueNow t e = true →
      ∃ s', exec (.streamComplete t ch) s = .next s' ∧ onlyTiles s s' ∧ sameTilesBut s s' [t]
        ∧ (s'.chan t ch.toNat).run = none ∧ (s'.chan t ch.toNat).cur = (s.chan t ch.toNat).cur
        ∧ (s'.tile t).sigs = (s.tile t).sigs
            ++ (if r.semEn ∧ r.halted = false then [⟨r.sem, 1, some (e + 1)⟩] else []))
    ∧ (r.ended = none → exec (.streamComplete t ch) s = .next s))
  ∧ (∀ (s : State) (t : Nat) (ch : BitVec 2) (r : StreamRun) (e : StreamElem) (rest : List StreamElem),
    t < s.tileCount → (s.chan t ch.toNat).run = some r → r.ended = none → r.halted = false → r.waiting = e :: rest →
    e.remote = false → e.answer = none → e.len ≤ 64 → (s.tile t).broken = false → s.tileIssues t = false →
    let loc := descLaddr r.words + e.elem * descRsize r.words + e.off
    let q := s.localRead r.copies e.far e.len
    let w := s.localWrite r.copies e.far e.bytes e.causes
    let wrote := fun (s' : State) (bytes : Nat → BitVec 8) =>
      (∀ k, k < e.len → memGet s'.spad (spadOff t (loc + k)) = bytes k)
        ∧ (∀ x, (∀ k, k < e.len → x ≠ spadOff t (loc + k)) → memGet s'.spad x = memGet s.spad x)
        ∧ s'.hbm = s.hbm ∧ s'.ddr = s.ddr
    ∃ s' r', exec (.streamReply t ch) s = .next s' ∧ (s'.chan t ch.toNat).run = some r'
      ∧ r'.waiting = rest ∧ r'.done = (if e.last then e.elem + 1 else r.done)
      ∧ r'.ended = (if runCount r ≤ r'.done then some (s.cycle t) else none)
      ∧ (runOut r = false → e.fail = none → q.2.1 = stDone → wrote s' (fun k => q.2.2.1.getD k 0) ∧ r'.faulted = r.faulted
          ∧ sameTilesBut q.1 s' [t])
      ∧ (runOut r = false → e.fail = none → q.2.1 ≠ stDone → wrote s' (fun _ => 0) ∧ r'.faulted = true
          ∧ sameTilesBut s s' [t]
          ∧ (r.faulted = false → s'.reg (STR_FAULT t ch.toNat) = BitVec.ofNat 32 (1 + e.elem * 256)
              ∧ bit (s'.reg (STR_EVENT t)) ch.toNat = true))
      ∧ (e.fail = some (2, .none) → r'.faulted = true ∧ (r.sop = 3 → sameMemory s s') ∧ (r.sop ≠ 3 → wrote s' (fun _ => 0))
          ∧ (r.faulted = false → s'.reg (STR_FAULT t ch.toNat) = BitVec.ofNat 32 (2 + e.elem * 256)))
      ∧ (runOut r = true → e.fail = none → sameMemory w.1 s' ∧ (r'.faulted = true ↔ r.faulted = true ∨ w.2 ≠ stDone)))
  ∧ (∀ (s : State) (t : Nat), t < s.tileCount → s.tileRuns t = true →
    let due := fun (w : RowWord) => w.dest == t && s.dueNow t w.due
    ∃ s', exec (.rowStreamArrival t) s = .next s' ∧ (s'.tile t).rowIn = (s.tile t).rowIn ++ s.rowWords.filter due
      ∧ s'.rowWords = s.rowWords.filter (fun w => !due w) ∧ sameTilesBut s s' [t] ∧ sameMemory s s'
      ∧ { s'.tile t with rowIn := (s.tile t).rowIn } = s.tile t ∧ (∀ o, s'.reg o = s.reg o))

/-! ### Messages, signals and check points -/

/-- MSEND, MSIG and the release of a held message (R188, R277, R279): the message is built from the template, with the 8
bytes at PADDR (plus j × STEP with induction) or with INC as its payload; it awaits its answer and, to this module, is in
flight to its receiver, due 3 + Δt cycles after its issue (R269); a template with WAITF holds it while its fence counter
is not 0, and it is sent once the counter reads 0. A poisoned payload is not sent. MFENCE (R277): the counter takes the
messages that await their answers and the runs towards the far side that were issued before the cycle and have not
completed. -/
def Obligations.MessagesAndFences : Prop :=
  ((∀ (s : State) (t : Nat) (tpl : BitVec 5) (inc : BitVec 16) (ord : Bool), issuing s t →
    (s.tile t).outstanding.length < 16 →
    ∃ s', exec (.msig t tpl inc ord) s = .next s' ∧ slotSent s s' t tpl.toNat ord (inc.setWidth 64))
  ∧ (∀ (s : State) (t : Nat) (tpl : BitVec 5) (paddr : BitVec 17) (ord : Bool) (ind : BitVec 3) (step : BitVec 6),
    issuing s t → (ind = 0 ∨ 4 ≤ ind.toNat) → (s.tile t).outstanding.length < 16 → (s.tile t).portUse = [] →
    let j := if ind = 0 then 0 else (ctlJ (s.tile t).ctl (ind.toNat - 4)).toNat
    let off := (paddr.toNat + j * step.toNat) % 2 ^ 17 * 8
    let line := spadOff t off / 64
    let payload := BitVec.ofNat 64 (leNat ((List.range 8).map fun k => memGet s.spad (spadOff t (off + k))))
    ∃ s', exec (.msend t tpl paddr ord ind step) s = .next s' ∧
      (mapGet Cause.none s.spadMark line = .none → mapFind s.spadErr (spadOff t off / 8) = none →
        slotSent s s' t tpl.toNat ord payload)
      ∧ (mapGet Cause.none s.spadMark line ≠ .none → mapFind s.spadErr (spadOff t off / 8) = none →
          s'.flight = s.flight ∧ s'.entries = s.entries ∧ (s'.tile t).outstanding = (s.tile t).outstanding
            ∧ (s.frame.draining = false → s.events.length < s'.events.length) ∧ sameMemory s s'))
  ∧ ∀ (s : State) (t : Nat) (h : HeldMsg), t < s.tileCount →
    (s.tile t).held.find? (fun h => s.fence t h.fence == 0) = some h → s.rankLocal h.msg.rank.toNat = true →
    ∃ s', exec (.fenceReleaseSend t) s = .next s' ∧ (s'.tile t).held = (s.tile t).held.erase h
      ∧ s'.flight = s.flight ++ [⟨h.msg, .slotMsg t h.id, s.cycle t + 3 + s.msgDelta (.slotMsg t h.id) h.msg⟩]
      ∧ onlyTiles { s with flight := s'.flight } s' ∧ sameTilesBut s s' [t])
  ∧ (∀ (s : State) (t : Nat) (f : BitVec 2), issuing s t →
    let counts := fun (c : Nat) => ∃ r, (s.chan t c).run = some r ∧ runOut r = true ∧ r.issue ≠ s.cycle t ∧ r.ended = none
    ∃ s', exec (.mfence t f) s = .next s' ∧ onlyTiles s s' ∧ sameTilesBut s s' [t]
      ∧ (∀ id, FenceOp.msg id ∈ mapGet [] (s'.tile t).fences f.toNat ↔ ∃ o ∈ (s.tile t).outstanding, o.id = id)
      ∧ (∀ c, FenceOp.run c ∈ mapGet [] (s'.tile t).fences f.toNat ↔ c < 4 ∧ counts c)
      ∧ (∀ g, g ≠ f.toNat → s'.fence t g = s.fence t g)
      ∧ (s'.tile t).outstanding = (s.tile t).outstanding)

/-- Check points (R153, R154, R156): CP_TAKE lowers a semaphore that is at least 1 and keeps the lowest margin; on a
semaphore at 0 it raises MULE_LATE and counts in MUL_LATE_COUNT, and the semaphore stays at 0; CP_GIVE adds 1, saturating
(R276); CP_MARK touches none. Without STRICT a check point changes nothing else. Check points under STRICT (R162): CP_MARK
releases the messages that entered the inbox before its cycle, behind those released already, in ascending order of tag,
then payload; a message that enters in the cycle stays. -/
def Obligations.CheckPointsTrace : Prop :=
  (∀ (s : State) (t : Nat) (n : BitVec 5), issuing s t → bit (s.reg FRM_MODE) 0 = false →
    (s.sem t n.toNat ≠ 0 → ∃ s', exec (.cpTake t n) s = .next s' ∧ s'.sem t n.toNat = s.sem t n.toNat - 1 ∧ onlyRegs s s'
      ∧ sameRegsBut s s' [SYN_SEM t n.toNat, MUL_MARGIN_MIN t]
      ∧ (s'.reg (MUL_MARGIN_MIN t)).toNat ≤ (s.reg (MUL_MARGIN_MIN t)).toNat
      ∧ (s'.reg (MUL_MARGIN_MIN t)).toNat ≤ s.cycle t - mapGet 0 (s.tile t).semRose n.toNat)
    ∧ (s.sem t n.toNat = 0 → ∃ s', exec (.cpTake t n) s = .next s' ∧ s'.sem t n.toNat = 0 ∧ onlyEvents s s'
      ∧ s'.tiles = s.tiles ∧ raisedHard s s' ⟨.muleLate, s.tileRegion t, t, s.cycle t, n.toNat⟩
      ∧ (s'.reg (MUL_LATE_COUNT t)).toNat = min ((s.reg (MUL_LATE_COUNT t)).toNat + 1) (2 ^ 32 - 1))
    ∧ (s.sem t n.toNat < 65535 → ∃ s', exec (.cpGive t n) s = .next s' ∧ s'.sem t n.toNat = s.sem t n.toNat + 1
      ∧ onlyTilesRegs s s' ∧ sameRegsBut s s' [SYN_SEM t n.toNat])
    ∧ (s.sem t n.toNat = 65535 → ∃ s', exec (.cpGive t n) s = .next s' ∧ s'.sem t n.toNat = 65535
      ∧ bit (s'.reg (SYN_EVENT t)) 0 = true ∧ s'.reg (SYN_SAT t) = BitVec.ofNat 32 n.toNat)
    ∧ exec (.cpMark t) s = .next s)
  ∧ (∀ (s : State) (t : Nat), issuing s t → bit (s.reg FRM_MODE) 0 = true → (s.tile t).landings = [] →
    let box := (s.tile t).mule.inbox
    let new := fun (e : InboxEntry) => e.released = false ∧ e.entered ≤ s.cycle t
    ∃ s', ∃ fresh : List InboxEntry, exec (.cpMark t) s = .next s' ∧ onlyMule s s' t
      ∧ (s'.tile t).mule.inbox = box.filter (fun e => e.released) ++ fresh
          ++ box.filter (fun e => !e.released && !decide (e.entered ≤ s.cycle t))
      ∧ fresh.Perm ((box.filter fun e => decide (new e)).map fun e => { e with released := true })
      ∧ fresh.Pairwise (fun a b => a.msg.tag.toNat < b.msg.tag.toNat
          ∨ (a.msg.tag = b.msg.tag ∧ a.msg.payload.toNat ≤ b.msg.payload.toNat)))

/-- Signals (R272, R276, R285, R286): a write of SYN_SIG or SYN_DSIG puts a signal on its way; the signals that have
arrived at a semaphore are applied as one sum, saturating at 65,535 with SAT set; those to a tile in tile-row reset are
dropped and counted. Receiving on the die (R160, R268, R269): the oldest message in flight is refused with the first code
that applies, or a signal is put on its way, or a scheduled message to a landing port is held until its due cycle, or a
message to a Mule enters the inbox of 16 entries under the lowest-numbered enabled handler entry that matches its tag; and
an answer goes back to the sender once the message is refused or accepted. Landing ports (R273, R274, R275): the next due
message lands at an open port whose empty semaphore is not 0: its 128 bits are written, little-endian, to entry
MSG_LAND_WR of the ring, the index moves on modulo ENTRIES, the empty semaphore is one less, and the full semaphore is
signalled in the next cycle; with the empty semaphore at 0 it is refused with FULL, and at a closed port with ABSENT. A
write of MSG_LAND_CLOSE closes the ports it names. -/
def Obligations.SignalsAndMessagesArrive : Prop :=
  ((∀ (s : State) (t : Nat) (v : BitVec 32), t < s.tileCount →
    ∃ s', exec (.synSig t v) s = .next s' ∧
      ((s.tile t).inReset = false → (s'.tile t).sigs = (s.tile t).sigs ++ [⟨fld v 0 5, fld v 16 16, some (s.cycle t)⟩]
        ∧ onlyTiles s s' ∧ sameTilesBut s s' [t])
      ∧ ((s.tile t).inReset = true → onlyRegs s s' ∧ sameRegsBut s s' [MSG_SIG_DROP]
          ∧ (s'.reg MSG_SIG_DROP).toNat = min ((s.reg MSG_SIG_DROP).toNat + 1) (2 ^ 32 - 1)))
  ∧ (∀ (s : State) (v : BitVec 32),
    exec (.synDsig v) s = .next { s with dsigs := s.dsigs ++ [(fld v 0 8, fld v 16 16)] })
  ∧ (∀ (s : State) (target : BitVec 16), target.getLsbD 15 = true →
    let n := target.toNat % 256
    let mine := s.dsigs.filter fun g => g.1 == n
    let sum := (mine.map (·.2)).sum
    mine ≠ [] →
    ∃ s', exec (.semaphoreSignal target) s = .next s' ∧ s'.dsem n = min (s.dsem n + sum) 65535
      ∧ s'.dsigs = s.dsigs.filter (fun g => g.1 != n) ∧ s'.tiles = s.tiles ∧ sameMemory s s'
      ∧ (65535 < s.dsem n + sum → bit (s'.reg SYN_DEVENT) 0 = true ∧ s'.reg SYN_DSAT = BitVec.ofNat 32 n))
  ∧ ∀ (s : State) (target : BitVec 16), target.getLsbD 15 = false →
    let t := target.toNat / 32 % 1024
    let n := target.toNat % 32
    let here := fun (g : Sig) => g.sem == n && (match g.due with | some d => s.dueNow t d | none => true)
    let mine := (s.tile t).sigs.filter here
    let sum := (mine.map (·.inc)).sum
    t < s.tileCount → mine ≠ [] → (s.tile t).inReset = false →
    ∃ s', exec (.semaphoreSignal target) s = .next s' ∧ s'.sem t n = min (s.sem t n + sum) 65535
      ∧ (s'.tile t).sigs = (s.tile t).sigs.filter (fun g => !here g) ∧ sameTilesBut s s' [t] ∧ sameMemory s s'
      ∧ (65535 < s.sem t n + sum → bit (s'.reg (SYN_EVENT t)) 0 = true ∧ s'.reg (SYN_SAT t) = BitVec.ofNat 32 n))
  ∧ (∀ (s : State) (f : Flight) (rest : List Flight), s.flight = f :: rest →
    let m := f.msg
    let t := m.tile.toNat
    let p := m.port.toNat
    let badport := (6 ≤ p ∧ p ≤ 14) ∨ (p = 1 ∧ t ≠ 0) ∨ (p ≠ 1 ∧ s.tileCount ≤ t) ∨ (p = 0 ∧ 32 ≤ m.tag.toNat)
      ∨ (p = 1 ∧ 256 ≤ m.tag.toNat)
    let epoch := fld (s.reg (if p = 1 then MSG_MOD_EPOCH else MSG_EPOCH t)) 0 8
    let answered := fun (s' : State) (code : Nat) => ∃ due, s'.answers = s.answers ++ [⟨f.source, code, due⟩]
      ∧ (code ≠ 0 → (s'.reg (MSG_NACK_SENT code)).toNat
          = min ((s.reg (MSG_NACK_SENT code)).toNat + 1) (2 ^ 32 - 1))
    ∃ s', exec (.messageReceive none) s = .next s' ∧ s'.flight = rest
      ∧ (badport → answered s' 4 ∧ s'.tiles = s.tiles)
      ∧ (¬ badport → m.epoch.toNat ≠ epoch → answered s' 3 ∧ s'.tiles = s.tiles)
      ∧ (¬ badport → m.epoch.toNat = epoch → s.frame.safe.isSome = true → answered s' 2 ∧ s'.tiles = s.tiles)
      ∧ (¬ badport → m.epoch.toNat = epoch → s.frame.safe = none →
          (p = 0 → answered s' 0 ∧ (s'.tile t).sigs
            = (s.tile t).sigs ++ [⟨m.tag.toNat, m.payload.toNat % 65536, some (s.cycle t)⟩])
          ∧ (p = 1 → answered s' 0 ∧ s'.dsigs = s.dsigs ++ [(m.tag.toNat, m.payload.toNat % 65536)])
          ∧ (2 ≤ p → p ≤ 5 → m.be = false → (s'.tile t).landings
            = (s.tile t).landings ++ [⟨m, .die f.source f.due, some f.due, s.cycle t + 1⟩] ∧ s'.answers = s.answers)
          ∧ (p = 15 → (s.tile t).gated = false → (s.tile t).mule.state = .running →
              (s.handlerFor t m.tag = none → answered s' 4 ∧ s'.tiles = s.tiles)
              ∧ ∀ n, s.handlerFor t m.tag = some n →
                (16 ≤ (s.tile t).mule.inbox.length → answered s' 1 ∧ s'.tiles = s.tiles)
                ∧ ((s.tile t).mule.inbox.length < 16 → answered s' 0 ∧ (s'.tile t).mule.inbox
                    = (s.tile t).mule.inbox ++ [⟨m, n, s.cycle t + 1, false⟩]))))
  ∧ ((∀ (s : State) (t q : Nat) (l : Landing) (rest : List Landing) (src : ReqSource) (due : Nat), t < s.tileCount →
    s.dueLandings t = l :: rest → l.msg.port.toNat = q + 2 → q < 4 → l.sender = .die src due →
    let cfg := s.reg (MSG_LAND_CFG t q)
    let pair := fld cfg 22 4
    let wr := fld (s.reg (MSG_LAND_WR t q)) 0 8
    let b := spadOff t (fld cfg 0 14 * 64 + wr * 16)
    ∃ s' at', exec (.scheduledLanding t) s = .next s' ∧ (s'.tile t).landings = (s.tile t).landings.erase l
      ∧ (s.portOpen t q = false ∨ (s.tile t).gated = true →
          s'.answers = s.answers ++ [⟨src, ansAbsent, at'⟩] ∧ sameMemory s s')
      ∧ (s.portOpen t q = true → (s.tile t).gated = false → s.sem t (2 * pair + 1) = 0 →
          s'.answers = s.answers ++ [⟨src, ansFull, at'⟩] ∧ sameMemory s s')
      ∧ (s.portOpen t q = true → (s.tile t).gated = false → s.sem t (2 * pair + 1) ≠ 0 →
          s'.answers = s.answers ++ [⟨src, ansAccepted, at'⟩] ∧ s'.sem t (2 * pair + 1) = s.sem t (2 * pair + 1) - 1
          ∧ (s'.tile t).sigs = (s.tile t).sigs ++ [⟨2 * pair, 1, some (s.cycle t + 1)⟩]
          ∧ s'.reg (MSG_LAND_WR t q) = BitVec.ofNat 32 ((wr + 1) % max 1 (fld cfg 14 8))
          ∧ (∀ x, memGet s'.spad x = if b ≤ x ∧ x < b + 16
              then (msgBits l.msg).extractLsb' (8 * (x - b)) 8 else memGet s.spad x)))
  ∧ ∀ (s : State) (t : Nat) (mask : BitVec 4), t < s.tileCount → (s.tile t).inReset = false →
    ∃ s', exec (.msgLandClose t mask) s = .next s' ∧ onlyTiles s s' ∧ sameTilesBut s s' [t]
      ∧ ∀ q, q < 4 → s'.portOpen t q = (s.portOpen t q && !mask.getLsbD q))

/-! ### Program memories and images -/

/-- Writes of the instruction memories (R167, R190). A word of a Mule's instruction memory is written while the Mule is
HALTED or FAULT and is refused otherwise. A write to words 0 to 6 of a bundle goes to the master's staging register and no
bundle changes; a write to word 7 writes all eight words together, words the master has not staged as 0, and leaves
nothing staged for it. A tile in tile-row reset takes none. The image load (R222 to R224, R227 to R229). START latches the
address, the length and COP, or is refused with LOAD_BUSY or LOAD_REQUEST and disturbs nothing. The checks end the load at
a failure and write nothing: no shadow, route, bundle or Mule memory; what passes them names this module's tile count and
no slot in use. An install whose second reading fails leaves the image's slots without VALID and starts no Mule; one that
succeeds with COP 0 ends with LOAD_DONE, and with another COP awaits its commit request. ABORT during the checks ends the
load with LOAD_ABORTED, and after the install has no effect. -/
def Obligations.InstructionMemoriesAndImages : Prop :=
  ((∀ (s : State) (t : Nat) (word : Fin 4096) (v : BitVec 32), t < s.tileCount → (s.tile t).inReset = false →
    (s.tile t).gated = false →
    let m := (s.tile t).mule
    (m.state = .halted ∨ m.state = .fault → ∃ s', exec (.mulImemWrite t word v) s = .next s' ∧ onlyMule s s' t
      ∧ (∀ k, mapGet 0 (s'.tile t).mule.imem k = if k = word.val then v else mapGet 0 m.imem k)
      ∧ mapFind (s'.tile t).mule.imemErr word.val = none
      ∧ { (s'.tile t).mule with imem := m.imem, imemErr := m.imemErr } = m)
    ∧ (¬ (m.state = .halted ∨ m.state = .fault) → exec (.mulImemWrite t word v) s = .next s))
  ∧ (∀ (s : State) (m : Master) (t : Nat) (word : Fin 7) (v : BitVec 32), t < s.tileCount →
    ((s.tile t).inReset = true → exec (.imemStageWrite m t word v) s = .next s)
    ∧ ((s.tile t).inReset = false → ∃ s', exec (.imemStageWrite m t word v) s = .next s' ∧ onlyTiles s s'
      ∧ sameTilesBut s s' [t] ∧ { s'.tile t with staging := (s.tile t).staging } = s.tile t
      ∧ ∀ m' k, k < 8 → stagedWord s' t m' k
          = if masterKey m' = masterKey m ∧ k = word.val then v else stagedWord s t m' k))
  ∧ ∀ (s : State) (m : Master) (t : Nat) (b : Fin 2048) (v : BitVec 32), t < s.tileCount →
    ((s.tile t).inReset = true → exec (.imemBundleWrite m t b v) s = .next s)
    ∧ ((s.tile t).inReset = false → ∃ s', exec (.imemBundleWrite m t b v) s = .next s' ∧ onlyTiles s s'
      ∧ sameTilesBut s s' [t]
      ∧ { s'.tile t with
            imem := (s.tile t).imem
            imemErr := (s.tile t).imemErr
            staging := (s.tile t).staging } = s.tile t
      ∧ (∀ i, i < 8 → (mapGet 0 (s'.tile t).imem b.val).extractLsb' (32 * i) 32
          = if i = 7 then v else stagedWord s t m i)
      ∧ (∀ k, k ≠ b.val → mapGet 0 (s'.tile t).imem k = mapGet 0 (s.tile t).imem k)
      ∧ mapFind (s'.tile t).imemErr b.val = none
      ∧ ∀ m' k, k < 8 → stagedWord s' t m' k
          = if masterKey m' = masterKey m then 0 else stagedWord s t m' k))
  ∧ ((∀ (s : State) (cop : BitVec 3),
    let a := (s.reg64 DMC_LOAD_ADDR_LO).toNat
    let len := (s.reg DMC_LOAD_LEN).toNat
    let bad := 4 ≤ cop.toNat ∨ s.rankLocal (addrRank a) = false ∨ (addrSpace a ≠ 1 ∧ addrSpace a ≠ 2) ∨ a % 64 ≠ 0
      ∨ len = 0 ∨ 256 * 2 ^ 20 < len ∨ s.spaceEnd (addrSpace a) < addrOff a + len
    let code := fun (s' : State) => fld (s'.reg DMC_LOAD_STATUS) 16 8
    ∃ s', exec (.dmcLoadStart cop) s = .next s'
      ∧ (s.loadState ≠ 0 → onlyRegs s s' ∧ sameRegsBut s s' [DMC_LOAD_STATUS] ∧ s'.loadState = s.loadState ∧ code s' = 2)
      ∧ (s.loadState = 0 → bad → onlyRegs s s' ∧ sameRegsBut s s' [DMC_LOAD_STATUS] ∧ s'.loadState = 0 ∧ code s' = 3)
      ∧ (s.loadState = 0 → ¬ bad → s'.loadState = 1 ∧ s'.load = some ⟨a, len, cop.toNat, none⟩
          ∧ { s' with regs := s.regs, load := s.load } = s ∧ sameRegsBut s s' [DMC_LOAD_STATUS, DMC_LOAD_PROGRESS]))
  ∧ (∀ (s : State) (l : Load), s.load = some l → s.loadState = 1 →
    ∃ s', exec .loadChecks s = .next s' ∧ s'.shadow = s.shadow ∧ s'.routes = s.routes ∧ s'.routesNext = s.routesNext
      ∧ s'.slotDigest = s.slotDigest
      ∧ (∀ t, (s'.tile t).imem = (s.tile t).imem ∧ (s'.tile t).mule = (s.tile t).mule)
      ∧ ((s'.load = none ∧ s'.loadState = 0 ∧ fld (s'.reg DMC_LOAD_STATUS) 0 8 ≠ 1)
        ∨ ∃ n, s'.load = some { l with image := some n } ∧ s'.loadState = 2 ∧ n.tiles = s.tileCount ∧ n.native = true
            ∧ ∀ p ∈ n.progs, p.slot ∉ s.slotsInUse))
  ∧ (∀ (s : State) (l : Load) (n : Nif), s.load = some l → l.image = some n → s.loadState = 2 →
    let r := s.spaceRead (addrSpace l.addr) (addrOff l.addr) l.len
    let fails := (∃ c ∈ r.2.2, c ≠ .none) ∨ nifDigest r.2.1 ≠ n.digest
    ∃ s', exec .loadInstall s = .next s'
      ∧ (fails → s'.load = none ∧ s'.loadState = 0
          ∧ fld (s'.reg DMC_LOAD_STATUS) 0 8 = (if ∃ c ∈ r.2.2, c ≠ .none then 4 else 6)
          ∧ (∀ p ∈ n.progs, bit (s'.shReg (FRM_PROG_CFG p.slot)) 31 = false)
          ∧ ∀ t, (s'.tile t).mule.state = (s.tile t).mule.state)
      ∧ (¬ fails → l.cop = 0 → s'.load = none ∧ s'.loadState = 0 ∧ fld (s'.reg DMC_LOAD_STATUS) 0 8 = 1)
      ∧ (¬ fails → l.cop ≠ 0 → s'.load = some l ∧ s'.loadState = 3)
      ∧ (¬ fails → ∀ p ∈ n.progs, mapFind s'.slotDigest p.slot = some n.digest))
  ∧ (∀ s : State, s.loadState = 3 →
    (s.frame.commitReq.isSome = true → exec .loadEnd s = .next s)
    ∧ (s.frame.commitReq = none → ∃ s', exec .loadEnd s = .next s' ∧ s'.load = none ∧ s'.loadState = 0
      ∧ fld (s'.reg DMC_LOAD_STATUS) 0 8 = (if fld (s.reg FRM_COMMIT_STATUS) 0 8 = 0 then 0x01 else 0x13)))
  ∧ ∀ (s : State) (l : Load), s.load = some l →
    (s.loadState = 1 → ∃ s', exec .dmcLoadAbort s = .next s' ∧ s'.load = none ∧ s'.loadState = 0
      ∧ fld (s'.reg DMC_LOAD_STATUS) 0 8 = 0x14 ∧ s'.shadow = s.shadow ∧ s'.routesNext = s.routesNext
      ∧ ∀ t, (s'.tile t).imem = (s.tile t).imem ∧ (s'.tile t).mule = (s.tile t).mule)
    ∧ (s.loadState = 3 → exec .dmcLoadAbort s = .next s))

/-! ### Upkeep of the memories -/

/-- Upkeep (R235, R237, R256, R259): SPD_SCRUB.START restarts the scrub at the first line of every bank; a bank whose port
is free zeroes its next line, and nothing else of space 0; a queued correction is written back and its error gone; a
refresh window opens in the cycles that PERIOD and PHASE name, and no other; a forced refresh is counted and charges its
hold to the stack's region. -/
def Obligations.MemoryUpkeep : Prop :=
  (∀ (s : State) (t : Nat), t < s.tileCount → (s.tile t).inReset = false → (s.tile t).gated = false →
    ∃ s', exec (.spdScrubStart t) s = .next s' ∧ onlyTiles s s' ∧ sameTilesBut s s' [t] ∧ (s'.tile t).scrubBusy = true
      ∧ (∀ b, b < 16 → mapFind (s'.tile t).scrub b = some 0)
      ∧ { s'.tile t with scrubBusy := (s.tile t).scrubBusy, scrub := (s.tile t).scrub } = s.tile t)
  ∧ (∀ (s : State) (t : Nat) (bank : Fin 16) (i : Nat), t < s.tileCount → (s.tile t).inReset = false →
    (s.tile t).gated = false → s.bankFree t bank = true → mapFind (s.tile t).scrub bank = some i →
    let b := spadOff t ((16 * i + bank) * 64)
    ∃ s', exec (.scrubLine t bank) s = .next s'
      ∧ (∀ a, memGet s'.spad a = if b ≤ a ∧ a < b + 64 then 0 else memGet s.spad a)
      ∧ s'.hbm = s.hbm ∧ s'.ddr = s.ddr ∧ s'.regs = s.regs ∧ sameTilesBut s s' [t]
      ∧ mapGet Cause.none s'.spadMark (b / 64) = .none
      ∧ (mapFind (s'.tile t).scrub bank = if i + 1 < 1024 then some (i + 1) else none)
      ∧ ((s'.tile t).scrubBusy = true ↔ (s'.tile t).scrub ≠ []))
  ∧ (∀ (s : State) (t : Nat) (bank : Fin 16) (w : Nat), t < s.tileCount → (s.tile t).inReset = false →
    s.bankFree t bank = true → (s.tile t).writeBacks.find? (fun w => (w / 8) % 16 == bank.val) = some w →
    ∃ s', exec (.eccWriteback t bank) s = .next s' ∧ (s'.tile t).writeBacks = (s.tile t).writeBacks.erase w
      ∧ mapFind s'.spadErr (t * (sliceBytes / 8) + w) = none
      ∧ (∀ k, k ≠ t * (sliceBytes / 8) + w → mapFind s'.spadErr k = mapFind s.spadErr k)
      ∧ sameMemory s s' ∧ s'.regs = s.regs ∧ sameTilesBut s s' [t])
  ∧ (∀ (s : State) (k : Fin 8) (cyc : Nat), fld (s.reg (HBM_STATUS k)) 0 3 = 3 → s.frame.armed.isSome = true →
    s.frame.released = true → fld (s.reg (HBM_REF_PERIOD k)) 0 16 ≠ 0 →
    let opens := cyc % fld (s.reg (HBM_REF_PERIOD k)) 0 16 = fld (s.reg (HBM_REF_PHASE k)) 0 16
    (opens → exec (.hbmRefreshWindow k cyc) s = .next { s with refresh := mapPut s.refresh k cyc })
    ∧ (¬ opens → exec (.hbmRefreshWindow k cyc) s = .next s))
  ∧ (∀ (s : State) (cyc : Nat), s.ddrChannels ≠ [] → s.frame.armed.isSome = true → s.frame.released = true →
    fld (s.reg (DDR_REF_PERIOD 0)) 0 16 ≠ 0 →
    let opens := cyc % fld (s.reg (DDR_REF_PERIOD 0)) 0 16 = fld (s.reg (DDR_REF_PHASE 0)) 0 16
    (opens → exec (.ddrRefreshWindow cyc) s = .next { s with refresh := mapPut s.refresh 8 cyc })
    ∧ (¬ opens → exec (.ddrRefreshWindow cyc) s = .next s))
  ∧ ∀ (s : State) (k : Fin 9) (ps : Nat),
    let r := if k.val < 8 then 48 + k.val else 60
    (k.val < 8 → fld (s.reg (HBM_STATUS k)) 0 3 = 3) →
    ∃ s', exec (.forcedRefresh k ps) s = .next s' ∧ (s'.region r).hold = (s.region r).hold.add (.ofNat ps)
      ∧ (∀ q, q ≠ r → s'.region q = s.region q)
      ∧ (s'.reg (CLK_R_HOLD_PS r)).toNat = min ((s.reg (CLK_R_HOLD_PS r)).toNat + ps) (2 ^ 32 - 1)
      ∧ (k.val < 8 → (s'.reg (HBM_REF_FORCED k)).toNat = min ((s.reg (HBM_REF_FORCED k)).toNat + 1) (2 ^ 32 - 1))
      ∧ sameRegsBut s s' (if k.val < 8 then [CLK_R_HOLD_PS r, HBM_REF_FORCED k] else [CLK_R_HOLD_PS r])
      ∧ { s' with regs := s.regs, regions := s.regions } = s

/-! ### The address-generator engines -/

/-- Arithmetic of an engine (R249): NOP, SETA, SETAH, ADDA, MOVA and SETC write the one register that the table gives,
with its value; the pc advances, the engine runs, and nothing else changes. A word with a reserved OP or a reserved bit
stops the engine with ILLEGAL at its pc (R251). START runs a stopped engine from AGP_BOOT and RESUME from its pc; STOP
halts one with no copy in flight at once (R262). Flow and synchronisation of an engine (R249, R250): REP opens a block, or
skips it with a count or a length of 0, or is ILLEGAL on a counter whose block is active; at the end of a body the counter
counts down and the block repeats until it reads 0; WAIT takes 1 from a semaphore that is at least 1 and otherwise waits;
SIG sends its signal at once with no copy in flight and else holds it for them; FENCE waits while a copy is in flight;
HALT halts. -/
def Obligations.EngineInstructions : Prop :=
  ((∀ (s : State) (c : Instr) (n : Fin 16) (ws : List (Nat × BitVec 32)), engineSpells s c n → engineAway s n →
    agpWrites s c = some ws →
    ∃ s', exec c s = .next s' ∧ engineWent s s' n ((s.engine n).pc + 1) .running
      ∧ (∀ w ∈ ws, s'.reg w.1 = w.2) ∧ sameRegsBut s s' (ws.map (·.1)))
  ∧ (∀ (s : State) (c : Instr) (n : Fin 16) (i : BitVec 64), engineOf c = some n → engineAt s n i → agpIllegal i = true →
    ∃ s', exec c s = .next s' ∧ sameEnginesBut s s' [n]
      ∧ s'.engine n = { s.engine n with state := .fault, fcode := 1, signals := [], stopping := false }
      ∧ s'.reg (AGP_FAULT_PC n) = (s.engine n).pc.setWidth 32
      ∧ sameRegsBut s s' [AGP_FAULT_PC n, AGP_FAULT_ADDR_LO n, AGP_FAULT_ADDR_LO n + 4]
      ∧ { s' with regs := s.regs, agp := s.agp } = s)
  ∧ ∀ (s : State) (n : Fin 16),
    let e := s.engine n
    let stopped := e.state = .halted ∨ e.state = .fault
    let becomes := fun (c : Instr) (e' : Agp) =>
      ∃ s', exec c s = .next s' ∧ s'.engine n = e' ∧ sameEnginesBut s s' [n] ∧ { s' with agp := s.agp } = s
    (stopped → becomes (.agpStart n) { e with
        pc := BitVec.ofNat 8 (fld (s.reg (AGP_BOOT n)) 0 8)
        state := .running
        fcode := 0
        reps := []
        stopping := false })
    ∧ (stopped → becomes (.agpResume n) { e with state := .running, fcode := 0, stopping := false })
    ∧ (¬ stopped → becomes (.agpStart n) e ∧ becomes (.agpResume n) e)
    ∧ (stopped → becomes (.agpStop n) e)
    ∧ (¬ stopped → e.copies = [] → becomes (.agpStop n) { e with state := .halted })
    ∧ (¬ stopped → e.copies ≠ [] → becomes (.agpStop n) { e with stopping := true }))
  ∧ ((∀ (s : State) (n : Fin 16) (c : BitVec 2) (len : BitVec 8), engineSpells s (.agpRep n c len) n →
    let e := s.engine n
    let active := ∃ b ∈ e.reps, b.counter = c.toNat
    ∃ s', exec (.agpRep n c len) s = .next s' ∧ sameEnginesBut s s' [n] ∧ { s' with regs := s.regs, agp := s.agp } = s
      ∧ (active → (s'.engine n).state = .fault ∧ (s'.engine n).fcode = 1 ∧ s'.reg (AGP_FAULT_PC n) = e.pc.setWidth 32)
      ∧ (¬ active → (∀ b ∈ e.reps, b.last ≠ e.pc.toNat) → s.reg (AGP_C n c.toNat) = 0 ∨ len = 0 →
          s'.engine n = { e with pc := e.pc + len + 1, state := .running } ∧ s'.reg (AGP_C n c.toNat) = 0
          ∧ sameRegsBut s s' [AGP_C n c.toNat])
      ∧ (¬ active → (∀ b ∈ e.reps, b.last ≠ e.pc.toNat) → s.reg (AGP_C n c.toNat) ≠ 0 → len ≠ 0 →
          e.pc.toNat + len.toNat ≤ 255 → s'.regs = s.regs ∧ s'.engine n = { e with
            pc := e.pc + 1
            state := .running
            reps := ⟨c.toNat, e.pc.toNat + 1, e.pc.toNat + len.toNat⟩ :: e.reps }))
  ∧ (∀ (s : State) (n : Fin 16) (b : RepBlock) (rest : List RepBlock), engineSpells s (.agpNop n) n →
    (s.engine n).reps = b :: rest → b.last = (s.engine n).pc.toNat →
    ∃ s', exec (.agpNop n) s = .next s' ∧ sameEnginesBut s s' [n] ∧ { s' with regs := s.regs, agp := s.agp } = s
      ∧ (s.reg (AGP_C n b.counter) ≠ 1 → s'.reg (AGP_C n b.counter) = s.reg (AGP_C n b.counter) - 1
          ∧ sameRegsBut s s' [AGP_C n b.counter]
          ∧ s'.engine n = { s.engine n with pc := BitVec.ofNat 8 b.first, state := .running })
      ∧ (s.reg (AGP_C n b.counter) = 1 → (∀ x ∈ rest, x.last ≠ b.last) → s'.reg (AGP_C n b.counter) = 0
          ∧ sameRegsBut s s' [AGP_C n b.counter]
          ∧ s'.engine n = { s.engine n with pc := (s.engine n).pc + 1, state := .running, reps := rest }))
  ∧ (∀ (s : State) (n : Fin 16) (d : BitVec 8), engineSpells s (.agpWait n d) n → engineAway s n →
    ∃ s', exec (.agpWait n d) s = .next s'
      ∧ (s.dsem d.toNat = 0 → engineWent s s' n (s.engine n).pc .waiting ∧ s'.regs = s.regs)
      ∧ (s.dsem d.toNat ≠ 0 → engineWent s s' n ((s.engine n).pc + 1) .running
          ∧ s'.dsem d.toNat = s.dsem d.toNat - 1 ∧ sameRegsBut s s' [SYN_DSEM d.toNat]))
  ∧ (∀ (s : State) (n : Fin 16) (target inc : BitVec 16), engineSpells s (.agpSig n target inc) n → engineAway s n →
    (∀ g ∈ (s.engine n).signals, g.after ≠ []) →
    let u := target.toNat / 32 % 1024
    ∃ s', exec (.agpSig n target inc) s = .next s' ∧ s'.regs = s.regs ∧ sameMemory s s'
      ∧ (s'.engine n).pc = (s.engine n).pc + 1 ∧ (s'.engine n).state = .running
      ∧ ((s.engine n).copies = [] → (s'.engine n).signals = (s.engine n).signals
          ∧ (target.getLsbD 15 = true → s'.dsigs = s.dsigs ++ [(target.toNat % 256, inc.toNat)] ∧ s'.tiles = s.tiles)
          ∧ (target.getLsbD 15 = false → s'.dsigs = s.dsigs ∧ (u < s.tileCount →
              (s'.tile u).sigs = (s.tile u).sigs ++ [⟨target.toNat % 32, inc.toNat, none⟩] ∧ sameTilesBut s s' [u])))
      ∧ ((s.engine n).copies ≠ [] → s'.dsigs = s.dsigs ∧ s'.tiles = s.tiles ∧ (s'.engine n).signals
          = (s.engine n).signals ++ [⟨target.toNat, inc.toNat, (s.engine n).copies.map (·.id)⟩]))
  ∧ (∀ (s : State) (n : Fin 16), engineSpells s (.agpFence n) n → engineAway s n →
    ∃ s', exec (.agpFence n) s = .next s' ∧ s'.regs = s.regs
      ∧ ((s.engine n).copies = [] → engineWent s s' n ((s.engine n).pc + 1) .running)
      ∧ ((s.engine n).copies ≠ [] → engineWent s s' n (s.engine n).pc .waiting))
  ∧ ∀ (s : State) (n : Fin 16), engineSpells s (.agpHalt n) n →
    ∃ s', exec (.agpHalt n) s = .next s' ∧ s'.regs = s.regs ∧ engineWent s s' n (s.engine n).pc .halted)

/-- Copies (R250, R251): an address that is not a multiple of 4, or in space 3 or a reserved space, faults the engine with
ADDR; a fifth copy, and one that touches the destination of a copy in flight, waits; a copy of length 0 completes at once;
another is in flight with its addresses, and A and B advance where asked. A copy within one line of HBM, once it
completes, has moved its bytes and changed no other, has counted its line, and is in flight no more. -/
def Obligations.EngineCopies : Prop :=
  (∀ (s : State) (n : Fin 16) (a b : BitVec 3) (len : BitVec 32) (adv : Bool), engineSpells s (.copy n a b len adv) n →
    engineAway s n →
    let e := s.engine n
    let dst := s.agpA n a.toNat
    let src := s.agpA n b.toNat
    let bad := fun (x : Nat) => x % 4 ≠ 0 ∨ 3 ≤ addrSpace x
    let fits := fun (x : Nat) => s.rankLocal (addrRank x) = true ∧ (∀ j, j < 4 → bit (s.reg (FRM_WPAIR_STATUS j)) 0 = false)
      ∧ addrOff x + len.toNat ≤ s.spaceEnd (addrSpace x)
    let near := ∃ c ∈ e.copies, runsOverlap (s.normAddr c.dst) c.len (s.normAddr dst) len.toNat = true
      ∨ runsOverlap (s.normAddr c.dst) c.len (s.normAddr src) len.toNat = true
    let good := ¬ bad src ∧ ¬ bad dst ∧ len.toNat % 4 = 0 ∧ fits src ∧ fits dst
    ∃ s', exec (.copy n a b len adv) s = .next s' ∧ sameMemory s s' ∧ sameEnginesBut s s' [n]
      ∧ (bad src ∨ bad dst ∨ len.toNat % 4 ≠ 0 → (s'.engine n).state = .fault ∧ (s'.engine n).fcode = 2
          ∧ s'.reg (AGP_FAULT_PC n) = e.pc.setWidth 32)
      ∧ (good → 4 ≤ e.copies.length ∨ near → engineWent s s' n e.pc .waiting ∧ s'.regs = s.regs)
      ∧ (good → ¬ (4 ≤ e.copies.length ∨ near) → (s'.engine n).pc = e.pc + 1 ∧ (s'.engine n).state = .running
          ∧ (adv = false → s'.regs = s.regs)
          ∧ (adv = true → a ≠ b → s'.agpA n a.toNat = agpAdvance dst len.toNat ∧ s'.agpA n b.toNat = agpAdvance src len.toNat)
          ∧ (len = 0 → (∀ c ∈ e.copies, c.id ≠ e.nextId) → (s'.engine n).copies = e.copies)
          ∧ (len ≠ 0 → ∃ c, (s'.engine n).copies = e.copies ++ [c] ∧ c.id = e.nextId ∧ c.dst = dst ∧ c.src = src
              ∧ c.len = len.toNat)))
  ∧ ∀ (s : State) (n : Fin 16) (c : AgpCopy), s.agpCopy n c.id = some c → c.pieces = [⟨0, c.len, .toRead, [], []⟩] →
    0 < c.len → c.src % 64 + c.len ≤ 64 → c.dst % 64 + c.len ≤ 64 → c.copies = [] →
    s.rankLocal (addrRank c.src) = true → s.rankLocal (addrRank c.dst) = true → addrSpace c.src = 1 → addrSpace c.dst = 1 →
    addrOff c.src + c.len ≤ s.spaceEnd 1 → addrOff c.dst + c.len ≤ s.spaceEnd 1 →
    mapFind s.hbmErr (addrOff c.src / 64) = none → mapGet false s.hbmPoison (addrOff c.src / 64) = false →
    mapGet false s.hbmPoison (addrOff c.dst / 64) = false →
    let d := addrOff c.dst
    ∃ s', exec (.copyComplete n c.id) s = .next s'
      ∧ (∀ x, memGet s'.hbm x = if d ≤ x ∧ x < d + c.len then memGet s.hbm (addrOff c.src + (x - d)) else memGet s.hbm x)
      ∧ s'.spad = s.spad ∧ s'.ddr = s.ddr ∧ s'.agpCopy n c.id = none
      ∧ (s'.reg (AGP_LINES n)).toNat = min ((s.reg (AGP_LINES n)).toNat + 1) (2 ^ 32 - 1)
      ∧ sameRegsBut s s' [AGP_LINES n] ∧ sameEnginesBut s s' [n]

/-! ### Context and dump -/

/-- Context save and restore, and the dump (R280 to R284). A request is refused while the module is busy or for a bad
place, and else accepted. The save waits until every tile is quiet, then writes the context, which is as long as R282 says
and holds the device semaphores at 0x80, or ends with CTX_MEMORY. The restore ends with a code and, on any code but
CTX_DONE, leaves semaphores and Mules as they were; with CTX_DONE semaphores and pcs are those of the context. The dump
goes to the buffer, or is refused for a bad place. -/
def Obligations.ContextsAndDumps : Prop :=
  (∀ (s : State) (op : Fin 2),
    let c : Instr := if op = 0 then .save else .restore
    let busy := (s.frmState ≠ 0 ∧ s.frmState ≠ 3) ∨ s.ctxState ≠ 0 ∨ s.loadState ≠ 0 ∨ s.enginesBusy = true
    let bad := s.placeOk (s.reg64 DMC_CTX_ADDR_LO).toNat = false
      ∨ (op = 0 ∧ (s.reg DMC_CTX_LEN).toNat < 0x280 + 768 * s.tileCount)
    ∃ s', exec c s = .next s' ∧ { s' with regs := s.regs, ctxOp := s.ctxOp } = s ∧ sameRegsBut s s' [DMC_CTX_STATUS]
      ∧ (busy → fld (s'.reg DMC_CTX_STATUS) 0 8 = 2 ∧ s'.ctxState = s.ctxState ∧ s'.ctxOp = s.ctxOp)
      ∧ (¬ busy → bad → fld (s'.reg DMC_CTX_STATUS) 0 8 = 3 ∧ s'.ctxState = 0 ∧ s'.ctxOp = s.ctxOp)
      ∧ (¬ busy → ¬ bad → s'.ctxState = 1 ∧ s'.ctxOp = op.val + 1))
  ∧ (∀ s : State, s.ctxOp = 1 → s.ctxState = 2 →
    let a := (s.reg64 DMC_CTX_ADDR_LO).toNat
    let quiet := ∀ t, t < s.tileCount → tileQuiet s t = true
    (¬ quiet → exec .contextSaveRun s = .next s)
    ∧ (quiet → ∃ s', exec .contextSaveRun s = .next s' ∧ s'.ctxOp = 0 ∧ s'.ctxState = 0
      ∧ (s.spaceEnd (addrSpace a) < addrOff a + s.ctxBytes → fld (s'.reg DMC_CTX_STATUS) 0 8 = 4 ∧ sameMemory s s')
      ∧ (¬ s.spaceEnd (addrSpace a) < addrOff a + s.ctxBytes → addrSpace a = 1 → addrOff a % 64 = 0 → s.hbmPoison = [] →
          fld (s'.reg DMC_CTX_STATUS) 0 8 = 1 ∧ s'.spad = s.spad ∧ s'.ddr = s.ddr
          ∧ (ctxImage s).length = 0x280 + 768 * s.tileCount ∧ (ctxImage s).take 4 = [0x4E, 0x5A, 0x43, 0x58]
          ∧ (∀ n, n < 256 → ctxField (ctxImage s) (0x80 + 2 * n) 2 = s.dsem n)
          ∧ ∀ x, memGet s'.hbm x = if addrOff a ≤ x ∧ x < addrOff a + s.ctxBytes
              then (ctxImage s).getD (x - addrOff a) 0 else memGet s.hbm x)))
  ∧ (∀ s : State, s.ctxOp = 2 → s.ctxState = 2 →
    let a := (s.reg64 DMC_CTX_ADDR_LO).toNat
    let bs := (s.spaceRead (addrSpace a) (addrOff a) (s.reg DMC_CTX_LEN).toNat).2.1
    ∃ s', exec .contextRestoreRun s = .next s' ∧ s'.ctxOp = 0 ∧ s'.ctxState = 0
      ∧ (fld (s'.reg DMC_CTX_STATUS) 0 8 ≠ 1 → (∀ n, n < 256 → s'.dsem n = s.dsem n)
          ∧ ∀ t, t < s.tileCount → (s'.tile t).mule = (s.tile t).mule ∧ ∀ n, n < 32 → s'.sem t n = s.sem t n)
      ∧ (fld (s'.reg DMC_CTX_STATUS) 0 8 = 1 → (∀ n, n < 256 → s'.dsem n = ctxField bs (0x80 + 2 * n) 2)
          ∧ ∀ t, t < s.tileCount → (∀ n, n < 32 → s'.sem t n = ctxField bs (ctxTile t + 2 * n) 2)
            ∧ (s'.tile t).mule.pc = BitVec.ofNat 32 (ctxField bs (ctxTile t + 0x2C0) 4)))
  ∧ ∀ s : State,
    (∃ s', exec (.dumpStart true) s = .next s' ∧ s'.dumpBuf = dumpImage s ∧ s'.reg DMC_DUMP_STATUS = 1
      ∧ { s' with regs := s.regs, dumpBuf := s.dumpBuf } = s ∧ sameRegsBut s s' [DMC_DUMP_STATUS]
      ∧ s'.dumpBuf.take 4 = [0x4E, 0x5A, 0x53, 0x44]
      ∧ ∀ n, n < 256 → ctxField s'.dumpBuf (0x40 + 2 * n) 2 = s.dsem n)
    ∧ (s.placeOk (s.reg64 DMC_DUMP_ADDR_LO).toNat = false → ∃ s', exec (.dumpStart false) s = .next s'
      ∧ s'.reg DMC_DUMP_STATUS = 3 ∧ onlyRegs s s' ∧ sameRegsBut s s' [DMC_DUMP_STATUS])

/-! ### Links -/

/-- A link goes DOWN (R290 to R293, R313 to R315, R317): silence, a lane marked bad and a reset of the link take a link
that carries flits DOWN, with its cause, one more in DOWNS and an empty replay buffer; a fabric link notifies its forward
entries' origins, switches its own transfers to their twins from the next tick, counts the packets it loses as discarded
and forgets its tick delay. On a link that carries nothing silence changes nothing; a reset starts training where ENABLE
is set. -/
def Obligations.LinksGoDown : Prop :=
  (∀ (s s' : State) (l : Fin 34) (c : Instr) (cause : Nat), linkFault c = some (l, cause) → s.linkCarries l = true →
    exec c s = .next s' →
      (s'.linkState l = lkTraining ∨ s'.linkState l = lkDown)
      ∧ fld (s'.reg (linkStatus l)) 12 4 = cause
      ∧ (s'.reg (linkDowns l)).toNat = min ((s.reg (linkDowns l)).toNat + 1) (2 ^ 32 - 1)
      ∧ (s'.link l).replay = [] ∧ (s'.link l).rx = 0 ∧ (s'.link l).tx = 0 ∧ (∀ k, k ≠ l.val → s'.link k = s.link k)
      ∧ s'.tiles = s.tiles ∧ sameMemory s s'
      ∧ (l.val < 32 → bit (s'.reg FAB_EVENT) 0 = true ∧ s'.reg (FAB_TDLY l) = 0
          ∧ (s'.reg FAB_DISCARD).toNat = min ((s.reg FAB_DISCARD).toNat
              + ((s.link l).replay.filter fun e => e.2.isSome).length) (2 ^ 32 - 1)
          ∧ s'.fab.notices = s.fab.notices ++ (s.routes.filter fun r => r.outLink == l.val && r.role == 1).map
              (fun r => (r.inLink, Notice.transfer r.prog r.xfer r.twin))
          ∧ ∀ r ∈ s.routes, r.outLink = l.val → r.role = 0 → r.twin = false →
              (∃ q ∈ s.routes, q.prog = r.prog ∧ q.xfer = r.xfer ∧ q.role = 0 ∧ q.twin = true) →
              (r.prog, r.xfer) ∈ s'.twinsNext ∨ (r.prog, r.xfer) ∈ s.twins)
      ∧ (32 ≤ l.val → mapFind s'.hlk.downAt (l - 32) = some s.us ∧ s'.routes = s.routes))
  ∧ (∀ (s : State) (l : Fin 34) (c : Instr) (cause : Nat), linkFault c = some (l, cause) →
    (∃ s', exec c s = .next s') ∧ (s.linkCarries l = false → exec c s = .next s))
  ∧ ∀ (s : State) (l : Fin 32),
    ∃ s', exec (.retrain l) s = .next s' ∧ (s'.link l).bad = 0
      ∧ s'.linkState l = (if bit (s.reg (FAB_LINK_CFG l)) 0 then lkTraining else lkDown)
      ∧ (s.linkCarries l = true → (s'.link l).replay = []
          ∧ (s'.reg (FAB_LINK_DOWNS l)).toNat = min ((s.reg (FAB_LINK_DOWNS l)).toNat + 1) (2 ^ 32 - 1))
      ∧ (s.linkCarries l = false → (s'.link l).replay = (s.link l).replay ∧ sameRegsBut s s' [FAB_LINK_STATUS l])

/-- A link carries flits and trains (R290, R294, R296): a bad flit is not used and a replay is asked for; a good one with
the expected SEQ moves RX on, with another SEQ it is asked for again; what ACKSEQ acknowledges leaves the replay buffer;
its corrected symbols are counted. Training ends DISABLED where the wiring rules give no peer, MISWIRED with another peer
than theirs, and else UP where both ends forward and HELD where one does not; a host port comes UP. Forwarding, notices
and twins (R314, R315, R318, R320): FORWARD sets FAB_CTRL.FORWARD and, where it was clear, announces it; a route notice is
counted, is passed on over the IN_LINK of its forward entry, switches its transfer's origin to the twin from the next
tick, and one that names a module adds it to the exclusion set while there is room; FAB_TWIN_CLEAR asks for the primaries
from the next tick. -/
def Obligations.LinksAndNotices : Prop :=
  ((∀ (s : State) (l : Fin 34) (f : Flit), s.linkCarries l = true → f.nak = false →
    ∃ s', exec (.flitReceive l f) s = .next s'
      ∧ (s'.reg (linkFec l)).toNat = min ((s.reg (linkFec l)).toNat + f.corrected) (2 ^ 32 - 1)
      ∧ sameRegsBut s s' [linkFec l] ∧ { s' with regs := s.regs, fab := s.fab } = s
      ∧ (∀ k, k ≠ l.val → s'.link k = s.link k)
      ∧ (f.good = false → s'.link l = { s.link l with nakDue := true })
      ∧ (f.good = true → (s'.link l).replay = ackReplay f.ackseq (s.link l).replay
          ∧ (f.idle = true → (s'.link l).rx = (s.link l).rx)
          ∧ (f.idle = false → f.seq = (s.link l).rx → (s'.link l).rx = (s.link l).rx + 1 ∧ (s'.link l).nakDue = false)
          ∧ (f.idle = false → f.seq ≠ (s.link l).rx → (s'.link l).rx = (s.link l).rx ∧ (s'.link l).nakDue = true)))
  ∧ (∀ (s : State) (l : Fin 34) (f : Flit), s.linkCarries l = false → exec (.flitReceive l f) s = .next s)
  ∧ (∀ (s : State) (l : Fin 34) (flock : BitVec 8) (member : BitVec 5) (fwd : Bool) (good : BitVec 4)
      (rtt tdly : BitVec 32), s.linkState l = lkTraining → bit (s.reg (linkCfg l)) 0 = true →
    let w := laneWidth (s.usableLanes l good)
    ∃ s', exec (.linkTrained l flock member fwd good rtt tdly) s = .next s' ∧ s'.tiles = s.tiles ∧ sameMemory s s'
      ∧ (l.val < 32 → s.wiredPeer l = none → s'.linkState l = lkDisabled)
      ∧ (∀ p, l.val < 32 → s.wiredPeer l = some p →
          (s.widthAllowed l w = false → s'.linkState l = lkDown)
          ∧ (s.widthAllowed l w = true → p ≠ (flock.toNat, member.toNat) → s'.linkState l = lkMiswired
              ∧ bit (s'.reg FAB_EVENT) 2 = true)
          ∧ (s.widthAllowed l w = true → p = (flock.toNat, member.toNat) →
              s'.linkState l = (if bit (s.reg FAB_CTRL) 0 ∧ fwd = true then lkUp else lkHeld)
              ∧ s'.linkWidth l = w ∧ s'.reg (FAB_TDLY l) = tdly
              ∧ s'.reg (FAB_LINK_PEER l) = BitVec.ofNat 32 (flock.toNat + member.toNat * 256 + 2 ^ 31)))
      ∧ (32 ≤ l.val → s.widthAllowed l w = true → s'.linkState l = lkUp ∧ s'.linkWidth l = w)
      ∧ (32 ≤ l.val → s.widthAllowed l w = false → s'.linkState l = lkDown))
  ∧ ∀ (s : State) (l : Fin 34) (flock : BitVec 8) (member : BitVec 5) (fwd : Bool) (good : BitVec 4)
      (rtt tdly : BitVec 32), s.linkState l ≠ lkTraining → 32 ≤ l.val →
    exec (.linkTrained l flock member fwd good rtt tdly) s = .next s)
  ∧ ((∀ s : State, ∃ s', exec .forward s = .next s' ∧ s'.reg FAB_CTRL = 1 ∧ sameRegsBut s s' [FAB_CTRL]
    ∧ (bit (s.reg FAB_CTRL) 0 = false → s'.fab = { s.fab with forwardStage := 1 })
    ∧ (bit (s.reg FAB_CTRL) 0 = true → s'.fab = s.fab) ∧ { s' with regs := s.regs, fab := s.fab } = s)
  ∧ (∀ s : State, exec .fabTwinClear s = .next { s with twinClear := true })
  ∧ (∀ (s : State) (f m : Nat), f < 256 → m < 32 →
    ∃ s', exec (.routeNotice (.module f m)) s = .next s' ∧ onlyRegs s s'
      ∧ (s'.reg FAB_NOTICES).toNat = min ((s.reg FAB_NOTICES).toNat + 1) (2 ^ 32 - 1) ∧ bit (s'.reg FAB_EVENT) 4 = true
      ∧ ((∃ n, n < 64 ∧ bit (s.reg (FAB_EXCL n)) 31 = false) → s'.excluded (f, m) = true)
      ∧ ((∀ n, n < 64 → bit (s.reg (FAB_EXCL n)) 31 = true) → s.excluded (f, m) = false →
          s'.excluded (f, m) = false ∧ bit (s'.reg FAB_EVENT) 7 = true))
  ∧ ∀ (s : State) (prog xfer : Nat) (twin : Bool),
    let mine := s.routes.filter fun r => r.prog == prog && r.xfer == xfer && r.twin == twin
    ∃ s', exec (.routeNotice (.transfer prog xfer twin)) s = .next s'
      ∧ (s'.reg FAB_NOTICES).toNat = min ((s.reg FAB_NOTICES).toNat + 1) (2 ^ 32 - 1) ∧ sameMemory s s'
      ∧ s'.tiles = s.tiles ∧ s'.routes = s.routes ∧ s'.twins = s.twins
      ∧ s'.fab.notices = s.fab.notices ++ (mine.filter fun r => r.role == 1).map
          (fun r => (r.inLink, Notice.transfer prog xfer twin))
      ∧ (twin = false → (∃ r ∈ mine, r.role = 0) →
          (∃ q ∈ s.routes, q.prog = prog ∧ q.xfer = xfer ∧ q.role = 0 ∧ q.twin = true) →
          (prog, xfer) ∈ s'.twinsNext ∨ (prog, xfer) ∈ s.twins))

/-! ### Traffic between ranks -/

/-- Best-effort requests and answers from other ranks (R303, R310, R312, R322 to R327). A packet for another rank is
passed on along its hops; one that fails its CRC at its destination is discarded and counted. A WRITE or READ of an
address beyond its space is refused with ADDR_INVALID, one that no window permits with ACCESS_DENIED, one in the safe
state with TARGET_OFF: it is counted and changes no memory. A permitted WRITE writes its bytes and no others, a permitted
READ writes none; each is answered under its transaction, and an ordered write under NOTIFY 1 signals its semaphore.
Requests complete (R311, R326, R329, R330). READ_DATA and ANSWER complete the request of their transaction, and BE_TIMEOUT
one that has waited too long with TIMEOUT: its entry is freed; a SEND of a Mule ends, and a NOTIFY message that was not
accepted is counted; a transaction that no entry names changes nothing. TID_FREE_SEND gives the oldest waiting request the
lowest free entry of the best-effort class. -/
def Obligations.RemoteRequests : Prop :=
  ((∀ (s : State) (c : Instr) (l : Fin 32) (crc : Bool) (p : Packet), packetOf c = some (l, crc, p) → s.linkUp l = true →
    p.be = true → p.dst ≠ s.ownRank ∨ s.ownRank = selfRank →
    ∃ s', exec c s = .next s' ∧ s'.tiles = s.tiles ∧ sameMemory s s' ∧ s'.entries = s.entries
      ∧ (∀ h rest, p.hops = h :: rest → bit (s.reg FAB_CTRL) 0 = true → (s.rankModule p.dst).isSome = true →
          s.linkUp h = true → s'.sent = s.sent ++ [(h, { p with pos := nextPos p.pos h, hops := rest })])
      ∧ (bit (s.reg FAB_CTRL) 0 = false ∨ p.hops = [] → s'.sent = s.sent ∧ onlyRegs s s'
          ∧ (s'.reg FAB_DISCARD).toNat = min ((s.reg FAB_DISCARD).toNat + 1) (2 ^ 32 - 1)))
  ∧ (∀ (s : State) (c : Instr) (l : Fin 32) (p : Packet), packetOf c = some (l, false, p) → s.linkUp l = true →
    p.be = true → p.dst = s.ownRank → s.ownRank ≠ selfRank →
    ∃ s', exec c s = .next s' ∧ onlyRegs s s' ∧ sameRegsBut s s' [FAB_DISCARD, FAB_EVENT] ∧ bit (s'.reg FAB_EVENT) 5 = true
      ∧ (s'.reg FAB_DISCARD).toNat = min ((s.reg FAB_DISCARD).toNat + 1) (2 ^ 32 - 1))
  ∧ ∀ (s : State) (write : Bool) (l : Fin 32) (p : Packet), s.linkUp l = true → p.be = true → p.dst = s.ownRank →
    s.ownRank ≠ selfRank → p.kind = (if write then 0 else 1) →
    let c : Instr := if write then .write l true p else .read l true p
    let beyond := 4 ≤ p.space ∨ (p.space < 3 ∧ s.spaceEnd p.space < p.offset + 16 * p.len)
    let refused := fun (s' : State) (code : Nat) => sameMemory s s' ∧ s'.tiles = s.tiles ∧ answered s s' p 4 code
      ∧ (s'.reg FAB_WIN_DENY).toNat = min ((s.reg FAB_WIN_DENY).toNat + 1) (2 ^ 32 - 1)
      ∧ fld (s'.reg FAB_WIN_DENY_LAST) 0 13 = p.src % 2 ^ 13 ∧ fld (s'.reg FAB_WIN_DENY_LAST) 16 2 = code
    ∃ s', exec c s = .next s'
      ∧ (beyond → refused s' 1)
      ∧ (¬ beyond → p.space = 3 ∨ (∀ w, w < 64 → s.winPermits w write p.src p.space p.offset (16 * p.len) = false) →
          refused s' 2)
      ∧ (¬ beyond → p.space < 3 → (∃ w, w < 64 ∧ s.winPermits w write p.src p.space p.offset (16 * p.len) = true) →
          s.frame.safe.isSome = true → refused s' 3)
      ∧ (∀ w, p.space = 1 → 0 < p.len → p.data.length = 16 * p.len →
          s.winFor write p.src 1 p.offset (16 * p.len) = some w → s.frame.safe = none → ¬ beyond →
          s.hbmPoison = [] → (∀ m ∈ p.marks, m = .none) →
          s'.spad = s.spad ∧ s'.ddr = s.ddr
          ∧ (write = false → s'.hbm = s.hbm ∧ answered s s' p 3 ((memGet s.hbm p.offset).toNat))
          ∧ (write = true → (∀ x, memGet s'.hbm x = if p.offset ≤ x ∧ x < p.offset + p.data.length
                then p.data.getD (x - p.offset) 0 else memGet s.hbm x)
              ∧ (p.ord = false → answered s s' p 4 0)
              ∧ (p.ord = true → fld (s.reg (FAB_WIN_CFG w)) 2 2 = 1 →
                  let n := s.reg (FAB_WIN_NOTIFY w)
                  fld n 8 10 < s.tileCount → (s'.tile (fld n 8 10)).sigs
                    = (s.tile (fld n 8 10)).sigs ++ [⟨fld n 0 5, 1, none⟩]))))
  ∧ ((∀ (s : State) (c : Instr) (tid code : Nat), completing s c tid code →
    (s.entryOf tid = none → exec c s = .next s)
    ∧ ∀ e, s.entryOf tid = some e → e.pkt.be = true → s.reqWait = [] → (∀ x ∈ s.entries, x.sent = true) →
      ∃ s', exec c s = .next s'
        ∧ (∀ w, e.source = .notify w → s'.entries = s.entries.filter (fun x => x.pkt.tid != tid)
            ∧ { s' with regs := s.regs, entries := s.entries } = s
            ∧ (s'.reg FAB_NOTIFY_NACK).toNat = (if code = 0 then (s.reg FAB_NOTIFY_NACK).toNat
                else min ((s.reg FAB_NOTIFY_NACK).toNat + 1) (2 ^ 32 - 1)))
        ∧ (∀ t d, e.source = .mule t → (s.tile t).mule.sendDest = some d →
            s'.entries = s.entries.filter (fun x => x.pkt.tid != tid) ∧ (s'.tile t).mule.sendDest = none))
  ∧ ∀ s : State,
    (s.reqWait = [] ∨ s.freeTid true = none → exec .tidFreeSend s = .next s)
    ∧ ∀ e rest tid, s.reqWait = e :: rest → s.freeTid true = some tid →
      4096 ≤ tid ∧ tid < 16384 ∧ (∀ x ∈ s.entries, x.pkt.tid ≠ tid)
      ∧ (∀ k, 4096 ≤ k → k < tid → ∃ x ∈ s.entries, x.pkt.tid = k)
      ∧ ∃ s', exec .tidFreeSend s = .next s' ∧ s'.reqWait = rest
        ∧ ∃ x ∈ s'.entries, x.pkt.tid = tid ∧ x.source = e.source ∧ x.pkt.dst = e.pkt.dst)

/-- Scheduled transfers (R306 to R309, R312 to R314). In the slot of its transfer an origin sends the packets that wait
for it and a forwarder those it holds. A packet of a transfer without an entry, or of one that has timed out, is
discarded; a forwarder holds it for its outgoing slot. A packet that is late holds its region for at most FAB_GRACE, or,
on a link that carries no slots, times out at once; a terminal's timeout is a hard event, is counted, and sends a notice
back. -/
def Obligations.ScheduledTransfers : Prop :=
  (∀ (s : State) (l : Fin 32) (xfer : BitVec 16) (twin : Bool) (r : Route), s.frame.released = true →
    (s.transferRoutes xfer.toNat twin).filter (fun r => r.outLink == l.val && r.role != 2) = [r] → s.linkSched l = true →
    ∃ s', exec (.slotSend l xfer twin) s = .next s' ∧ s'.regs = s.regs ∧ s'.tiles = s.tiles ∧ sameMemory s s'
      ∧ (r.role = 0 →
          let mine := fun (e : NetEntry) => !e.pkt.be && !e.sent && e.pkt.xfer == xfer.toNat && e.prog == r.prog
            && e.pkt.twin == twin
          s'.sent = s.sent ++ (s.entries.filter mine).map (fun e => (l.val, { e.pkt with pos := firstPos l }))
          ∧ s'.entries = s.entries.map fun e => if mine e then { e with sent := true } else e)
      ∧ (r.role = 1 →
          let mine := fun (f : Nat × Packet) => f.1 == l.val && f.2.xfer == xfer.toNat && f.2.twin == twin
          s'.sent = s.sent ++ (s.fab.forwards.filter mine).map (fun f => (l.val, { f.2 with pos := nextPos f.2.pos l }))
          ∧ s'.fab.forwards = s.fab.forwards.filter fun f => !mine f))
  ∧ (∀ (s : State) (l : Fin 32) (p : Packet), s.linkUp l = true → p.kind ≠ 3 → p.kind ≠ 4 →
    let entry := (s.transferRoutes p.xfer p.twin).find? fun r => r.inLink == l.val && r.role != 0
    ∃ s', exec (.scheduledArrival l true p) s = .next s'
      ∧ (entry = none ∨ s.fab.timedOut.contains (p.xfer, p.twin) = true → onlyRegs s s'
          ∧ (s'.reg FAB_DISCARD).toNat = min ((s.reg FAB_DISCARD).toNat + 1) (2 ^ 32 - 1))
      ∧ ∀ r, entry = some r → s.fab.timedOut.contains (p.xfer, p.twin) = false → r.role ≠ 2 →
          bit (s.reg FAB_CTRL) 0 = true → (s.rankModule p.dst).isSome = true →
          sameMemory s s' ∧ s'.tiles = s.tiles ∧ (p.xfer, p.twin) ∈ s'.fab.arrived
          ∧ (s.linkSched r.outLink = true → s'.fab.forwards = s.fab.forwards ++ [(r.outLink, p)])
          ∧ (s.linkSched r.outLink = false → s'.fab.forwards = s.fab.forwards
              ∧ s'.fab.notices = s.fab.notices ++ [(l.val, .transfer r.prog r.xfer r.twin)]))
  ∧ ∀ (s : State) (xfer : BitVec 16) (twin : Bool) (ps : Nat) (r : Route),
    (s.transferRoutes xfer.toNat twin).filter s.awaits = [r] → r.role ≠ 0 →
    let region := linkRegion r.inLink
    let held := min ps (fld (s.reg FAB_GRACE) 0 20 * 1000)
    let timedOut := fun (s' : State) => (r.xfer, r.twin) ∈ s'.fab.timedOut ∧ onlyFabric s s'
      ∧ (s'.reg FAB_TIMEOUTS).toNat = min ((s.reg FAB_TIMEOUTS).toNat + 1) (2 ^ 32 - 1)
      ∧ raisedHard s s' ⟨.fabTimeout, region, 0, 0, r.xfer⟩
      ∧ (r.role = 2 → s'.fab.notices = s.fab.notices ++ [(r.inLink, .transfer r.prog r.xfer r.twin)])
    (∃ s', exec (.transferTimeout xfer twin none) s = .next s' ∧ (r.role = 1 ∨ r.role = 2 → timedOut s'))
    ∧ ∃ s', exec (.dueHold xfer twin none ps) s = .next s'
      ∧ (s.linkSched r.inLink = false → r.role = 1 ∨ r.role = 2 → timedOut s')
      ∧ (s.linkSched r.inLink = true → (s'.region region).hold = (s.region region).hold.add (.ofNat held)
          ∧ (s'.reg (CLK_R_HOLD_PS region)).toNat = min ((s.reg (CLK_R_HOLD_PS region)).toNat + held) (2 ^ 32 - 1)
          ∧ sameRegsBut s s' [CLK_R_HOLD_PS region] ∧ { s' with regs := s.regs, regions := s.regions } = s)

/-- Collectives (R332 to R340). A descriptor starts in its cycle of an armed frame of its program and in no other, and
once; a contribution to the own chunk waits for the others; a gathered chunk is written at its place and nowhere else; a
run whose chunks are placed and whose sends are answered ends: it is counted, its count word is written where it counts,
and its semaphore is signalled. -/
def Obligations.CollectivesRun : Prop :=
  (∀ (s : State) (d : Fin 64) (cyc : Nat),
    (s.colReady d cyc = false → exec (.collectiveStart d cyc) s = .next s)
    ∧ (s.colReady d cyc = true → ∃ s', exec (.collectiveStart d cyc) s = .next s'
      ∧ s'.colStarted = s.colStarted ++ [d.val] ∧ (mapFind s'.colls d).isSome = true
      ∧ s.frame.armed = some (colProg (s.colDesc d)) ∧ colEnable (s.colDesc d) = true
      ∧ colStart (s.colDesc d) = cyc ∧ d.val ∉ s.colStarted
      ∧ (colLen (s.colDesc d) = 0 → sameMemory s s' ∧ s'.regs = s.regs)))
  ∧ (∀ (s : State) (c : ColStep) (n : BitVec 64) (bs : List (BitVec 8)) (marks : List Cause) (r : ColRun),
    mapFind s.colls c.desc = some r → c.member < colSize r.words → c.member ≠ r.me →
    (c.step = 1 → colOp r.words ≤ 2 → c.member ∉ r.missing → (∀ q ∈ r.parts, q.member ≠ c.member) →
        r.parts.length + 1 + r.missing.length < colSize r.words →
        ∃ s' r', exec (.colContribution c n bs marks false) s = .next s' ∧ mapFind s'.colls c.desc = some r'
          ∧ r' = { r with parts := r.parts ++ [⟨c.member, n.toNat, bs, marksBytes marks bs.length⟩] }
          ∧ { s' with colls := s.colls } = s)
    ∧ (c.step = 2 → colOp r.words = 3 → r.shadow = none → c.member ∉ r.lost → (∀ g ∈ r.got, g.1 ≠ c.member) →
        let a := colAddr r.words 8 + c.member * colChunk r.words * colBytes (colDtype r.words)
        s.rankLocal (addrRank a) = true → addrSpace a = 1 → addrOff a + bs.length ≤ s.spaceEnd 1 →
        s.hbmPoison = [] → (∀ m ∈ marks, m = .none) →
        ∃ s' r', exec (.colContribution c n bs marks false) s = .next s' ∧ mapFind s'.colls c.desc = some r'
          ∧ r'.got = r.got ++ [(c.member, n.toNat)] ∧ s'.regs = s.regs ∧ s'.spad = s.spad ∧ s'.ddr = s.ddr
          ∧ ∀ x, memGet s'.hbm x = if addrOff a ≤ x ∧ x < addrOff a + bs.length then bs.getD (x - addrOff a) 0
              else memGet s.hbm x))
  ∧ ∀ (s : State) (d : Fin 64) (r : ColRun), mapFind s.colls d = some r →
    (colDone r = false → exec (.collectiveComplete d) s = .next s)
    ∧ (colDone r = true → ∃ s', exec (.collectiveComplete d) s = .next s' ∧ mapFind s'.colls d = none
      ∧ (colCounted r.words = false ∨ 2 < colOp r.words → sameMemory s s' ∧ sameRegsBut s s' [COL_DONE_COUNT]
          ∧ (s'.reg COL_DONE_COUNT).toNat = min ((s.reg COL_DONE_COUNT).toNat + 1) (2 ^ 32 - 1)
          ∧ (colSemEn r.words = false → s'.tiles = s.tiles ∧ s'.dsigs = s.dsigs)
          ∧ (colSemEn r.words = true → 2 ^ 15 ≤ colSem r.words → s'.dsigs = s.dsigs ++ [(colSem r.words % 256, 1)])))

/-! ### Clocks -/

/-- Region clocks (R351 to R356). A powered region holds for a crossing or a full queue and charges the hold; a slip is a
hard event, counted, with its sender and cycle; a droop outside the lockout stretches by half a period and is counted, in
the lockout it charges the time to recovery; one that outlasts HOLDMAX, and a fault of a clock monitor, is a hard event. A
region without power does none of this. The thermal throttle (R360): a report at or above HOT sets level 2, at or above
WARM at least level 1, and one below WARM by more than the hysteresis level 0; the hottest region that counts and its
temperature stand in CLK_THROT_STATUS; level 0 runs at the frame's frequency, level 2 at the program's floor; a rise of
the level sets its event. A region without power makes no report. -/
def Obligations.ClocksAndTemperature : Prop :=
  ((∀ (s : State) (c : Instr) (r : Fin 62) (ps : Nat), c = .crossingHold r ps ∨ c = .queueFullHold r ps →
    (s.regionOn r = true → ∃ s', exec c s = .next s' ∧ (s'.region r).hold = (s.region r).hold.add (.ofNat ps)
      ∧ (s'.reg (CLK_R_HOLD_PS r)).toNat = min ((s.reg (CLK_R_HOLD_PS r)).toNat + ps) (2 ^ 32 - 1)
      ∧ sameRegsBut s s' [CLK_R_HOLD_PS r] ∧ (∀ q, q ≠ r.val → s'.region q = s.region q)
      ∧ { s' with regs := s.regs, regions := s.regions } = s)
    ∧ (s.regionOn r = false → exec c s = .next s))
  ∧ (∀ (s : State) (r sender : Fin 62) (cyc : Nat),
    (s.regionOn r = true → ∃ s', exec (.crossSlip r sender cyc) s = .next s'
      ∧ raisedHard s s' ⟨.crossSlip, r, 0, cyc, sender⟩ ∧ s'.tiles = s.tiles ∧ sameMemory s s'
      ∧ (s'.reg (CLK_R_SLIPS r)).toNat = min ((s.reg (CLK_R_SLIPS r)).toNat + 1) (2 ^ 32 - 1)
      ∧ fld (s'.reg (CLK_R_SLIP_LAST r)) 0 6 = sender ∧ fld (s'.reg (CLK_R_SLIP_LAST r)) 8 24 = cyc % 2 ^ 24
      ∧ bit (s'.reg (CLK_R_EVENT r)) 3 = true ∧ bit (s'.reg CLK_EVENT) 0 = true)
    ∧ (s.regionOn r = false → exec (.crossSlip r sender cyc) s = .next s))
  ∧ (∀ (s : State) (r : Fin 62) (cyc mv ps : Nat),
    let droops := mv + fld (s.reg CLK_DROOP_CFG) 0 8 < s.vcoreFor s.clk.ft
    let lockout := ∃ c, (s.region r).lastStretch = some c ∧ cyc < c + 64
    (s.regionOn r = false ∨ ¬ droops → exec (.droopStretch r cyc mv ps) s = .next s ∧ exec (.clkDroop r cyc mv) s = .next s)
    ∧ (s.regionOn r = true → droops →
      (∃ s', exec (.droopStretch r cyc mv ps) s = .next s' ∧ (∀ q, q ≠ r.val → s'.region q = s.region q)
        ∧ { s' with regs := s.regs, regions := s.regions } = s
        ∧ (¬ lockout → (s'.region r).stretch = (s.region r).stretch.add (.mk' 500000 s.clk.ft)
            ∧ (s'.region r).lastStretch = some cyc ∧ sameRegsBut s s' [CLK_R_STRETCHES r]
            ∧ (s'.reg (CLK_R_STRETCHES r)).toNat = min ((s.reg (CLK_R_STRETCHES r)).toNat + 1) (2 ^ 32 - 1))
        ∧ (lockout → (s'.region r).stretch = (s.region r).stretch.add (.ofNat ps)
            ∧ (s'.region r).lastStretch = (s.region r).lastStretch ∧ sameRegsBut s s' [CLK_R_EVENT r, CLK_EVENT]
            ∧ bit (s'.reg (CLK_R_EVENT r)) 4 = true ∧ bit (s'.reg CLK_EVENT) 2 = true))
      ∧ ∃ s', exec (.clkDroop r cyc mv) s = .next s' ∧ raisedHard s s' ⟨.clkDroop, r, 0, cyc, 0⟩ ∧ s'.tiles = s.tiles
        ∧ sameMemory s s' ∧ bit (s'.reg (CLK_R_EVENT r)) 4 = true ∧ bit (s'.reg (CLK_R_EVENT r)) 5 = true
        ∧ (s'.region r).stretch = (s.region r).stretch.add (.ofNat (fld (s.reg CLK_DROOP_CFG) 8 16 * 1000))))
  ∧ ∀ (s : State) (r : Fin 62) (kind : Fin 3) (dev : BitVec 16) (cyc : Nat),
    (s.regionOn r = true → ∃ s', exec (.clkMon r kind dev cyc) s = .next s'
      ∧ raisedHard s s' ⟨.clkMon, r, 0, cyc, 0⟩ ∧ s'.tiles = s.tiles ∧ sameMemory s s'
      ∧ bit (s'.reg (CLK_R_EVENT r)) kind = true ∧ bit (s'.reg CLK_EVENT) 1 = true
      ∧ (kind = 0 → (s'.reg (CLK_R_MON_WORST r)).toNat = max dev.toNat (s.reg (CLK_R_MON_WORST r)).toNat))
    ∧ (s.regionOn r = false → exec (.clkMon r kind dev cyc) s = .next s))
  ∧ (∀ (s : State) (r : Fin 62) (temp : BitVec 16) (cyc : Nat),
    (s.regionOn r = false → exec (.thermalReport r temp cyc) s = .next s)
    ∧ (s.regionOn r = true → ∃ s', exec (.thermalReport r temp cyc) s = .next s' ∧ s'.reg (CLK_R_TEMP r) = temp.setWidth 32
      ∧ (∀ q, q < 62 → q ≠ r.val → s'.reg (CLK_R_TEMP q) = s.reg (CLK_R_TEMP q))
      ∧ sameRegsBut s s' [CLK_R_TEMP r, CLK_THROT_STATUS, CLK_EVENT] ∧ { s' with regs := s.regs, clk := s.clk } = s
      ∧ let h := s'.hottest
        let cfg := s.reg CLK_THROT_CFG
        let at4 := fun (c : Nat) => 2 ^ 15 + 4 * c
        fld (s'.reg CLK_THROT_STATUS) 8 6 = h % 64 ∧ fld (s'.reg CLK_THROT_STATUS) 16 16 = fld (s'.reg (CLK_R_TEMP h)) 0 16
        ∧ (at4 (fld cfg 8 8) ≤ s'.temp h → s'.clk.level = 2)
        ∧ (s'.temp h < at4 (fld cfg 8 8) → at4 (fld cfg 0 8) ≤ s'.temp h → s'.clk.level = max s.clk.level 1)
        ∧ (s'.temp h < at4 (fld cfg 8 8) → s'.temp h + 4 * fld cfg 16 4 < at4 (fld cfg 0 8) → s'.clk.level = 0)
        ∧ (s'.clk.level ≠ s.clk.level → s'.clk.ft = s.throttled s'.clk.level s.frameF)
        ∧ (s.clk.level < s'.clk.level → bit (s'.reg CLK_EVENT) 3 = true)))

/-! ### Frames and ticks -/

/-- Commit requests (R62 to R64). AT_NEXT_TICK and AT_COUNT leave a request pending, AT_COUNT not for a tick that has
passed (COMMIT_LATE); CANCEL withdraws it and keeps the shadows; NOW is refused with COMMIT_BUSY while frames run, and
else applies every shadow or, where a rule is violated, none. Running and stopping (R59, R61, R67, R458, R482). RUN sets
FRM_CTRL.RUN and starts arming at FRM_START_TICK or at the next tick, and is ignored while NOARM is set, after a failed
boot, and where RUN is set; clearing it stops the walk; SAFE_REQ asks for the safe state at the next tick; the end of a
drain enters it at once under OVR_STOP, with cause 1, and else only ends the drain. -/
def Obligations.CommitsAndRuns : Prop :=
  (∀ s : State,
    exec .atNextTick s = .next { s with frame := { s.frame with commitReq := some .atNextTick } }
    ∧ exec .cancel s = .next { s with frame := { s.frame with commitReq := none } }
    ∧ ((s.reg64 FRM_TICK_LO).toNat < (s.reg64 FRM_COMMIT_AT_LO).toNat →
        exec .atCount s = .next { s with frame := { s.frame with commitReq := some (.atCount (s.reg64 FRM_COMMIT_AT_LO)) } })
    ∧ (∀ c code, c = Instr.atCount ∧ (s.reg64 FRM_COMMIT_AT_LO).toNat ≤ (s.reg64 FRM_TICK_LO).toNat ∧ code = 4
          ∨ c = .now ∧ s.frmState ≠ 0 ∧ s.frmState ≠ 3 ∧ code = 3 →
        ∃ s', exec c s = .next s' ∧ s'.frame.commitReq = none ∧ fld (s'.reg FRM_COMMIT_STATUS) 0 8 = code
          ∧ s'.shadow = s.shadow ∧ s'.routesNext = s.routesNext ∧ sameRegsBut s s' [FRM_COMMIT_STATUS])
    ∧ (s.frmState = 0 ∨ s.frmState = 3 → ∃ s', exec .now s = .next s' ∧ s'.frame.commitReq = none ∧ sameMemory s s'
        ∧ ((fld (s'.reg FRM_COMMIT_STATUS) 0 8 = 0 ∧ s'.shadow = [] ∧ s'.routesNext = none)
          ∨ (fld (s'.reg FRM_COMMIT_STATUS) 0 8 = 2 ∧ s'.shadow = s.shadow ∧ s'.routesNext = s.routesNext
            ∧ sameRegsBut s s' [FRM_COMMIT_STATUS, FRM_COMMIT_ERR, FRM_STATUS] ∧ bit (s'.reg FRM_STATUS) 2 = true))
        ∧ (s.shadow = [] → s.routesNext = none → sameRegsBut s s' [FRM_COMMIT_STATUS])))
  ∧ (∀ s : State,
    let ignored := bit (s.reg DMC_BRING) 0 = true ∨ s.mgmt.dev = 8 ∨ bit (s.reg FRM_CTRL) 0 = true
    let at' := s.reg64 FRM_START_TICK_LO
    (ignored → exec .runStart s = .next s)
    ∧ (¬ ignored → ∃ s', exec .runStart s = .next s' ∧ bit (s'.reg FRM_CTRL) 0 = true ∧ sameRegsBut s s' [FRM_CTRL]
        ∧ s'.frame = { s.frame with
            walking := false
            startAt := if at' = 0 ∨ at'.toNat ≤ (s.reg64 FRM_TICK_LO).toNat then none else some at' }
        ∧ { s' with regs := s.regs, frame := s.frame } = s)
    ∧ (∃ s', exec .runStop s = .next s' ∧ bit (s'.reg FRM_CTRL) 0 = false ∧ sameRegsBut s s' [FRM_CTRL]
        ∧ s'.frame = { s.frame with walking := false, startAt := none } ∧ { s' with regs := s.regs, frame := s.frame } = s)
    ∧ (s.frame.safe = none → exec .safeReq s = .next { s with frame := { s.frame with safeReq := true } })
    ∧ (s.frame.safe.isSome = true → exec .safeReq s = .next s)
    ∧ (s.frame.draining = false ∨ drained s = false → exec .drainComplete s = .next s)
    ∧ (s.frame.draining = true → drained s = true → bit (s.reg FRM_MODE) 1 = false →
        exec .drainComplete s = .next { s with frame := { s.frame with draining := false } })
    ∧ (s.frame.draining = true → drained s = true → bit (s.reg FRM_MODE) 1 = true → s.frame.safe = none →
        ∃ s', exec .drainComplete s = .next s' ∧ s'.frame.draining = false ∧ s'.frame.safe = some 1
          ∧ bit (s'.reg GOS_STATUS) 0 = true ∧ s'.frame.released = false))

/-- The tick (R45, R55, R61, R391): where no tick is due nothing happens; a tick raises FRM_TICK by 1, resolves a pending
AT_NEXT_TICK request, ends the open frame, and with RUN clear or in the safe state arms no program. -/
def Obligations.TickAdvances : Prop :=
  ∀ (s : State) (silent : List (Fin 62)),
    (tickReady s = false → exec (.tick silent) s = .next s)
    ∧ (tickReady s = true → ∃ s', exec (.tick silent) s = .next s' ∧ s'.frame.acquired = true ∧ s'.frame.released = false
      ∧ s'.frame.tickDue = none ∧ s'.pending = s.pending
      ∧ (s.frame.commitReq = none → s'.reg64 FRM_TICK_LO = s.reg64 FRM_TICK_LO + 1)
      ∧ (s.frame.commitReq = some .atNextTick → s.rstJob ≠ 1 → s'.frame.commitReq = none)
      ∧ (s.frame.commitReq = none → bit (s.reg FRM_CTRL) 0 = false → s'.frame.armed = none)
      ∧ (s.frame.safe.isSome = true → s'.frame.armed = none ∧ s'.frame.safe.isSome = true))

/-- The tick tree and holdover (R46, R47, R476, R477). A packet of the tick that follows, in its window, from the
bellwether followed, gives the tick and ends holdover; one with another count sets its error bit and gives none; one on a
link that is not calibrated changes nothing. A window without a packet gives a tick in holdover, and the first sets its
status bit; at FRM_HOLDOVER_LIMIT ticks TICK_LOST enters the safe state with cause 2. -/
def Obligations.TickPacketsAndHoldover : Prop :=
  (∀ (s : State) (l : Fin 32) (p : TickPacket) (e : BitVec 16),
    (s.linkCarries l = false ∨ bit (s.reg (FAB_TDLY l)) 31 = false → exec (.tickPacket l p e) s = .next s)
    ∧ (s.power.mainGood = true → s.linkCarries l = true → bit (s.reg (FAB_TDLY l)) 31 = true → fromBell s p = true →
      s.bellwether = false → s.frame.acquired = true → s.frame.tickDue ≠ some none →
      (e.toInt < -400 ∨ 400 < e.toInt → exec (.tickPacket l p e) s = .next s)
      ∧ (-400 ≤ e.toInt → e.toInt ≤ 400 →
        (p.tick = s.reg64 FRM_TICK_LO + 1 → ∃ s', exec (.tickPacket l p e) s = .next s' ∧ s'.frame.holdover = none
          ∧ s'.frame.tickDue = some (some p.period.toNat) ∧ { s' with frame := s.frame } = s)
        ∧ (p.tick ≠ s.reg64 FRM_TICK_LO + 1 → ∃ s', exec (.tickPacket l p e) s = .next s' ∧ onlyRegs s s'
          ∧ sameRegsBut s s' [FRM_STATUS] ∧ bit (s'.reg FRM_STATUS) 5 = true))))
  ∧ (∀ s : State,
    let waits := s.power.mainGood = true ∧ s.period ≠ 0 ∧ s.frame.acquired = true ∧ s.bellwether = false
      ∧ s.frame.tickDue = none
    (¬ waits → exec .holdoverTick s = .next s)
    ∧ (waits → ∃ s', exec .holdoverTick s = .next s' ∧ s'.frame.holdover = some (s.frame.holdover.getD 0 + 1)
      ∧ s'.frame.tickDue = some none ∧ { s' with regs := s.regs, frame := s.frame } = s ∧ sameRegsBut s s' [FRM_STATUS]
      ∧ (s.frame.holdover = none → bit (s'.reg FRM_STATUS) 3 = true)
      ∧ (s.frame.holdover ≠ none → s'.regs = s.regs)))
  ∧ ∀ s : State,
    let out := ∃ n, s.frame.holdover = some n ∧ (s.reg FRM_HOLDOVER_LIMIT).toNat ≤ n
    (¬ out ∨ s.frame.tickDue.isSome = true ∨ s.frame.safe.isSome = true → exec .tickLost s = .next s)
    ∧ (out → s.frame.tickDue = none → s.frame.safe = none → ∃ s', exec .tickLost s = .next s' ∧ s'.frame.safe = some 2
      ∧ bit (s'.reg FRM_STATUS) 4 = true ∧ bit (s'.reg GOS_STATUS) 0 = true ∧ s'.frame.released = false)

/-! ### The Goose -/

/-- Verdicts (R373 to R376, R390). The verdict of a closed frame is formed once no digest item is awaited: FAILED for an
overrun, a refused frame or a hard event, else SUSPECT for a suspect event, else CORRECTED, else CLEAN; GOS_VERDICT shows
it and GOS_VTICK the frame's tick, its counter counts it, and a verdict that GOS_CFG names enters the safe state with
cause 4. Paired execution (R381, R382, R516): an awaited item of the same tick and program with the same digest is counted
as compared and raises nothing; one with another digest raises PAIR_MISMATCH in its frame; one of another tick or program,
or none at all, raises PAIR_MISSING and is counted; an item or a tap that nothing awaits changes nothing. -/
def Obligations.VerdictsAndDigests : Prop :=
  (∀ s : State,
    (s.closed = none → exec .verdictFormed s = .next s)
    ∧ ∀ c, s.closed = some c →
      (c.waits ≠ [] → exec .verdictFormed s = .next s)
      ∧ (c.waits = [] →
        let has := fun (k : Nat) => ∃ e ∈ c.events, eventClass c e = k
        let failed := c.overrun = true ∨ c.refused.isSome = true ∨ has 3
        let v := fun (n : Nat) => (n = 3 ∧ failed) ∨ (n = 2 ∧ ¬ failed ∧ has 2) ∨ (n = 1 ∧ ¬ failed ∧ ¬ has 2 ∧ has 1)
          ∨ (n = 0 ∧ ¬ failed ∧ ¬ has 2 ∧ ¬ has 1)
        let counts := fun (s' : State) (o : Nat) => (s'.reg o).toNat = min ((s.reg o).toNat + 1) (2 ^ 32 - 1)
        ∃ s', exec .verdictFormed s = .next s' ∧ s'.closed = none ∧ v (fld (s'.reg GOS_VERDICT) 0 2)
          ∧ s'.reg64 GOS_VTICK_LO = c.tick ∧ bit (s'.reg GOS_VERDICT) 2 = c.overrun
          ∧ (v 3 → counts s' GOS_CNT_FAILED) ∧ (v 2 → counts s' GOS_CNT_SUSPECT) ∧ (v 1 → counts s' GOS_CNT_CORR)
          ∧ (s.frame.safe = none → bit c.cfg 16 = true →
              ((v 3 ∧ bit (s.reg GOS_CFG) 0 = true) ∨ ((v 2 ∨ v 3) ∧ bit (s.reg GOS_CFG) 1 = true) →
                s'.frame.safe = some 4 ∧ bit (s'.reg GOS_STATUS) 0 = true)
              ∧ (bit (s.reg GOS_CFG) 0 = false → bit (s.reg GOS_CFG) 1 = false → s'.frame.safe = none))))
  ∧ ((∀ (s : State) (t : Nat) (k : Fin 4) (c : Closed), t < s.tileCount → s.closed = some c →
    ((t, k.val) ∉ c.waits → exec (.pairMissing t k) s = .next s)
    ∧ ((t, k.val) ∈ c.waits → ∃ s' c', exec (.pairMissing t k) s = .next s' ∧ s'.closed = some c'
      ∧ c'.waits = c.waits.erase (t, k.val) ∧ c'.missing = c.missing + 1
      ∧ c'.events = c.events ++ [⟨.pairMissing, 61, 0, 0, 0⟩] ∧ s'.events = s.events ∧ s'.tiles = s.tiles))
  ∧ (∀ (s : State) (d : DigestItem), s.closed = none → exec (.digestItem d) s = .next s)
  ∧ ∀ (s : State) (d : DigestItem) (c : Closed), s.closed = some c →
    let mine := c.waits.find? fun x => s.tapPartner x.1 x.2 == (d.tile, d.tap, d.rank)
    (mine = none → exec (.digestItem d) s = .next s)
    ∧ ∀ t k, mine = some (t, k) →
      let stale := d.tick ≠ c.tick ∨ d.prog ≠ c.prog ∨ d.failed = true
      let same := ∀ w, w < 4 → s.reg (GOS_TAP_DIG t k w) = d.digest.extractLsb' (32 * w) 32
      ∃ s' c', exec (.digestItem d) s = .next s' ∧ s'.closed = some c' ∧ c'.waits = c.waits.erase (t, k)
        ∧ s'.events = s.events
        ∧ (stale → c'.missing = c.missing + 1 ∧ c'.events = c.events ++ [⟨.pairMissing, 61, 0, 0, 0⟩])
        ∧ (¬ stale → c'.compared = c.compared + 1 ∧ c'.missing = c.missing
            ∧ (same → c'.events = c.events ∧ s'.regs = s.regs)
            ∧ (¬ same → d.rank ≠ 0x1FFF → c'.events = c.events ++ [⟨.pairMismatch, 61, 0, 0, 0⟩]
                ∧ (t < 1024 → k < 4 → fld (s'.reg GOS_MISMATCH_LAST) 31 1 = 1 ∧ fld (s'.reg GOS_MISMATCH_LAST) 0 10 = t))))

/-- Ways into the safe state (R385, R388, R390, R391, R451). A tick interval outside its tolerance, or none, raises
TICK_WATCH and enters it with cause 5; a failed self-test raises SELFTEST_FAIL and enters it with cause 7, and a passed
one sets its bit; the loss of GOS_ALIVE enters it with cause 6. In it the open frame has stopped and no tile issues. -/
def Obligations.GooseStops : Prop :=
  (∀ (s : State) (i : Option Nat),
    let p := s.period * 1000
    let tol := 1000000 + p / 2000
    let good := ∃ n, i = some n ∧ p ≤ n + tol ∧ n ≤ p + tol
    (p = 0 ∨ good ∨ s.power.mainGood = false → exec (.tickWatch i) s = .next s)
    ∧ (p ≠ 0 → ¬ good → s.power.mainGood = true → s.frame.safe = none → ∃ s', exec (.tickWatch i) s = .next s'
      ∧ inSafe s' 5 ∧ ∃ e rest, s'.events = s.events ++ e :: rest ∧ e.kind = .tickWatch ∧ e.region = 61))
  ∧ (∀ (s : State) (f : Option (Fin 62)),
    let idle := s.frmState = 0 ∨ s.frmState = 3 ∨ bit (s.reg GOS_STATUS) 1 = true
    (¬ idle → exec (.selftest f) s = .next s)
    ∧ (idle → f = none → ∃ s', exec (.selftest f) s = .next s' ∧ onlyRegs s s' ∧ sameRegsBut s s' [GOS_STATUS]
      ∧ bit (s'.reg GOS_STATUS) 3 = true ∧ bit (s'.reg GOS_STATUS) 2 = false ∧ bit (s'.reg GOS_STATUS) 1 = false)
    ∧ ∀ r, idle → f = some r → ∃ s', exec (.selftest f) s = .next s' ∧ bit (s'.reg GOS_STATUS) 2 = true
      ∧ bit (s'.reg GOS_STATUS) 1 = false ∧ fld (s'.reg GOS_STATUS) 16 6 = r ∧ (s.frame.safe = none → inSafe s' 7))
  ∧ ∀ s : State,
    (s.power.mainGood = false → exec .gooseStop s = .next s)
    ∧ (s.power.mainGood = true → ∃ s', exec .gooseStop s = .next s' ∧ bit (s'.reg MMC_EVENT) 0 = true
      ∧ (s.frame.safe = none → inSafe s' 6))

/-! ### Weight pairs and the shadow restore -/

/-- Weight pairs (R415, R416) and the shadow restore (R407 to R409). A switch to a batch that has started is LATE, one to
a later batch is requested with its copy; a copy that nothing uses any more is released once, with its event, and marks
the frame. START of a restore is refused while another job runs or for a bad place, and else runs; the restore ends with
SHR_ACCESS for a header that could not be read, and with a code and the area in DMC_SHR_STATUS in every case. -/
def Obligations.WeightPairsAndRestore : Prop :=
  (∀ (s : State) (j : Fin 4) (v : BitVec 32),
    let n := (s.reg64 (FRM_WPAIR_FROM_LO j)).toNat
    let started := n ≤ (s.reg64 FRM_WBATCH_COUNT_LO).toNat
    (v.getLsbD 31 = false → exec (.frmWpairSwitch j v) s = .next s)
    ∧ (v.getLsbD 31 = true → ∃ s', exec (.frmWpairSwitch j v) s = .next s'
      ∧ (started → onlyRegs s s' ∧ sameRegsBut s s' [FRM_WPAIR_STATUS j, FRM_WEVENT]
          ∧ fld (s'.reg (FRM_WPAIR_STATUS j)) 8 2 = 2 ∧ bit (s'.reg FRM_WEVENT) (8 + j) = true)
      ∧ (¬ started → { s' with regs := s.regs, wpairs := s.wpairs } = s ∧ sameRegsBut s s' [FRM_WPAIR_STATUS j]
          ∧ fld (s'.reg (FRM_WPAIR_STATUS j)) 8 2 = 1 ∧ bit (s'.reg (FRM_WPAIR_STATUS j)) 1 = v.getLsbD 0
          ∧ bit (s'.reg (FRM_WPAIR_STATUS j)) 0 = bit (s.reg (FRM_WPAIR_STATUS j)) 0
          ∧ (s'.wpair j).fromBatch = n ∧ ∀ k, k ≠ j.val → s'.wpair k = s.wpair k)))
  ∧ (∀ (s : State) (j : Fin 4),
    ((s.wpair j).old = none → exec (.copyReleased j) s = .next s)
    ∧ ∀ b, (s.wpair j).old = some b →
      (s.copyInUse j b = true → exec (.copyReleased j) s = .next s)
      ∧ (s.copyInUse j b = false → ∃ s', exec (.copyReleased j) s = .next s' ∧ (s'.wpair j).old = none
        ∧ bit (s'.reg FRM_WEVENT) j = true ∧ sameRegsBut s s' [FRM_WEVENT] ∧ s'.frame.released4.getLsbD j = true
        ∧ { s' with regs := s.regs, wpairs := s.wpairs, frame := s.frame } = s))
  ∧ (∀ (s : State) (sel : BitVec 2),
    let busy := s.shrState ≠ 0 ∨ s.ctxState ≠ 0 ∨ s.loadState ≠ 0
    let badSrc := fun (lo : Nat) => let a := (s.reg64 lo).toNat
      s.rankLocal (addrRank a) = true ∨ addrSpace a ≠ 2 ∨ a % 64 ≠ 0
    let dst := (s.reg64 DMC_SHR_DST_LO).toNat
    let bad := sel = 3 ∨ s.ownRank = selfRank ∨ badSrc DMC_SHR_SRC0_LO ∨ badSrc DMC_SHR_SRC1_LO
      ∨ s.rankLocal (addrRank dst) = false ∨ 3 ≤ addrSpace dst ∨ dst % 64 ≠ 0 ∨ s.reg DMC_SHR_MAXLEN = 0
    ∃ s', exec (.shrStart sel) s = .next s' ∧ sameRegsBut s s' [DMC_SHR_STATUS]
      ∧ (busy → onlyRegs s s' ∧ fld (s'.reg DMC_SHR_STATUS) 0 8 = 2)
      ∧ (¬ busy → bad → onlyRegs s s' ∧ fld (s'.reg DMC_SHR_STATUS) 0 8 = 3)
      ∧ (¬ busy → ¬ bad → s'.shr = some sel.toNat ∧ s'.shrState = 1 ∧ { s' with regs := s.regs, shr := s.shr } = s))
  ∧ ∀ (s : State) (h0 h1 : ShrLine) (lines : List ShrLine),
    (s.shr = none → exec (.shadowRestoreEnd h0 h1 lines) s = .next s)
    ∧ ∀ sel, s.shr = some sel → ∃ s', exec (.shadowRestoreEnd h0 h1 lines) s = .next s' ∧ s'.shr = none ∧ s'.shrState = 0
      ∧ fld (s'.reg DMC_SHR_STATUS) 0 8 ≠ 0
      ∧ (sel = 0 → h0.ok = false → fld (s'.reg DMC_SHR_STATUS) 0 8 = 4 ∧ s'.reg DMC_SHR_DETAIL = 0 ∧ sameMemory s s')
      ∧ (sel = 0 → h0.ok = true → h1.ok = false → fld (s'.reg DMC_SHR_STATUS) 0 8 = 4
          ∧ s'.reg DMC_SHR_DETAIL = 0x80000000 ∧ sameMemory s s')

/-! ### The register space -/

/-- Accesses to the register space (R14, R34, R36, R37, R201). An unassigned offset or a tile that does not exist answers
ADDR_INVALID; else a master without the right ACCESS_DENIED (a port without the token may write HLK_CLAIM only and read
the HLK window only, the owner neither reads SEC nor writes the MMC window); else a target that is off TARGET_OFF: a
failed access answers 0 and changes nothing more. A plain register takes a write by its access code under its mask. A read
answers the value, latches the upper half after a _LO read, answers the latched half once, and returns an RC register to
its reset value. DBG_PT_DATA answers with the status in DBG_PT_STATUS: ADDR_INVALID, or the element of the tile register
selected. -/
def Obligations.RegisterAccesses : Prop :=
  (∀ (s : State) (m : Master) (off v : BitVec 32) (c : Instr) (w : Bool),
    c = .registerWrite m off v ∧ w = true ∨ (c = .rcRead m off ∨ c = .loReadLatch m off) ∧ w = false →
    let o := off.toNat
    let missing := (regGroupOf o).isNone = true ∨ (0x40000000 ≤ o ∧ s.tileCount ≤ offTile o)
    (missing → exec c s = .next (s.answered 1 0))
    ∧ (¬ missing → s.mayAccess m w o = false → exec c s = .next (s.answered 2 0))
    ∧ (¬ missing → s.mayAccess m w o = true → s.targetOff m o = true →
        (w = true → o < 0x40000000 ∨ o % 0x100000 ≠ 0xA090) →
        exec c s = .next (s.answered 3 0))
    ∧ (∀ p, m = .host p → s.owns p = false → (w = true → o ≠ HLK_CLAIM) → (w = false → inHlk o = false) →
        s.mayAccess m w o = false)
    ∧ (∀ p, m = .host p → s.owns p = true → (inSec o = true ∨ (w = true ∧ inMmc o = true) ↔ s.mayAccess m w o = false)))
  ∧ (∀ (s : State) (m : Master) (off v : BitVec 32) (g : RegGroup),
    let o := off.toNat
    regGroupOf o = some g → o < 0x40000000 → s.accessStatus m true o = stDone → o ≠ DBG_PT_DATA → o ≠ HLK_CLAIM →
    inWindow16 o 0xD 0xE = false → moduleWrite s m o v = none →
    ∃ s', exec (.registerWrite m off v) s = .next s' ∧ s'.regAnswer = (0, 0) ∧ s'.tiles = s.tiles ∧ sameMemory s s'
      ∧ sameRegsBut s s' [o]
      ∧ (g.access = .rw → s'.reg o = (s.reg o &&& ~~~ g.mask) ||| (v &&& g.mask))
      ∧ (g.access = .w1c → s'.reg o = s.reg o &&& ~~~ (v &&& g.mask))
      ∧ (g.access = .sh → s'.shReg o = v ∧ s'.regs = s.regs)
      ∧ (g.access = .ro ∨ g.access = .rc → s' = s.answered 0 0))
  ∧ (∀ (s : State) (m : Master) (off : BitVec 32) (c : Instr) (g : RegGroup), c = .rcRead m off ∨ c = .loReadLatch m off →
    let o := off.toNat
    let key := masterKey m * 2 ^ 32 + o
    regGroupOf o = some g → o < 0x40000000 → s.accessStatus m false o = stDone → o ≠ DBG_PT_DATA →
    ∃ s', exec c s = .next s' ∧ s'.tiles = s.tiles ∧ sameMemory s s'
      ∧ (g.lo = true → s'.regAnswer = (0, regView s o) ∧ mapFind s'.hiLatch (key + 4) = some (regView s (o + 4))
          ∧ s'.regs = s.regs)
      ∧ (g.lo = false → ∀ h, mapFind s.hiLatch key = some h → s'.regAnswer = (0, h) ∧ mapFind s'.hiLatch key = none
          ∧ s'.regs = s.regs)
      ∧ (g.lo = false → mapFind s.hiLatch key = none → s'.regAnswer = (0, regView s o) ∧ s'.hiLatch = s.hiLatch
          ∧ (g.access = .rc → s'.reg o = g.reset ∧ sameRegsBut s s' [o]) ∧ (g.access ≠ .rc → s'.regs = s.regs))
      ∧ (isMeasured o = false → typedView s o = none →
          (g.access = .wo → regView s o = 0) ∧ (g.access = .sh → regView s o = s.shReg o)
          ∧ (g.access ≠ .wo → g.access ≠ .sh → regView s o = s.reg o)))
  ∧ ∀ (s : State) (m : Master) (v : BitVec 32), s.accessStatus m false DBG_PT_DATA = stDone →
    s.accessStatus m true DBG_PT_DATA = stDone → ptInc s = false →
    (ptInvalid s = true → ∀ c, c = Instr.ptDataRead m ∨ c = .ptDataWrite m v → ∃ s', exec c s = .next s'
      ∧ s'.regAnswer = (1, 0) ∧ fld (s'.reg DBG_PT_STATUS) 0 2 = 1 ∧ sameRegsBut s s' [DBG_PT_STATUS]
      ∧ { s' with regs := s.regs, regAnswer := s.regAnswer } = s)
    ∧ (ptTarget s = 1 → ptStatus s m false = stDone →
      let e := mapGet elemReset (s.vec (ptTile s)).treg (ptElem s)
      ∃ s', exec (.ptDataRead m) s = .next s' ∧ s'.regAnswer = (0, e.bits) ∧ fld (s'.reg DBG_PT_STATUS) 0 2 = 0
        ∧ (bit (s'.reg DBG_PT_STATUS) 8 = true ↔ e.cause ≠ .none) ∧ sameRegsBut s s' [DBG_PT_STATUS]
        ∧ { s' with regs := s.regs, regAnswer := s.regAnswer } = s)
    ∧ (ptTarget s = 1 → ptStatus s m true = stDone →
      ∃ s', exec (.ptDataWrite m v) s = .next s' ∧ s'.regAnswer = (0, 0)
        ∧ mapGet elemReset (s'.vec (ptTile s)).treg (ptElem s) = ⟨v, .none⟩
        ∧ (∀ k, k ≠ ptElem s → mapGet elemReset (s'.vec (ptTile s)).treg k = mapGet elemReset (s.vec (ptTile s)).treg k)
        ∧ sameRegsBut s s' [DBG_PT_STATUS] ∧ sameTilesBut s s' [ptTile s] ∧ sameMemory s s')

/-! ### The host link -/

/-- Host packets (R422, R427, R428). On a port that is UP a bad header, a TAG still awaited or an address of another
module or a reserved space is answered with ADDR_INVALID, spaces 0 to 2 of a port that does not own the module with
ACCESS_DENIED, and nothing else changes; a port that is not UP receives nothing. A WRITE stores its bytes and is answered
with DONE, a READ with its data; a WRITE of one register, and a READ of one, act as an access of the port as a master. -/
def Obligations.HostPackets : Prop :=
  (∀ (s : State) (p : Fin 2) (pkt : HostPacket) (reused write : Bool),
    let c : Instr := if write then .hostWrite p pkt reused else .hostRead p pkt reused
    let a := pkt.addr.toNat
    let len := if write then pkt.data.length else pkt.want
    let bad := pkt.kind ≠ (if write then 0 else 1) ∨ pkt.bad = true ∨ reused = true
      ∨ s.rankLocal (addrRank a) = false ∨ 3 < addrSpace a ∨ (addrSpace a = 3 ∧ a % 4 ≠ 0)
      ∨ (addrSpace a < 3 ∧ s.spaceEnd (addrSpace a) < addrOff a + len)
    let ans := fun (s' : State) (code : Nat) =>
      s'.hlk.sent = s.hlk.sent ++ [(p.val, ⟨4, pkt.tag, false, false, 0, 0, BitVec.ofNat 8 code :: List.replicate 15 0, []⟩)]
    (s.portUp p = false → exec c s = .next s)
    ∧ (s.portUp p = true → bad → ∃ s', exec c s = .next s' ∧ ans s' 1 ∧ onlyFabric s { s' with hlk := s.hlk }
        ∧ s'.regs = s.regs)
    ∧ (s.portUp p = true → ¬ bad → addrSpace a < 3 → s.owns p = false → ∃ s', exec c s = .next s' ∧ ans s' 2
        ∧ onlyFabric s { s' with hlk := s.hlk } ∧ s'.regs = s.regs)
    ∧ (s.portUp p = true → ¬ bad → addrSpace a = 1 → s.owns p = true → s.hbmPoison = [] →
        (∀ m ∈ pkt.marks, m = .none) →
        ∃ s', exec c s = .next s' ∧ s'.spad = s.spad ∧ s'.ddr = s.ddr
          ∧ (write = true → ans s' 0 ∧ ∀ x, memGet s'.hbm x = if addrOff a ≤ x ∧ x < addrOff a + pkt.data.length
                then pkt.data.getD (x - addrOff a) 0 else memGet s.hbm x)
          ∧ (write = false → s'.hbm = s.hbm ∧ ∃ bs cs, s'.hlk.sent = s.hlk.sent
                ++ [(p.val, ⟨3, pkt.tag, false, false, 0, 0, bs, cs⟩)] ∧ bs.length = pkt.want
              ∧ ∀ k, k < pkt.want → bs.getD k 0 = memGet s.hbm (addrOff a + k)))
    ∧ (s.portUp p = true → ¬ bad → addrSpace a = 3 → write = true → pkt.data.length = 4 →
        let r := regWrite s (.host p) (addrOff a) (BitVec.ofNat 32 (leNat pkt.data))
        ∃ s', exec c s = .next s' ∧ { s' with hlk := r.1.hlk, fab := r.1.fab } = r.1
          ∧ s'.hlk.sent = r.1.hlk.sent
            ++ [(p.val, ⟨4, pkt.tag, false, false, 0, 0, BitVec.ofNat 8 r.2 :: List.replicate 15 0, []⟩)])
    ∧ (s.portUp p = true → ¬ bad → addrSpace a = 3 → write = false → pkt.want = 4 →
        let r := regRead s (.host p) (addrOff a)
        ∃ s', exec c s = .next s' ∧ { s' with hlk := r.1.hlk, fab := r.1.fab } = r.1
          ∧ (r.2.1 = 0 → s'.hlk.sent = r.1.hlk.sent
              ++ [(p.val, ⟨3, pkt.tag, false, false, 0, 0, leBytes 4 r.2.2.toNat, []⟩)])
          ∧ (r.2.1 ≠ 0 → ∃ q, s'.hlk.sent = r.1.hlk.sent ++ [(p.val, q)] ∧ q.kind = 4 ∧ q.tag = pkt.tag
              ∧ q.data.head? = some (BitVec.ofNat 8 r.2.1))))

/-- The ownership token (R430, R431). A claim is granted where no port owns the token, to its owner, where the owner's
port has been down for HLK_TAKEOVER_US, and where the lease has run out; a grant names the port, raises GEN by 1, records
the old owner with the reason, disables both rings and starts the lease; a claim that is not granted sets CLAIM_DENIED and
nothing else. The owner alone releases and renews. The rings and the ports (R425, R434, R435, R436, R440). The command
ring is enabled with CONS = PROD in the register and in its header, or refused with RING_CFG, or, with a size of 0,
disabled; a sample queues every descriptor from CONS to PROD, or, where there are more than the ring holds, disables the
ring with RING_OVERRUN; where no sub-tick interval applies nothing is sampled. The completion ring is enabled with an
OWNER record, or refused. A port's link is reset. -/
def Obligations.TokenAndRings : Prop :=
  (∀ (s : State) (p : Fin 2),
    let changed := fun (s' : State) (reason : Nat) =>
      s'.reg HLK_OWN_LAST = BitVec.ofNat 32 (s.ownState + 16 * reason) ∧ bit (s'.reg HLK_RING_STATUS) 0 = false
        ∧ bit (s'.reg HLK_CPL_STATUS) 0 = false ∧ bit (s'.reg HLK_EVENT) 1 = true ∧ s'.hlk.queue = []
        ∧ sameRegsBut s s' [HLK_OWN, HLK_OWN_LAST, HLK_RING_STATUS, HLK_CPL_STATUS, HLK_EVENT]
        ∧ { s' with regs := s.regs, hlk := s.hlk } = s
    let lease := fld (s.reg HLK_LEASE_US) 0 20
    let reason := if s.ownState = 0 then some 1 else if s.ownState = p.val + 1 then some 4
      else if (mapFind s.hlk.downAt (s.ownState - 1)).any (fun t => decide (t + fld (s.reg HLK_TAKEOVER_US) 0 16 ≤ s.us)) then
        some 2
      else if 0 < lease ∧ s.hlk.renewAt + lease ≤ s.us then some 3 else none
    (∀ r, reason = some r → ∃ s', exec (.claim p) s = .next s' ∧ s'.ownState = p.val + 1
        ∧ s'.ownGen = (s.ownGen + 1) % 65536 ∧ s'.hlk.renewAt = s.us ∧ changed s' r)
    ∧ (reason = none → ∃ s', exec (.claim p) s = .next s' ∧ onlyRegs s s' ∧ sameRegsBut s s' [HLK_EVENT]
        ∧ s'.reg HLK_EVENT = s.reg HLK_EVENT ||| 1)
    ∧ (s.ownState = p.val + 1 → ∃ s', exec (.release p) s = .next s' ∧ s'.ownState = 0 ∧ s'.ownGen = s.ownGen
        ∧ s'.hlk.renewAt = s.hlk.renewAt ∧ changed s' 5)
    ∧ (s.ownState = p.val + 1 → exec (.renew p) s = .next { s with hlk := { s.hlk with renewAt := s.us } })
    ∧ (s.ownState ≠ p.val + 1 → exec (.release p) s = .next s ∧ exec (.renew p) s = .next s))
  ∧ ((∀ s : State,
    let a := (s.reg64 HLK_RING_BASE_LO).toNat
    let size := fld (s.reg HLK_RING_SIZE) 0 16
    let st := HLK_RING_STATUS
    (∃ s', exec .ringDisable s = .next s' ∧ bit (s'.reg st) 0 = false ∧ s'.hlk = { s.hlk with queue := [] }
      ∧ sameRegsBut s s' [st] ∧ { s' with regs := s.regs, hlk := s.hlk } = s)
    ∧ (size = 0 → exec .ringEnable s = exec .ringDisable s)
    ∧ (size ≠ 0 → ringBad s a size = true → ∃ s', exec .ringEnable s = .next s' ∧ bit (s'.reg st) 0 = false
        ∧ fld (s'.reg st) 4 4 = 2 ∧ sameRegsBut s s' [st] ∧ { s' with regs := s.regs, hlk := s.hlk } = s)
    ∧ (size ≠ 0 → ringBad s a size = false → addrSpace a = 1 → s.hbmPoison = [] →
        let prod := leNat ((List.range 4).map fun k => memGet s.hbm (addrOff a + k))
        ∃ s', exec .ringEnable s = .next s' ∧ bit (s'.reg st) 0 = true ∧ fld (s'.reg st) 4 4 = 1
          ∧ s'.reg HLK_RING_CONS = BitVec.ofNat 32 prod ∧ s'.hlk = { s.hlk with base := a, size := size, queue := [] }
          ∧ s'.spad = s.spad ∧ s'.ddr = s.ddr
          ∧ ∀ x, memGet s'.hbm x = if addrOff a + 8 ≤ x ∧ x < addrOff a + 12
              then memGet s.hbm (x - 8) else memGet s.hbm x)
    ∧ (fld (s.reg FRM_SUBTICK) 0 24 = 0 ∨ s.frame.armed.isSome = true ∨ bit (s.reg st) 0 = false →
        exec .subtickSample s = .next s)
    ∧ (fld (s.reg FRM_SUBTICK) 0 24 ≠ 0 → s.frame.armed = none → bit (s.reg st) 0 = true →
        let prod := leNat (s.spaceRead (addrSpace s.hlk.base) (addrOff s.hlk.base) 4).2.1
        let n := (prod + 2 ^ 32 - (s.reg HLK_RING_CONS).toNat) % 2 ^ 32
        ∃ s', exec .subtickSample s = .next s' ∧ sameMemory s s' ∧ s'.hlk.exec = s.hlk.exec
          ∧ (s.hlk.size < n → bit (s'.reg st) 0 = false ∧ fld (s'.reg st) 4 4 = 3 ∧ bit (s'.reg HLK_EVENT) 2 = true
              ∧ s'.hlk.queue = [] ∧ s'.reg HLK_CPL_SEQ = s.reg HLK_CPL_SEQ + 1)
          ∧ (n ≤ s.hlk.size → s.hlk.exec = none → s'.hlk.queue
              = (List.range n).map (fun i => ((s.reg HLK_RING_CONS).toNat + i) % 2 ^ 32))))
  ∧ (∀ s : State,
    let base := (s.reg64 HLK_CPL_BASE_LO).toNat
    let size := fld (s.reg HLK_CPL_SIZE) 0 16
    let st := HLK_CPL_STATUS
    (∃ s', exec .cplDisable s = .next s' ∧ bit (s'.reg st) 0 = false ∧ onlyRegs s s' ∧ sameRegsBut s s' [st])
    ∧ (base % 64 ≠ 0 → ∃ s', exec .cplEnable s = .next s' ∧ fld (s'.reg st) 4 4 = 2 ∧ onlyRegs s s' ∧ sameRegsBut s s' [st])
    ∧ (base % 64 = 0 → size = 0 → exec .cplEnable s = exec .cplDisable s)
    ∧ (base % 64 = 0 → size ≠ 0 → ∃ s', exec .cplEnable s = .next s' ∧ bit (s'.reg st) 0 = true
        ∧ fld (s'.reg st) 4 4 = 1 ∧ s'.hlk.cplBase = base ∧ s'.hlk.cplSize = size ∧ s'.reg HLK_CPL_SEQ = s.reg HLK_CPL_SEQ + 1
        ∧ sameRegsBut s s' [st, HLK_CPL_SEQ, HLK_CPL_LOST, HLK_EVENT] ∧ s'.tiles = s.tiles ∧ sameMemory s s'))
  ∧ ∀ (s : State) (p : Fin 2), ∃ s', exec (.portRetrain p) s = .next s'
    ∧ s'.linkState (32 + p) = (if bit (s.reg (HLK_PORT_CFG p)) 0 then lkTraining else lkDown) ∧ sameMemory s s'
    ∧ s'.tiles = s.tiles)

/-- Descriptors (R435 to R438). The descriptor at the front of the queue runs while none executes, if the command is its
OP. It leaves the queue and, except for a LOAD or a WAIT_TICK that has to wait, completes: CONS advances in the register
and in the header, and a record is produced for NOTIFY, for a MARK and for every status other than DONE. One whose GEN is
stale, and one with a bad byte, complete with CMD_STALE and CMD_BAD; an uncorrectable error with CMD_MEMORY whatever the
command; a WAIT_TICK completes once its count is reached; a REGW of one pair completes with DONE, or with CMD_REG and the
status of the write; a LOAD that starts waits, and one refused completes with CMD_LOAD. -/
def Obligations.Descriptors : Prop :=
  ∀ (s : State) (num : Nat) (rest : List Nat) (c : Instr) (op : Nat), descCommand c = some op → s.hlk.exec = none →
    s.hlk.queue = num :: rest →
    let r := s.spaceRead (addrSpace s.hlk.base) (addrOff s.hlk.base + 64 + 64 * (num % max 1 s.hlk.size)) 64
    let d := r.2.1
    let notify := descNat d 1 1 % 2 = 1
    let stale := descNat d 2 2 ≠ s.ownGen
    let done := fun (s' : State) (record : Prop) => s'.hlk.exec = none ∧ s'.hlk.queue = rest
      ∧ s'.reg HLK_RING_CONS = (if (s.reg HLK_RING_CONS).toNat = num then BitVec.ofNat 32 (num + 1) else s.reg HLK_RING_CONS)
      ∧ bit (s'.reg HLK_RING_STATUS) 1 = false
      ∧ (record → s'.reg HLK_CPL_SEQ = s.reg HLK_CPL_SEQ + 1)
      ∧ (¬ record → s'.reg HLK_CPL_SEQ = s.reg HLK_CPL_SEQ ∧ s'.hlk.sent = s.hlk.sent)
    ((∃ x ∈ r.2.2, x ≠ .none) → ∃ s', exec c s = .next s' ∧ done s' True)
    ∧ ((∀ x ∈ r.2.2, x = .none) →
      (cmdOp d ≠ op → exec c s = .next s)
      ∧ (cmdOp d = op → stale → ∃ s', exec c s = .next s' ∧ done s' True)
      ∧ (op = 5 → cmdOp d = 5 → ¬ stale → ∃ s', exec c s = .next s' ∧ done s' True)
      ∧ (op = 0 → cmdOp d = 0 → ¬ stale → ∃ s', exec c s = .next s' ∧ done s' notify)
      ∧ (op = 4 → cmdOp d = 4 → ¬ stale → ∃ s', exec c s = .next s' ∧ done s' True
          ∧ (recordLost s = false → ∃ q1 q2, s'.hlk.sent = s.hlk.sent ++ [(s.ownState - 1, q1), (s.ownState - 1, q2)]
              ∧ q1.ord = false ∧ q2.ord = true ∧ q1.data.getD 0 0 = 2 ∧ q1.data.getD 40 0 = 1
              ∧ leNat ((q1.data.drop 24).take 8) = descNat d 8 8 ∧ leNat ((q2.data.drop 8).take 4) = (s.reg HLK_CPL_SEQ).toNat))
      ∧ (op = 3 → cmdOp d = 3 → ¬ stale →
          (descNat d 0x10 8 ≤ (s.reg64 FRM_TICK_LO).toNat → ∃ s', exec c s = .next s' ∧ done s' notify)
          ∧ ((s.reg64 FRM_TICK_LO).toNat < descNat d 0x10 8 → ∃ s' e, exec c s = .next s' ∧ s'.hlk.exec = some e
              ∧ e.num = num ∧ e.wait = .tick (BitVec.ofNat 64 (descNat d 0x10 8)) ∧ s'.hlk.queue = rest
              ∧ bit (s'.reg HLK_RING_STATUS) 1 = true ∧ s'.reg HLK_CPL_SEQ = s.reg HLK_CPL_SEQ))
      ∧ (op = 2 → cmdOp d = 2 → ¬ stale →
          let bad := s.loadState ≠ 0 ∨ loadRequestBad s (descNat d 0x10 8) (descNat d 0x18 4) (descNat d 0x1C 1) = true
          ∃ s', exec c s = .next s' ∧ s'.hlk.queue = rest
            ∧ (bad → s'.load = s.load)
            ∧ (¬ bad → s.load = none → s'.load = some ⟨descNat d 0x10 8, descNat d 0x18 4, descNat d 0x1C 1, none⟩
                ∧ ∃ e, s'.hlk.exec = some e ∧ e.wait = .load)
            ∧ (bad → s.load = none → done s' True))
      ∧ (op = 1 → cmdOp d = 1 → ¬ stale → ∃ s', exec c s = .next s'
          ∧ (descNat d 4 1 = 1 →
              let w := regWrite { r.1 with hlk := { r.1.hlk with queue := rest } } (.host (s.ownState - 1))
                (descNat d 0x10 4) (BitVec.ofNat 32 (descNat d 0x14 4))
              w.1.rstWarm = s.rstWarm → s'.hlk.exec = none ∧ s'.rstWarm = s.rstWarm
                ∧ (addrSpace s.hlk.base = 1 → s'.tiles = w.1.tiles ∧ sameRegsBut w.1 s'
                    [HLK_RING_CONS, HLK_RING_STATUS, HLK_CPL_SEQ, HLK_CPL_LOST, HLK_EVENT])
                ∧ (w.2 ≠ 0 ∨ notify → s'.reg HLK_CPL_SEQ = w.1.reg HLK_CPL_SEQ + 1)
                ∧ (w.2 = 0 → ¬ notify → s'.reg HLK_CPL_SEQ = w.1.reg HLK_CPL_SEQ))))

/-! ### The side-band port -/

/-- The side-band port's addresses and MCTP control (R446, R447). A controller that restarts answers nothing. ENTDAA, and
SETDASA from address 0x4C, assign a dynamic address where none is assigned. Set Endpoint ID with operation 0 or 1 (log 60)
and an endpoint that is neither 0 nor 0xFF takes effect; another is answered with an error and changes nothing. The other
requests of MCTP control tell the endpoint ID, the versions, the message types and the enterprise number. Registers, keys
and events on the side-band port (R447, R449, R455). A controller without firmware does nothing. REG_READ and REG_WRITE of
1 to 12 registers act as accesses of the side-band master and answer with the status of the first that fails; another
number is refused (log 61). KEY_ENROLL fills an empty slot 2 or 3 and is denied else. A state sensor that has changed
since its last report, and the input voltage crossing a threshold, is reported; no other reading is. The board-test port
(R508). With standby power an instruction is selected and its data register stands at TDO: one 0 for BYPASS, the part's
code for IDCODE, the pins for SAMPLE_PRELOAD, which loads the cells, and for EXTEST, which drives the preloaded cells
while main power is off and is a BYPASS while it is on. Nothing else changes. -/
def Obligations.SideBandPort : Prop :=
  (∀ (s : State) (op : BitVec 2) (eid typ : BitVec 8) (a st : BitVec 7),
    (s.sbUp = false → ∀ c, c ∈ [Instr.setEndpointId op eid, .getEndpointId, .getMctpVersionSupport typ,
        .getMessageTypeSupport, .getVendorDefinedMessageSupport, .entdaa a, .setdasa st a] → exec c s = .next s)
    ∧ (s.sbUp = true →
      (op.toNat ≤ 1 → eid ≠ 0 → eid ≠ 0xFF → ∃ s', exec (.setEndpointId op eid) s = .next s'
        ∧ sbSent s s' (.mctp 0 [0, eid, 0]) ∧ s'.eid = eid.toNat ∧ fld (s'.reg MMC_SB) 0 8 = fld (s.reg MMC_SB) 0 8
        ∧ sameRegsBut s s' [MMC_SB] ∧ onlyMgmt s s')
      ∧ (1 < op.toNat ∨ eid = 0 ∨ eid = 0xFF → ∃ s', exec (.setEndpointId op eid) s = .next s'
        ∧ sbSent s s' (.mctp 2 []) ∧ { s' with mgmt := s.mgmt } = s)
      ∧ (∀ c data, (c, data) ∈ [(Instr.getEndpointId, [BitVec.ofNat 8 s.eid, 0, 0]),
            (.getMctpVersionSupport typ, Config.mctpVersions typ.toNat), (.getMessageTypeSupport, Config.mctpTypes),
            (.getVendorDefinedMessageSupport, (leBytes 4 Config.imhalNumber.toNat).reverse)] →
          ∃ s', exec c s = .next s' ∧ sbSent s s' (.mctp 0 data) ∧ { s' with mgmt := s.mgmt } = s)
      ∧ (∀ c, c = Instr.entdaa a ∨ (c = .setdasa st a ∧ st = 0x4C) →
          (bit (s.reg MMC_SB) 7 = false → ∃ s', exec c s = .next s' ∧ fld (s'.reg MMC_SB) 0 7 = a.toNat
            ∧ bit (s'.reg MMC_SB) 7 = true ∧ s'.eid = s.eid ∧ onlyRegs s s' ∧ sameRegsBut s s' [MMC_SB])
          ∧ (bit (s.reg MMC_SB) 7 = true → exec c s = .next s))
      ∧ (st ≠ 0x4C → exec (.setdasa st a) s = .next s)))
  ∧ ((∀ (s : State) (off : BitVec 32) (n sensor v : Nat) (vs : List (BitVec 32)) (k : BitVec 8) (ec hs : List (BitVec 8)),
    s.mmcRuns = false → ∀ c, c ∈ [Instr.regRead off n, .regWrite off vs, .keyEnroll k ec hs,
      .platformEventMessage sensor v] → exec c s = .next s)
  ∧ (∀ (s : State) (off v : BitVec 32) (vs : List (BitVec 32)) (n : Nat), s.mmcRuns = true →
    (n = 0 ∨ 12 < n → ∃ s', exec (.regRead off n) s = .next s' ∧ sbSent s s' (.regs 1 []) ∧ { s' with mgmt := s.mgmt } = s)
    ∧ (vs = [] ∨ 12 < vs.length → ∃ s', exec (.regWrite off vs) s = .next s' ∧ sbSent s s' (.done 1)
        ∧ { s' with mgmt := s.mgmt } = s)
    ∧ (0 < n → n ≤ 12 → ∃ s' code xs, exec (.regRead off n) s = .next s' ∧ s'.mgmt.sent = s.mgmt.sent ++ [.regs code xs]
        ∧ (code = 0 → xs.length = n) ∧ (code ≠ 0 → xs.length < n))
    ∧ (let r := regRead s .sideBand off.toNat
      ∃ s', exec (.regRead off 1) s = .next s' ∧ { s' with mgmt := r.1.mgmt } = r.1
        ∧ s'.mgmt.sent = r.1.mgmt.sent ++ [.regs r.2.1 (if r.2.1 = 0 then [r.2.2] else [])])
    ∧ (let r := regWrite s .sideBand off.toNat v
      ∃ s', exec (.regWrite off [v]) s = .next s' ∧ { s' with mgmt := r.1.mgmt } = r.1
        ∧ s'.mgmt.sent = r.1.mgmt.sent ++ [.done r.2])
    ∧ (∀ s1 w, regWrite s .sideBand off.toNat v = (s1, w) → w ≠ 0 → vs.length ≤ 11 →
        exec (.regWrite off (v :: vs)) s = exec (.regWrite off [v]) s))
  ∧ (∀ (s : State) (k : BitVec 8) (ec hs : List (BitVec 8)), s.mmcRuns = true →
    let free := (k = 2 ∨ k = 3) ∧ mapFind s.mgmt.keys k.toNat = none
    (free → ∃ s', exec (.keyEnroll k ec hs) s = .next s' ∧ sbSent s s' (.done 0) ∧ { s' with mgmt := s.mgmt } = s
      ∧ mapFind s'.mgmt.keys k.toNat = some (ec, hs)
      ∧ (∀ j, j ≠ k.toNat → mapFind s'.mgmt.keys j = mapFind s.mgmt.keys j))
    ∧ (¬ free → ∃ s', exec (.keyEnroll k ec hs) s = .next s' ∧ sbSent s s' (.done 2)
      ∧ { s'.mgmt with sent := s.mgmt.sent } = s.mgmt ∧ { s' with mgmt := s.mgmt } = s))
  ∧ ∀ (s : State) (sensor v : Nat), s.mmcRuns = true →
    let old := mapGet 0 s.mgmt.sensors sensor
    let new := s.sensor sensor v
    let reported := fun (s' : State) => sbSent s s' (.event sensor new (bit (s.reg MMC_SB) 7))
    (s.sensorOn sensor = false → exec (.platformEventMessage sensor v) s = .next s)
    ∧ (s.sensorOn sensor = true → ∃ s', exec (.platformEventMessage sensor v) s = .next s'
      ∧ mapGet 0 s'.mgmt.sensors sensor = new ∧ { s' with mgmt := s.mgmt } = s
      ∧ (8 ≤ sensor → old ≠ new → reported s') ∧ (8 ≤ sensor → old = new → s'.mgmt.sent = s.mgmt.sent)
      ∧ (sensor = 1 → ((old < 40000 ↔ new < 40000) ∧ (old < 60000 ↔ new < 60000) → s'.mgmt.sent = s.mgmt.sent)
          ∧ (¬ ((old < 40000 ↔ new < 40000) ∧ (old < 60000 ↔ new < 60000)) → reported s'))
      ∧ (sensor = 8 → new = fld (s.reg GOS_VERDICT) 0 2) ∧ (sensor = 9 → new = fld (s.reg GOS_STATUS) 8 4)
      ∧ (sensor = 10 → new = fld (s.reg MMC_STATE) 0 3)))
  ∧ (∀ (s : State) (pins cells : List Bool),
    (s.power.p12 = false → ∀ c, c ∈ [Instr.bypass, .idcode, .samplePreload pins cells, .extest pins] →
      exec c s = .next s)
    ∧ (s.power.p12 = true →
      (∃ s', exec .bypass s = .next s' ∧ s'.tap = ⟨.bypass, [false], s.tap.preload, none⟩ ∧ { s' with tap := s.tap } = s)
      ∧ (∃ s', exec .idcode s = .next s' ∧ s'.tap.instr = .idcode ∧ s'.tap.data.length = 32 ∧ s'.tap.preload = s.tap.preload
        ∧ (∀ k, k < 32 → s'.tap.data[k]? = some ((if s.part.stepping = 1 then 0x14E3254F else 0x24E3254F : BitVec 32).getLsbD k))
        ∧ { s' with tap := s.tap } = s)
      ∧ (∃ s', exec (.samplePreload pins cells) s = .next s' ∧ s'.tap = ⟨.samplePreload, pins, cells, none⟩
        ∧ { s' with tap := s.tap } = s)
      ∧ (s.power.seq = .off ∨ s.power.seq = .waiting → ∃ s', exec (.extest pins) s = .next s'
        ∧ s'.tap = ⟨.extest, pins, s.tap.preload, some s.tap.preload⟩ ∧ { s' with tap := s.tap } = s)
      ∧ (s.power.seq = .on → exec (.extest pins) s = exec .bypass s)))

/-! ### Attestation -/

/-- SPDM requests (R463 to R465). GET_VERSION starts the connection afresh, with an empty transcript and no held signature
(log 62), also in standby, as does GET_CAPABILITIES answer; the requests that the device management core answers receive
Busy until it is READY and UnexpectedRequest before the negotiation. NEGOTIATE_ALGORITHMS takes ECDSA P-384 with SHA-384
only; the digest and the portions of the chain are those of slot 0, the only one; GET_MEASUREMENTS without a signature
tells the blocks it asks for. Each request answered joins the transcript. -/
def Obligations.SpdmRequests : Prop :=
  ∀ (s : State) (fields : List (BitVec 8)) (e h : Bool) (slot off len : Nat) (idx : BitVec 8),
    let c := s.mgmt.spdm
    let said := fun (s' : State) (r : SpdmReply) => sbSent s s' (.spdm r)
    let noted := fun (s' : State) (n : Nat) => s'.mgmt.spdm.transcript = c.transcript ++ Config.spdmBytes n fields
    let core : List Instr := [.negotiateAlgorithms e h fields, .getDigests fields, .getCertificate slot off len fields,
      .getMeasurements idx false fields]
    let ready := s.mgmt.dev = 7 ∧ s.power.mainGood = true
    (s.mmcRuns = false → ∀ i, i ∈ core ++ [.getVersion fields, .getCapabilities fields] → exec i s = .next s)
    ∧ (s.mmcRuns = true →
      (∃ s', exec (.getVersion fields) s = .next s' ∧ said s' (.version [0x13]) ∧ { s' with mgmt := s.mgmt } = s
        ∧ s'.mgmt.spdm = ⟨1, Config.spdmBytes 0 fields, none, c.signedAt⟩)
      ∧ (c.state = 0 → ∃ s', exec (.getCapabilities fields) s = .next s' ∧ said s' (.error .unexpectedRequest)
        ∧ s'.mgmt.spdm = c ∧ { s' with mgmt := s.mgmt } = s)
      ∧ (1 ≤ c.state → ∃ s', exec (.getCapabilities fields) s = .next s' ∧ said s' (.capabilities true true true)
        ∧ s'.mgmt.spdm.state = max c.state 2 ∧ noted s' 1 ∧ { s' with mgmt := s.mgmt } = s)
      ∧ (∀ i, i ∈ core → ∀ err, (¬ ready ∧ err = SpdmError.busy ∨ ready ∧ c.state < 2 ∧ err = .unexpectedRequest) →
          ∃ s', exec i s = .next s' ∧ said s' (.error err) ∧ s'.mgmt.spdm = c ∧ { s' with mgmt := s.mgmt } = s)
      ∧ (ready → 2 ≤ c.state → ∃ s', exec (.negotiateAlgorithms e h fields) s = .next s' ∧ { s' with mgmt := s.mgmt } = s
        ∧ (e = true ∧ h = true → said s' (.algorithms true true) ∧ s'.mgmt.spdm.state = 3 ∧ noted s' 2)
        ∧ (¬ (e = true ∧ h = true) → said s' (.error .invalidRequest) ∧ s'.mgmt.spdm = c))
      ∧ (ready → 3 ≤ c.state →
        (∃ s', exec (.getDigests fields) s = .next s' ∧ said s' (.digests [sha384 Config.certChain]) ∧ noted s' 3
          ∧ { s' with mgmt := s.mgmt } = s)
        ∧ (∃ s', exec (.getCertificate slot off len fields) s = .next s' ∧ { s' with mgmt := s.mgmt } = s
          ∧ (slot ≠ 0 ∨ Config.certChain.length ≤ off → said s' (.error .invalidRequest) ∧ s'.mgmt.spdm = c)
          ∧ (slot = 0 → off < Config.certChain.length → noted s' 4 ∧ ∃ part left, said s' (.certificate part left)
              ∧ part = (Config.certChain.drop off).take len ∧ off + part.length + left = Config.certChain.length))
        ∧ (∃ s', exec (.getMeasurements idx false fields) s = .next s'
          ∧ { s' with mgmt := s.mgmt, freeCount := s.freeCount } = s ∧ s'.mgmt.lmsNext = s.mgmt.lmsNext
          ∧ (8 ≤ idx.toNat → idx ≠ 255 → said s' (.error .invalidRequest))
          ∧ (idx.toNat < 8 ∨ idx = 255 → ∃ blocks nonce, said s' (.measurements 7 blocks nonce [])
              ∧ (idx = 0 → blocks = []) ∧ (idx = 255 → blocks.map (·.1) = [1, 2, 3, 4, 5, 6, 7])
              ∧ (0 < idx.toNat → idx.toNat < 8 → blocks.map (·.1) = [idx.toNat])
              ∧ ∀ b ∈ blocks, b = (b.1, s.measurement b.1)))))

/-- Signed answers (R464, R466, R467). A signed request is refused with Busy beyond ten in a second and while the LMS tree
it needs is not complete, and with Unspecified without the PUF or once the LMS key is used up; nothing is then signed.
Else the LMS counter advances by 1 first, both signatures cover the signing prefix and the transcript hash,
SEC_ATTEST_COUNT counts, and the HSS signature with the index before the increment is held for VENDOR_DEFINED_REQUEST.
LMS_FAIL releases nothing and sets its bit; LMS_BUILD begins the next tree once half the active one is used, and completes
it. -/
def Obligations.SignedAnswers : Prop :=
  ∀ (s : State) (fields : List (BitVec 8)) (idx : BitVec 8) (code : BitVec 16) (moved : Bool),
    let q := s.mgmt.lmsNext
    let said := fun (s' : State) (r : SpdmReply) => sbSent s s' (.spdm r)
    let recent := s.mgmt.spdm.signedAt.filter fun t => decide (s.us < t + 1000000)
    let late := 2 ^ 30 ≤ q ∨ bit (s.reg SEC_STATUS) 1 = false
    let refusal := if 10 ≤ recent.length then some SpdmError.busy
      else if late then some .unspecified else if s.mgmt.lmsBuilt < q / 2 ^ 20 then some .busy else none
    (s.mmcRuns = true → s.mgmt.dev = 7 → s.power.mainGood = true → 3 ≤ s.mgmt.spdm.state →
      (∀ i, i = Instr.challenge 0 fields ∨ (i = .getMeasurements idx true fields ∧ (idx.toNat < 8 ∨ idx = 255)) →
        (∀ e, refusal = some e → ∃ s', exec i s = .next s' ∧ said s' (.error e) ∧ s'.mgmt.lmsNext = q ∧ s'.regs = s.regs
            ∧ s'.mgmt.spdm = s.mgmt.spdm)
        ∧ (refusal = none → ∃ s' msg sig nonce, exec i s = .next s' ∧ s'.mgmt.lmsNext = q + 1
            ∧ (s'.reg SEC_ATTEST_COUNT).toNat = min ((s.reg SEC_ATTEST_COUNT).toNat + 1) (2 ^ 32 - 1)
            ∧ sameRegsBut s s' [SEC_ATTEST_COUNT]
            ∧ msg = Config.spdmPrefix (if i = .challenge 0 fields then 5 else 6) ++ sha384 s'.mgmt.spdm.transcript
            ∧ sig = Config.ecdsaSign Config.deviceSecret msg
            ∧ s'.mgmt.spdm.held = some (q, Config.hssSign Config.deviceSecret q msg)
            ∧ s'.mgmt.spdm.signedAt = recent ++ [s.us]
            ∧ (i = .challenge 0 fields → said s' (.challenge (sha384 Config.certChain) nonce sig))
            ∧ (i ≠ .challenge 0 fields → ∃ blocks, said s' (.measurements 7 blocks nonce sig))))
      ∧ (∀ slot, slot ≠ 0 → ∃ s', exec (.challenge slot fields) s = .next s' ∧ said s' (.error .invalidRequest)
          ∧ s'.mgmt.spdm = s.mgmt.spdm)
      ∧ (∀ s' r, exec (.vendorDefinedRequest code) s = .next s' → said s' r →
          (code ≠ 1 → r = .error .unsupportedRequest)
          ∧ (code = 1 → s.mgmt.spdm.held = none → r = .error .unexpectedRequest)
          ∧ (∀ x sig, code = 1 → s.mgmt.spdm.held = some (x, sig) → r = .hss x sig))
      ∧ (∃ s' r, exec (.vendorDefinedRequest code) s = .next s' ∧ said s' r ∧ { s'.mgmt with sent := s.mgmt.sent } = s.mgmt
          ∧ { s' with mgmt := s.mgmt } = s)
      ∧ (refusal = none → ∃ s', exec (.lmsFail moved) s = .next s' ∧ said s' (.error .unspecified)
          ∧ s'.reg SEC_STATUS = s.reg SEC_STATUS ||| 0x10 ∧ s'.mgmt.spdm = s.mgmt.spdm
          ∧ s'.mgmt.lmsNext = (if moved then q + 1 else q) ∧ sameRegsBut s s' [SEC_STATUS]))
    ∧ (s.mgmt.dev = 7 → s.power.mainGood = true →
      (bit (s.reg SEC_STATUS) 2 = true → ∃ s', exec .lmsBuild s = .next s' ∧ bit (s'.reg SEC_STATUS) 2 = false
        ∧ s'.mgmt = { s.mgmt with lmsBuilt := s.mgmt.lmsBuilt + 1 } ∧ sameRegsBut s s' [SEC_STATUS])
      ∧ (bit (s.reg SEC_STATUS) 2 = false → s.mgmt.lmsBuilt < 1023 →
        (s.mgmt.lmsBuilt * 2 ^ 20 + 2 ^ 19 ≤ q → ∃ s', exec .lmsBuild s = .next s' ∧ bit (s'.reg SEC_STATUS) 2 = true
          ∧ onlyRegs s s' ∧ sameRegsBut s s' [SEC_STATUS])
        ∧ (q < s.mgmt.lmsBuilt * 2 ^ 20 + 2 ^ 19 → exec .lmsBuild s = .next s)))

/-! ### Images and the boot -/

/-- Updates of images and records (R450, R452, R460). An image goes into the flash slot of its TYPE that the boot did not
select, and nothing else changes. A record is committed with CFG_DONE, raising its counter to its SVN and adding REVOKE,
or refused with CFG_REFUSED, which leaves counters and revocation bits as they are; while a boot stage runs with CFG_BUSY,
and with CFG_OLD at the latest where its SVN is not above the counter. SVN_COMMIT never lowers a counter. A watchdog reset
restarts the controller, is counted and leaves the main side alone; the side-band safe request and release act with main
power only. -/
def Obligations.ImagesAndController : Prop :=
  (∀ (s : State) (i : List (BitVec 8)), s.power.p12 = true → s.mgmt.down = false → 1 ≤ imgType i → imgType i ≤ 4 →
    ∃ s' slot, exec (.firmwareUpdate i) s = .next s' ∧ slot < 2 ∧ s'.flashImage (imgType i) slot = i
      ∧ (∀ k, k < 2 → mapFind s.mgmt.selected (imgType i) = some k → slot = 1 - k) ∧ { s' with mgmt := s.mgmt } = s
      ∧ { s'.mgmt with flash := s.mgmt.flash } = s.mgmt
      ∧ ∀ typ k, k < 2 → (typ, k) ≠ (imgType i, slot) → s'.flashImage typ k = s.flashImage typ k)
  ∧ (∀ (s : State) (site : Bool), s.mmcRuns = true →
    let typ := if site then 4 else 3
    let slot := (mapFind s.mgmt.selected typ).elim 0 fun k => 1 - k
    let i := s.flashImage typ slot
    ∃ s', exec (.recordCommit site) s = .next s' ∧ fld (s'.reg MMC_CFG_STATUS) 8 1 = typ - 3
      ∧ { s'.mgmt with counters := s.mgmt.counters, revoked := s.mgmt.revoked } = s.mgmt ∧ onlyMgmt s s'
      ∧ (fld (s'.reg MMC_CFG_STATUS) 0 8 = 1 → s'.svnCounter typ = imgSvn i ∧ s.svnCounter typ < imgSvn i ∧ s.imageOk i = true
          ∧ imgSerial i = s.part.serial.toNat ∧ (∀ y, y ≠ typ → s'.svnCounter y = s.svnCounter y)
          ∧ s'.mgmt.revoked = s.mgmt.revoked ||| (if site then 0 else BitVec.ofNat 4 (bodyNat i 0xA 1))
          ∧ sameRegsBut s s' [MMC_CFG_STATUS])
      ∧ (fld (s'.reg MMC_CFG_STATUS) 0 8 ≠ 1 → s'.mgmt = s.mgmt ∧ bit (s'.reg MMC_EVENT) 2 = true
          ∧ sameRegsBut s s' [MMC_CFG_STATUS, MMC_EVENT])
      ∧ (s.booting = true → fld (s'.reg MMC_CFG_STATUS) 0 8 = 2)
      ∧ (s.booting = false → (imgType i = typ ∧ s.imageOk i = true ↔ fld (s'.reg MMC_CFG_STATUS) 0 8 ≠ 3))
      ∧ (imgSvn i ≤ s.svnCounter typ → fld (s'.reg MMC_CFG_STATUS) 0 8 ≠ 1))
  ∧ (∀ s : State, s.mmcRuns = true → ∃ s', exec .svnCommit s = .next s'
      ∧ { s'.mgmt with counters := s.mgmt.counters } = s.mgmt ∧ { s' with mgmt := s.mgmt } = s
      ∧ (∀ typ, s.svnCounter typ ≤ s'.svnCounter typ ∧ (2 < typ → s'.svnCounter typ = s.svnCounter typ))
      ∧ ∀ typ i, typ = 1 ∨ typ = 2 → s.running typ = some i → s'.svnCounter typ = max (s.svnCounter typ) (imgSvn i))
  ∧ (∀ s : State, s.power.p12 = true → ∃ s', exec .watchdogReset s = .next s' ∧ onlyMgmt s s'
      ∧ sameRegsBut s s' [MMC_WDT_RESETS, MMC_EVENT, MMC_STATE] ∧ bit (s'.reg MMC_EVENT) 1 = true
      ∧ (s'.reg MMC_WDT_RESETS).toNat = min ((s.reg MMC_WDT_RESETS).toNat + 1) 65535
      ∧ s'.mgmt.stage = 1 ∧ s'.mgmt.down = true ∧ s'.mgmt.dev = s.mgmt.dev ∧ s'.mgmt.flash = s.mgmt.flash
      ∧ s'.mgmt.counters = s.mgmt.counters ∧ s'.mgmt.revoked = s.mgmt.revoked ∧ s'.sbUp = false)
  ∧ ∀ s : State,
    (s.mmcRuns = false ∨ s.power.mainGood = false → exec .mmcSafeReq s = .next s ∧ exec .ownRelease s = .next s)
    ∧ (s.mmcRuns = true → s.power.mainGood = true →
      (∃ s', exec .mmcSafeReq s = .next s' ∧ bit (s'.reg MMC_EVENT) 3 = true ∧ (s.frame.safe = none → inSafe s' 6)
        ∧ (s.frame.safe.isSome = true → onlyRegs s s' ∧ sameRegsBut s s' [MMC_EVENT]))
      ∧ (∃ s', exec .ownRelease s = .next s' ∧ s'.ownState = 0 ∧ s'.ownGen = s.ownGen
        ∧ s'.reg HLK_OWN_LAST = BitVec.ofNat 32 (s.ownState + 16 * 6) ∧ bit (s'.reg HLK_EVENT) 1 = true
        ∧ { s' with regs := s.regs, hlk := s.hlk } = s))

/-- The boot (R456 to R458, R469, R507). With P12V_SB the slot address is taken, valid where its parity is even and MEMBER
at most 16, and stage 1 starts; a stage other than the present one completes nothing. Stage 1 selects MMC_FW or stops with
FW_FAIL; stage 2 stops with NO_CONFIG where the secure element does not answer or no record qualifies and with FW_FAIL
where no DEV_FW does, and else selects DEV_FW and reaches STANDBY_READY; stage 4 fails with BOOT_FW_SIG where DEV_FW does
not verify again; stage 6 ends at READY, with DMC_BRING telling whether the module may arm. -/
def Obligations.BootStages : Prop :=
  (∀ (s : State) (flock : BitVec 8) (member : BitVec 5) (par : Bool),
    let ones := (List.range 8).countP flock.getLsbD + (List.range 5).countP member.getLsbD + (if par then 1 else 0)
    (s.power.p12 = true → exec (.standbyPowerGood flock member par) s = .next s)
    ∧ (s.power.p12 = false → ∃ s', exec (.standbyPowerGood flock member par) s = .next s' ∧ s'.power.p12 = true
      ∧ s'.mgmt = { s.mgmt with
          stage := 1, down := false, flock := flock, member := member, slotOk := decide (ones % 2 = 0 ∧ member.toNat ≤ 16) }
      ∧ { s' with regs := s.regs, power := s.power, mgmt := s.mgmt } = s ∧ sameRegsBut s s' [MMC_STATE] ∧ s'.mmcState = 0))
  ∧ (∀ (s : State) (stage : Fin 7) (b : BringUp), (stage.val ≠ s.mgmt.stage ∨ 2 < stage.val) →
    stage.val ≠ s.mgmt.dev ∨ s.power.mainGood = false → exec (.bootStageComplete stage b) s = .next s)
  ∧ (∀ (s : State) (b : BringUp), s.mgmt.stage = 1 → ∃ s', exec (.bootStageComplete 1 b) s = .next s' ∧ onlyMgmt s s'
      ∧ sameRegsBut s s' [MMC_STATE] ∧ s'.mgmt.down = false
      ∧ (s.fwSelect 1 = none → s'.mgmt.stage = 4 ∧ s'.mmcState = 6 ∧ s'.running 1 = none)
      ∧ (∀ k, s.fwSelect 1 = some k → s'.mgmt.stage = 2 ∧ s'.mmcState = 1 ∧ s'.running 1 = some (s.flashImage 1 k)
          ∧ s.svnCounter 1 ≤ imgSvn (s.flashImage 1 k) ∧ s.slotVerifies 1 k = true))
  ∧ (∀ (s : State) (b : BringUp), s.mgmt.stage = 2 → ∃ s', exec (.bootStageComplete 2 b) s = .next s'
      ∧ { s' with regs := s.regs, mgmt := s.mgmt, power := s.power } = s ∧ bit (s'.reg SEC_STATUS) 0 = b.seOk
      ∧ (b.seOk = false ∨ (selectRecords s).2 = false → s'.mgmt.stage = 4 ∧ s'.mmcState = 5 ∧ s'.power = s.power)
      ∧ (b.seOk = true → (selectRecords s).2 = true → (selectRecords s).1.fwSelect 2 = none →
          s'.mgmt.stage = 4 ∧ s'.mmcState = 6 ∧ s'.power = s.power)
      ∧ (∀ k, b.seOk = true → (selectRecords s).2 = true → (selectRecords s).1.fwSelect 2 = some k →
          s'.mgmt.stage = 3 ∧ mapFind s'.mgmt.selected 2 = some k
          ∧ (s.power.seq = .off → 2 ≤ s'.mmcState ∧ s'.mmcState ≤ 3)))
  ∧ ∀ (s : State) (b : BringUp), s.power.mainGood = true →
    (s.mgmt.dev = 4 → ∃ s', exec (.bootStageComplete 4 b) s = .next s' ∧ onlyMgmt s s'
      ∧ sameRegsBut s s' [DMC_BOOT, DMC_BOOT_SVN]
      ∧ (∀ k, mapFind s.mgmt.selected 2 = some k → s.slotVerifies 2 k = true → s.svnCounter 2 ≤ imgSvn (s.flashImage 2 k) →
          s'.mgmt.dev = 5 ∧ s'.running 2 = some (s.flashImage 2 k)
          ∧ s'.reg DMC_BOOT_SVN = BitVec.ofNat 32 (imgSvn (s.flashImage 2 k)))
      ∧ (∀ k, mapFind s.mgmt.selected 2 = some k → s.slotVerifies 2 k = false → s'.mgmt.dev = 8
          ∧ fld (s'.reg DMC_BOOT) 8 8 = 2))
    ∧ (s.mgmt.dev = 5 → ∃ s', exec (.bootStageComplete 5 b) s = .next s' ∧ s'.mgmt.dev = 6 ∧ onlyMgmt s s'
      ∧ ∀ l, l < 32 → s'.linkState l = (if s.mgmt.slotOk ∧ bit (s.reg (FAB_LINK_CFG l)) 0 then lkTraining else s.linkState l))
    ∧ (s.mgmt.dev = 6 → b.seOk = true → mapSorted s.regs = true → ∃ s', exec (.bootStageComplete 6 b) s = .next s' ∧ s'.mgmt.dev = 7
      ∧ s'.rstWarm = false ∧ fld (s'.reg DMC_BOOT) 0 4 = 4 ∧ fld (s'.reg DMC_BOOT) 8 8 = (if b.pufOk then 1 else 5)
      ∧ s'.tileCount % 32 = 0 ∧ s'.tileCount ≤ 1024
      ∧ s'.tileCount / 32 = (usedOf (fun n => !b.failedRows.getLsbD n
          && !((s.reg MMC_ROW_EXCL_HI).setWidth 4 ++ s.reg MMC_ROW_EXCL_LO).getLsbD n) s.grade).length
      ∧ (bit (s'.reg DMC_BRING) 3 = true ↔ s'.tileCount = 0) ∧ (bit (s'.reg DMC_BRING) 2 = true ↔ s'.hbmStacks < 7)
      ∧ (bit (s'.reg DMC_BRING) 1 = true ∨ bit (s'.reg DMC_BRING) 2 = true ∨ bit (s'.reg DMC_BRING) 3 = true
          ↔ bit (s'.reg DMC_BRING) 0 = true))

/-! ### Main power -/

/-- Main power is asked for and withdrawn (R452, R492, R493, R497, R500). MAIN_ON is ignored without firmware, within 1 s
of a latched trip and while main power is on or rising, and else starts the stagger delay; STAGGER_EXPIRY acts once the
delay has passed. The converter starts with the first step where every condition of R492 holds, and with P52V alone out of
range the module waits. MAIN_OFF and MAIN_EN_N high enter the safe state with cause 6 and start the falling sequence from
the step reached; the latter is recorded. While main power is off they change what is asked only. -/
def Obligations.PowerRequests : Prop :=
  (∀ s : State,
    let held := s.power.trip.isSome = true ∧ s.us < s.power.tripAt + 1000000
    let up := s.power.seq = .on ∨ s.power.seq = .settled ∨ ∃ k, s.power.seq = .rising k
    (s.mmcRuns = false ∨ held ∨ up → exec .mainOn s = .next s)
    ∧ (s.mmcRuns = true → ¬ held → s.power.seq = .off → ∃ s', exec .mainOn s = .next s' ∧ s'.power.onReq = true
        ∧ s'.power.stagger = false ∧ s'.power.onAt = s.us ∧ s'.power.trip = none ∧ s'.power.seq = .off
        ∧ sameRegsBut s s' [MMC_STATE] ∧ onlyPower s s'))
  ∧ (∀ s : State,
    let ready := s.power.p12 = true ∧ s.mgmt.stage = 3 ∧ s.power.enLow = true ∧ s.power.onReq = true ∧ s.power.trip = none
    let delay := if s.mgmt.slotOk then 20000 * s.mgmt.member.toNat + 2000 * (s.mgmt.flock.toNat % 8) else 334000
    (s.power.onReq = false ∨ s.power.stagger = true ∨ s.us < s.power.onAt + delay → exec .staggerExpiry s = .next s)
    ∧ (s.power.onReq = true → s.power.stagger = false → s.power.onAt + delay ≤ s.us → s.power.seq = .off →
        ∃ s', exec .staggerExpiry s = .next s' ∧ s'.power.stagger = true ∧ onlyPower s s'
          ∧ sameRegsBut s s' [MMC_STATE]
          ∧ (ready → s.power.p52 = true → s'.power.seq = .rising 1 ∧ s'.mmcState = 3)
          ∧ (ready → s.power.p52 = false → s'.power.seq = .waiting ∧ s'.power.waitAt = s.us)
          ∧ (¬ ready → s'.power.seq = .off))
    ∧ (ready → s.power.stagger = true → s.power.seq = .waiting → ∃ s', exec .p52vInRange s = .next s'
        ∧ s'.power.p52 = true ∧ s'.power.seq = .rising 1 ∧ onlyPower s s' ∧ sameRegsBut s s' [MMC_STATE])
    ∧ (∃ s', exec .p52vInRange s = .next s' ∧ s'.power.p52 = true ∧ onlyPower s s')
    ∧ (∃ s', exec .mainEnNLow s = .next s' ∧ s'.power.enLow = true ∧ onlyPower s s'
        ∧ (s.power.seq = .off → s.mayEnable = false → s.power.enLow = true → s'.power.seq = .off)
        ∧ (s.power.seq = .off → ready → s.power.stagger = true → s.power.p52 = true → s'.power.seq = .rising 1)))
  ∧ ∀ (s : State) (c : Instr), c = .mainOff ∧ s.mmcRuns = true ∨ c = .mainEnNHigh →
    ∃ s', exec c s = .next s'
      ∧ (c = .mainOff → s'.power.onReq = false ∧ s'.power.stagger = false ∧ s'.power.enLow = s.power.enLow)
      ∧ (c = .mainEnNHigh → s'.power.enLow = false ∧ s'.power.onReq = s.power.onReq)
      ∧ (∀ k, s.power.seq = .rising k ∨ ((s.power.seq = .on ∨ s.power.seq = .settled) ∧ k = 5) →
          s'.power.seq = .falling k ∧ s'.power.mainGood = false ∧ s'.frame.safe.isSome = true
          ∧ (s.frame.safe = none → s'.frame.safe = some 6) ∧ bit (s'.reg MMC_STATE) 4 = false
          ∧ s'.power.lastOff = (if c = .mainOff then 0 else 1))
      ∧ (s.power.seq = .waiting → s'.power.seq = .off)
      ∧ (s.power.seq = .off ∨ (∃ k, s.power.seq = .falling k) → s'.power.seq = s.power.seq ∧ onlyPower s s' ∧ s'.regs = s.regs)

/-- The order of the rails, and trips (R483, R484, R496 to R500). Rails rise step by step; after the fifth MAIN_POWER_GOOD
asserts PWRGD_MAIN and MAIN_GOOD and stage 4 starts; they fall in reverse order, and below the first main-side state is
lost while the standby state stays. A rail that misses its window trips with SEQ_FAIL; a wait for P52V of 1 s with IN_OV
or IN_UV; of several trips that can hold the lowest is recorded in GOS_REC_PWR and latched, and main power is gone. A
second trip while one is latched changes nothing but for SB_UV. Cold power-on loses the rest and keeps keys, counters,
revocation and flash. -/
def Obligations.RailsAndTrips : Prop :=
  (∀ s : State,
    (∀ k, s.power.seq = .rising k → exec .railStep s
        = .next { s with power := { s.power with seq := if k < 5 then .rising (k + 1) else .settled } })
    ∧ ((∀ k, s.power.seq ≠ .rising k) → exec .railStep s = .next s ∧ exec .seqFail s = .next s)
    ∧ (s.power.seq ≠ .settled → exec .mainPowerGood s = .next s)
    ∧ (s.power.seq = .settled → ∃ s', exec .mainPowerGood s = .next s' ∧ s'.power.seq = .on ∧ s'.power.mainGood = true
        ∧ bit (s'.reg MMC_STATE) 4 = true ∧ s'.reg DMC_BOOT = 1 ∧ s'.mgmt.dev = 4 ∧ s'.clk.mv = s.vfTrim 0
        ∧ s'.reg PWR_EVENT = BitVec.ofNat 32 s.power.lastOff
        ∧ s'.reg FAB_IDENT = BitVec.ofNat 32 (s.mgmt.flock.toNat + s.mgmt.member.toNat * 256
            + (if s.mgmt.slotOk then 2 ^ 31 else 0))
        ∧ ∀ p, p < 2 → bit (s.reg (HLK_PORT_CFG p)) 0 = true → s'.linkState (32 + p) = lkTraining)
    ∧ (∀ k, s.power.seq = .falling k → 1 < k → exec .powerDownStep s
        = .next { s with power := { s.power with seq := .falling (k - 1) } })
    ∧ (s.power.seq = .falling 1 → ∃ s', exec .powerDownStep s = .next s' ∧ s'.mgmt.dev = 0 ∧ s'.tiles = [] ∧ s'.hbm = []
        ∧ s'.ddr = [] ∧ s'.spad = [] ∧ s'.frame = Frame.reset ∧ s'.power.mainGood = false
        ∧ s'.mgmt.counters = s.mgmt.counters ∧ s'.mgmt.flash = s.mgmt.flash ∧ s'.reg GOS_REC_SAFE = s.reg GOS_REC_SAFE
        ∧ s'.reg FRM_PERIOD = 0 ∧ s'.reg DMC_IDENT = BitVec.ofNat 32 s.part.stepping)
    ∧ ((∀ k, s.power.seq ≠ .falling k) → exec .powerDownStep s = .next s))
  ∧ (∀ (s s' : State) (c : Instr) (code : Nat), s.power.p12 = true → s.power.trip = none →
    (∃ k, s.power.seq = .rising k ∧ c = .seqFail ∧ code = 0x0B)
      ∨ (s.power.seq = .waiting ∧ s.power.waitAt + 1000000 ≤ s.us
          ∧ (c = .inputWaitExpiry true ∧ code = 1 ∨ c = .inputWaitExpiry false ∧ code = 2))
      ∨ (∃ codes, c = .protectionTrip codes ∧ (codes.filter s.tripPossible).min? = some code
          ∧ (0x0D ∈ codes → code = 0x0D)) →
    exec c s = .next s' →
      s'.reg GOS_REC_PWR = BitVec.ofNat 32 code ∧ s'.power.trip = some code ∧ s'.power.tripAt = s.us
      ∧ s'.power.seq = .off ∧ s'.power.mainGood = false ∧ s'.power.onReq = false ∧ bit (s'.reg MMC_STATE) 4 = false
      ∧ s'.tiles = [] ∧ s'.hbm = [] ∧ s'.frame = Frame.reset ∧ s'.mgmt.counters = s.mgmt.counters
      ∧ s'.mgmt.flash = s.mgmt.flash ∧ s'.power.p12 = decide (code ≠ 0x0D))
  ∧ (∀ (s : State) (codes : List Nat) (high : Bool),
    (∃ s', exec .seqFail s = .next s') ∧ (∃ s', exec (.inputWaitExpiry high) s = .next s')
    ∧ (∃ s', exec (.protectionTrip codes) s = .next s')
    ∧ (s.power.seq ≠ .waiting ∨ s.us < s.power.waitAt + 1000000 → exec (.inputWaitExpiry high) s = .next s)
    ∧ (s.power.p12 = false ∨ codes.filter s.tripPossible = [] ∨ (s.power.trip.isSome = true ∧ 0x0D ∉ codes) →
        exec (.protectionTrip codes) s = .next s))
  ∧ ∀ (s : State) (p52 : Bool), ∃ s', exec (.coldPowerOn p52) s = .next s' ∧ s'.tiles = [] ∧ s'.hbm = [] ∧ s'.ddr = []
    ∧ s'.power = { Power.reset with p52 := p52, enLow := s.power.enLow } ∧ s'.frame = Frame.reset ∧ s'.part = s.part
    ∧ s'.mgmt.stage = 0 ∧ s'.mgmt.dev = 0 ∧ s'.mgmt.flash = s.mgmt.flash ∧ s'.mgmt.keys = s.mgmt.keys
    ∧ s'.mgmt.counters = s.mgmt.counters ∧ s'.mgmt.revoked = s.mgmt.revoked ∧ s'.mgmt.lmsNext = s.mgmt.lmsNext
    ∧ sameRegsBut State.reset s' [DMC_IDENT] ∧ s'.pending = s.pending

/-! ### The hall -/

/-- Candidates and bellwethers (R473, R478, R479). A packet with candidates on a link that carries flits leaves the two
lowest of those known, the module's own among them, and restarts the 10 ms of an unchanged view; in stage 3 a settled view
makes the lowest the bellwether and the second the deputy; ELECT acts on the bellwether only; a deputy that has missed two
ticks takes over and ends its holdover; at the tick count named the winner of an election becomes bellwether. -/
def Obligations.HallElects : Prop :=
  (∀ (s : State) (l : Fin 32) (cs : List Cand), s.power.mainGood = false ∨ s.linkCarries l = false →
    exec (.candidateExchange l cs) s = .next s)
  ∧ (∀ (s : State) (l : Fin 32) (c : Cand), s.power.mainGood = true → s.linkCarries l = true →
    s.cands = [s.ownCand] → c ≠ s.ownCand → c.rank ≠ s.ownCand.rank →
    exec (.candidateExchange l [c]) s = .next { s with
      cands := if lowerCand c.rank s.ownCand.rank then [c, s.ownCand] else [s.ownCand, c]
      viewAt := s.us })
  ∧ (∀ (s : State) (l : Fin 32) (cs : List Cand), ∃ s', exec (.candidateExchange l cs) s = .next s'
    ∧ { s' with cands := s.cands, viewAt := s.viewAt } = s ∧ (s'.cands = s.cands → s'.viewAt = s.viewAt)
    ∧ (s'.cands ≠ s.cands → s'.viewAt = s.us ∧ s'.cands.length ≤ 2))
  ∧ (∀ s : State,
    (s.power.mainGood = false ∨ s.us < s.viewAt + 10000 → exec .electionSettle s = .next s)
    ∧ (∀ c rest, s.power.mainGood = true → s.viewAt + 10000 ≤ s.us → s.hallStage = 3 → s.cands = c :: rest →
        s.ownCand ∈ s.cands → s.cands.length ≤ 2 → lowerCand s.ownCand.rank c.rank = false → ∃ s', exec .electionSettle s = .next s'
          ∧ s'.reg FAB_BELL = BitVec.ofNat 32 (c.flock.toNat + c.member.toNat * 256 + c.prio.toNat * 65536 + 2 ^ 31)
          ∧ fld (s'.reg FAB_HALL_STATUS) 4 2 = (if c = s.ownCand then 1 else 2) ∧ 4 ≤ s'.hallStage
          ∧ s'.tiles = s.tiles ∧ sameMemory s s')
    ∧ (s.bellwether = false → exec .elect s = .next s)
    ∧ (s.bellwether = true → exec .elect s = .next { s with electing := true, cands := [s.ownCand], viewAt := s.us }))
  ∧ ∀ s : State,
    let role := fld (s.reg FAB_HALL_STATUS) 4 2
    let missed := s.frame.holdover.getD 0
    (role ≠ 2 ∨ missed < 2 ∨ s.frame.safe.isSome = true → exec .takeover s = .next s)
    ∧ (role = 2 → 2 ≤ missed → s.frame.safe = none → ∃ s', exec .takeover s = .next s'
        ∧ fld (s'.reg FAB_HALL_STATUS) 4 2 = 1 ∧ fld (s'.reg FAB_HALL_STATUS) 16 4 = 0 ∧ bit (s'.reg FAB_HALL_EVENT) 0 = true
        ∧ s'.frame = { s.frame with holdover := none, tickDue := none, parent := none }
        ∧ s'.reg FAB_BELL = BitVec.ofNat 32 (s.ownFlock + s.ownMember * 256 + fld (s.reg MMC_SITE) 0 8 * 65536 + 2 ^ 31)
        ∧ { s' with regs := s.regs, frame := s.frame } = s)
    ∧ (s.frame.handover = 0 ∨ (s.reg64 FRM_TICK_LO).toNat < s.frame.handover.toNat ∨ s.cands = [] →
        exec .handover s = .next s)
    ∧ (∀ c rest, s.frame.handover ≠ 0 → s.frame.handover.toNat ≤ (s.reg64 FRM_TICK_LO).toNat → s.cands = c :: rest →
        ∃ s', exec .handover s = .next s' ∧ s'.frame.handover = 0 ∧ bit (s'.reg FAB_HALL_EVENT) 1 = true
          ∧ (fld (s'.reg FAB_HALL_STATUS) 4 2 = 1 ↔ c = s.ownCand) ∧ s'.frame.tickDue = none
          ∧ { s' with regs := s.regs, frame := s.frame } = s)

/-! ### Resets -/

/-- Requests for resets (R485, R486). A job request is accepted unless a warm or a job reset or a running row reset is in
the way, and a row request only while no reset is; bits of rows that do not exist count for nothing, and a request without
a row is none. One that is not accepted sets IGNORED and changes nothing else. A warm reset is accepted always, with main
power on, except while one runs; it starts stages 4 to 6 again, supersedes the others, leaves the safe state and the
token, and, with no operation under way, keeps HBM, DDR5 and the scratchpad. The job reset and the end of a tile-row reset
(R484 to R486). Both act where one is due only. The job reset ends stopped units and programs: the FRM program registers
and device semaphores return to their reset values, no program is armed, the safe state is left but for causes 5 and 7,
the clocks of the frame, the ownership token and, with no operation under way, the memories stay, and LAST reads JOB. The
row reset ends with its rows released and LAST TILE_ROW. -/
def Obligations.Resets : Prop :=
  ((∀ s : State,
    let way := s.rstWarm = true ∨ s.rstJob ≠ 0 ∨ s.reg DMC_ROWRST_STATUS ≠ 0
    (way → ∃ s', exec .job s = .next s' ∧ onlyRegs s s' ∧ sameRegsBut s s' [DMC_RESET_STATUS]
      ∧ s'.reg DMC_RESET_STATUS = s.reg DMC_RESET_STATUS ||| 8)
    ∧ (¬ way → ∃ s', exec .job s = .next s' ∧ s'.rstJob = 1 ∧ bit (s'.reg DMC_RESET_STATUS) 0 = true
      ∧ { s' with regs := s.regs, rstJob := s.rstJob } = s ∧ sameRegsBut s s' [DMC_RESET_STATUS]))
  ∧ (∀ (s : State) (rows : BitVec 32),
    let named := rows.toNat % 2 ^ (s.tileCount / 32)
    let way := s.rstWarm = true ∨ s.rstJob ≠ 0 ∨ s.rstRows ≠ 0 ∨ s.reg DMC_ROWRST_STATUS ≠ 0
    (named = 0 → exec (.dmcRowrst rows) s = .next s)
    ∧ (named ≠ 0 → way → ∃ s', exec (.dmcRowrst rows) s = .next s' ∧ onlyRegs s s' ∧ sameRegsBut s s' [DMC_RESET_STATUS]
      ∧ s'.reg DMC_RESET_STATUS = s.reg DMC_RESET_STATUS ||| 8)
    ∧ (named ≠ 0 → ¬ way → ∃ s', exec (.dmcRowrst rows) s = .next s' ∧ s'.rstRows = BitVec.ofNat 32 named
      ∧ bit (s'.reg DMC_RESET_STATUS) 0 = true ∧ { s' with regs := s.regs, rstRows := s.rstRows } = s
      ∧ sameRegsBut s s' [DMC_RESET_STATUS]))
  ∧ ∀ (s : State) (c : Instr), c = .warm ∧ s.power.mainGood = true ∨ c = .warmReset ∧ s.mmcRuns = true ∧ s.power.mainGood = true →
    (s.rstWarm = true → ∃ s', exec c s = .next s' ∧ onlyRegs s s' ∧ sameRegsBut s s' [DMC_RESET_STATUS]
      ∧ s'.reg DMC_RESET_STATUS = s.reg DMC_RESET_STATUS ||| 8)
    ∧ (s.rstWarm = false → ∃ s', exec c s = .next s' ∧ s'.rstWarm = true ∧ s'.rstJob = 0 ∧ s'.rstRows = 0
      ∧ s'.mgmt.dev = 4 ∧ s'.reg DMC_BOOT = 1 ∧ bit (s'.reg DMC_RESET_STATUS) 0 = true
      ∧ s'.frame = Frame.reset ∧ s'.hlk.queue = [] ∧ s'.hlk.exec = none ∧ s'.reg HLK_OWN = 0
      ∧ s'.reg FRM_PERIOD = 0 ∧ bit (s'.reg FAB_CTRL) 0 = false ∧ s'.shadow = [] ∧ s'.routes = []
      ∧ s'.power = s.power ∧ s'.mgmt.counters = s.mgmt.counters
      ∧ (s.loadState = 0 → s.shr = none → s.colls = [] → s'.spad = s.spad ∧ s'.hbm = s.hbm ∧ s'.ddr = s.ddr)))
  ∧ ((∀ s : State,
    (s.rstJob ≠ 2 → exec .jobResetRun s = .next s)
    ∧ (s.rstJob = 2 → s.rstWarm = false → ∃ s', exec .jobResetRun s = .next s' ∧ s'.rstJob = 0
      ∧ fld (s'.reg DMC_RESET_STATUS) 1 2 = 2 ∧ s'.frame.armed = none ∧ s'.frame.released = false
      ∧ s'.frame.commitReq = none ∧ bit (s'.reg FRM_CTRL) 0 = false ∧ s'.routes = [] ∧ s'.colls = []
      ∧ (∀ n, n < 256 → s'.dsem n = 0) ∧ (∀ n, n < 64 → s'.reg (DMC_SLOT n) = 0)
      ∧ s'.reg FRM_PERIOD = s.reg FRM_PERIOD ∧ s'.reg FRM_TICK_LO = s.reg FRM_TICK_LO ∧ s'.reg HLK_OWN = s.reg HLK_OWN
      ∧ (s.loadState = 0 → s.shr = none → s.colls = [] → sameMemory s s' ∧ s'.fab = s.fab)
      ∧ (s.frame.safe = some 5 ∨ s.frame.safe = some 7 → s'.frame.safe = s.frame.safe)
      ∧ (s.frame.safe ≠ some 5 → s.frame.safe ≠ some 7 → s'.frame.safe = none ∧ bit (s'.reg GOS_STATUS) 0 = false)
      ∧ ∀ t, t < s.tileCount → (∀ n, n < 32 → s'.sem t n = 0) ∧ (s'.tile t).mule.state = .halted
          ∧ (s'.tile t).mule.inbox = [] ∧ (s'.tile t).mule.imem = (s.tile t).mule.imem
          ∧ fld (s'.reg (MSG_EPOCH t)) 0 8 = (if fld (s.reg (MSG_EPOCH t)) 0 8 = 255 then 1
              else fld (s.reg (MSG_EPOCH t)) 0 8 + 1)))
  ∧ ∀ s : State,
    let rows := s.reg DMC_ROWRST_STATUS
    (rows = 0 → exec .rowResetEnd s = .next s)
    ∧ (rows ≠ 0 → ∃ s', exec .rowResetEnd s = .next s' ∧ s'.reg DMC_ROWRST_STATUS = 0
      ∧ fld (s'.reg DMC_RESET_STATUS) 1 2 = 3 ∧ sameRegsBut s s' [DMC_ROWRST_STATUS, DMC_RESET_STATUS] ∧ onlyTilesRegs s s'
      ∧ ∀ t, t < s.tileCount → s'.tile t = { s.tile t with
          inReset := if bit rows (t / 32) then false else (s.tile t).inReset }))
end

