-- ==== Sys2Proof/Laws/Map.lean ====
section
/-! SUPPORT. Laws of the sparse maps: what a map reads after each update, and that every update keeps the
canonical form. -/

namespace Sys2Proof.Machine

variable {α : Type}

/-! ### Reads -/

@[simp] theorem mapFind_nil (k : Nat) : mapFind ([] : SMap α) k = none := rfl

theorem mapFind_cons (k' : Nat) (v : α) (t : SMap α) (k : Nat) :
    mapFind ((k', v) :: t) k = if k' = k then some v else mapFind t k := rfl

theorem mapFind_mapPut (m : SMap α) (k : Nat) (v : α) (k' : Nat) :
    mapFind (mapPut m k v) k' = if k' = k then some v else mapFind m k' := by
  induction m with
  | nil => simp [mapPut, mapFind_cons, eq_comm]
  | cons e t ih =>
    obtain ⟨a, b⟩ := e
    simp only [mapPut]
    by_cases h1 : k < a
    · simp [h1, mapFind_cons, eq_comm]
    · by_cases h2 : a = k
      · subst h2
        by_cases h3 : k' = a
        · subst h3; simp [mapFind_cons]
        · simp [mapFind_cons, h3, Ne.symm h3]
      · by_cases h3 : a = k'
        · subst h3; simp [h1, h2, mapFind_cons]
        · simp [h1, h2, h3, mapFind_cons, ih]

theorem mapFind_filter (m : SMap α) (p : Nat → Bool) (k : Nat) :
    mapFind (m.filter fun e => p e.1) k = if p k then mapFind m k else none := by
  induction m with
  | nil => simp
  | cons e t ih =>
    obtain ⟨a, b⟩ := e
    rw [List.filter_cons]
    by_cases hk : a = k
    · subst hk
      cases hp : p a <;> simp_all [mapFind_cons]
    · cases hp : p a <;> simp_all [mapFind_cons]

theorem mapFind_mapDel (m : SMap α) (k k' : Nat) :
    mapFind (mapDel m k) k' = if k' = k then none else mapFind m k' := by
  have h := mapFind_filter m (fun x => x != k) k'
  simp only [mapDel]
  rw [h]
  by_cases hk : k' = k <;> simp [hk]

theorem mapFind_mapClear (m : SMap α) (p : Nat → Bool) (k : Nat) :
    mapFind (mapClear m p) k = if p k then none else mapFind m k := by
  have h := mapFind_filter m (fun x => !p x) k
  simp only [mapClear]
  rw [h]
  by_cases hk : p k <;> simp [hk]

/-- A map reads what was written to it, and elsewhere what it read before. -/
theorem mapGet_mapSet [DecidableEq α] (d : α) (m : SMap α) (k : Nat) (v : α) (k' : Nat) :
    mapGet d (mapSet d m k v) k' = if k' = k then v else mapGet d m k' := by
  unfold mapGet mapSet
  split_ifs with h1 h2 h2 <;> simp [mapFind_mapDel, mapFind_mapPut, h1, h2]

@[simp] theorem mapGet_mapSet_same [DecidableEq α] (d : α) (m : SMap α) (k : Nat) (v : α) :
    mapGet d (mapSet d m k v) k = v := by simp [mapGet_mapSet]

theorem mapGet_mapSet_ne [DecidableEq α] (d : α) (m : SMap α) {k k' : Nat} (v : α) (h : k' ≠ k) :
    mapGet d (mapSet d m k v) k' = mapGet d m k' := by simp [mapGet_mapSet, h]

/-- As `mapGet_mapSet_ne`, where the map is read and written with different defaults. -/
theorem mapGet_mapSet_other [DecidableEq α] {d d' : α} (m : SMap α) {k k' : Nat} (v : α) (h : k' ≠ k) :
    mapGet d' (mapSet d m k v) k' = mapGet d' m k' := by
  unfold mapGet mapSet
  split_ifs <;> simp [mapFind_mapDel, mapFind_mapPut, h]

@[simp] theorem mapGet_nil (d : α) (k : Nat) : mapGet d ([] : SMap α) k = d := rfl

theorem mapGet_mapPut (d : α) (m : SMap α) (k : Nat) (v : α) (k' : Nat) :
    mapGet d (mapPut m k v) k' = if k' = k then v else mapGet d m k' := by
  unfold mapGet
  rw [mapFind_mapPut]
  split_ifs <;> rfl

theorem mapGet_mapDel (d : α) (m : SMap α) (k k' : Nat) :
    mapGet d (mapDel m k) k' = if k' = k then d else mapGet d m k' := by
  unfold mapGet
  rw [mapFind_mapDel]
  split_ifs <;> rfl

/-! ### The canonical form -/

/-- Every key of a map exceeds `k`. -/
def keysAbove (m : SMap α) (k : Nat) : Prop := ∀ e ∈ m, k < e.1

theorem mapSorted_cons (k : Nat) (v : α) (t : SMap α) :
    mapSorted ((k, v) :: t) = true ↔ keysAbove t k ∧ mapSorted t = true := by
  induction t generalizing k v with
  | nil => simp [mapSorted, keysAbove]
  | cons e t ih =>
    obtain ⟨a, b⟩ := e
    simp only [mapSorted, Bool.and_eq_true, decide_eq_true_eq]
    constructor
    · rintro ⟨h1, h2⟩
      refine ⟨?_, h2⟩
      intro x hx
      rcases List.mem_cons.1 hx with rfl | hx
      · exact h1
      · exact lt_trans h1 (((ih a b).1 h2).1 x hx)
    · rintro ⟨h1, h2⟩
      exact ⟨h1 (a, b) (by simp), h2⟩

theorem keysAbove_mapPut {m : SMap α} {k k' : Nat} {v : α} (h : keysAbove m k') (hk : k' < k) :
    keysAbove (mapPut m k v) k' := by
  induction m with
  | nil => intro e he; simp [mapPut] at he; subst he; exact hk
  | cons e t ih =>
    obtain ⟨a, b⟩ := e
    have ht : keysAbove t k' := fun e he => h e (by simp [he])
    have ha : k' < a := h (a, b) (by simp)
    simp only [mapPut]
    split_ifs
    · intro e he
      rcases List.mem_cons.1 he with rfl | he
      · exact hk
      · exact h e he
    · intro e he
      rcases List.mem_cons.1 he with rfl | he
      · exact hk
      · exact ht e he
    · intro e he
      rcases List.mem_cons.1 he with rfl | he
      · exact ha
      · exact ih ht e he

theorem mapSorted_mapPut {m : SMap α} (k : Nat) (v : α) (h : mapSorted m = true) :
    mapSorted (mapPut m k v) = true := by
  induction m with
  | nil => rfl
  | cons e t ih =>
    obtain ⟨a, b⟩ := e
    obtain ⟨h1, h2⟩ := (mapSorted_cons a b t).1 h
    simp only [mapPut]
    split_ifs with hlt heq
    · refine (mapSorted_cons _ _ _).2 ⟨?_, h⟩
      intro e he
      rcases List.mem_cons.1 he with rfl | he
      · exact hlt
      · exact lt_trans hlt (h1 e he)
    · subst heq
      exact (mapSorted_cons _ _ _).2 ⟨h1, h2⟩
    · exact (mapSorted_cons _ _ _).2 ⟨keysAbove_mapPut h1 (by omega), ih h2⟩

theorem mapSorted_filter {m : SMap α} (p : Nat × α → Bool) (h : mapSorted m = true) :
    mapSorted (m.filter p) = true := by
  induction m with
  | nil => rfl
  | cons e t ih =>
    obtain ⟨a, b⟩ := e
    obtain ⟨h1, h2⟩ := (mapSorted_cons a b t).1 h
    by_cases hp : p (a, b)
    · rw [List.filter_cons_of_pos hp]
      exact (mapSorted_cons _ _ _).2 ⟨fun e he => h1 e (List.mem_filter.1 he).1, ih h2⟩
    · rw [List.filter_cons_of_neg hp]
      exact ih h2

theorem mem_mapPut {m : SMap α} {k : Nat} {v : α} {e : Nat × α} (h : e ∈ mapPut m k v) :
    e = (k, v) ∨ e ∈ m := by
  induction m with
  | nil => simpa [mapPut] using h
  | cons x t ih =>
    obtain ⟨a, b⟩ := x
    simp only [mapPut] at h
    split_ifs at h
    · rcases List.mem_cons.1 h with h | h
      · exact .inl h
      · exact .inr h
    · rcases List.mem_cons.1 h with h | h
      · exact .inl h
      · exact .inr (by simp [h])
    · rcases List.mem_cons.1 h with h | h
      · exact .inr (by simp [h])
      · rcases ih h with h | h
        · exact .inl h
        · exact .inr (by simp [h])

theorem mapWf_iff [DecidableEq α] (d : α) (m : SMap α) :
    mapWf d m = true ↔ mapSorted m = true ∧ ∀ e ∈ m, e.2 ≠ d := by
  simp [mapWf, List.all_eq_true]

@[simp] theorem mapWf_nil [DecidableEq α] (d : α) : mapWf d ([] : SMap α) = true := rfl

theorem mapWf_mapPut [DecidableEq α] {d : α} {m : SMap α} (k : Nat) {v : α} (hv : v ≠ d)
    (h : mapWf d m = true) : mapWf d (mapPut m k v) = true := by
  rw [mapWf_iff] at h ⊢
  refine ⟨mapSorted_mapPut k v h.1, fun e he => ?_⟩
  rcases mem_mapPut he with rfl | he
  · exact hv
  · exact h.2 e he

theorem mapWf_filter [DecidableEq α] {d : α} {m : SMap α} (p : Nat × α → Bool) (h : mapWf d m = true) :
    mapWf d (m.filter p) = true := by
  rw [mapWf_iff] at h ⊢
  exact ⟨mapSorted_filter p h.1, fun e he => h.2 e (List.mem_filter.1 he).1⟩

theorem mapWf_mapDel [DecidableEq α] {d : α} {m : SMap α} (k : Nat) (h : mapWf d m = true) :
    mapWf d (mapDel m k) = true := mapWf_filter _ h

theorem mapWf_mapSet [DecidableEq α] {d : α} {m : SMap α} (k : Nat) (v : α) (h : mapWf d m = true) :
    mapWf d (mapSet d m k v) = true := by
  unfold mapSet
  split_ifs with hv
  · exact mapWf_mapDel k h
  · exact mapWf_mapPut k hv h

end Sys2Proof.Machine
end

