-- ==== Sys2Proof/Laws/State.lean ====
section
/-! SUPPORT. Laws of the state: what each update leaves of every field, and what registers, tiles and engines read after
an update. -/

namespace Sys2Proof.Machine

/-! ### Fields that an update leaves alone -/

section

variable (s : State)

@[simp] theorem State.setReg_pending (off : Nat) (v : BitVec 32) : (s.setReg off v).pending = s.pending := rfl
@[simp] theorem State.setReg_freeCount (off : Nat) (v : BitVec 32) : (s.setReg off v).freeCount = s.freeCount := rfl
@[simp] theorem State.setReg_entropyCount (off : Nat) (v : BitVec 32) : (s.setReg off v).entropyCount = s.entropyCount := rfl
@[simp] theorem State.setReg_part (off : Nat) (v : BitVec 32) : (s.setReg off v).part = s.part := rfl
@[simp] theorem State.setReg_regAnswer (off : Nat) (v : BitVec 32) : (s.setReg off v).regAnswer = s.regAnswer := rfl
@[simp] theorem State.setReg_shadow (off : Nat) (v : BitVec 32) : (s.setReg off v).shadow = s.shadow := rfl
@[simp] theorem State.setReg_hiLatch (off : Nat) (v : BitVec 32) : (s.setReg off v).hiLatch = s.hiLatch := rfl
@[simp] theorem State.setReg_spad (off : Nat) (v : BitVec 32) : (s.setReg off v).spad = s.spad := rfl
@[simp] theorem State.setReg_hbm (off : Nat) (v : BitVec 32) : (s.setReg off v).hbm = s.hbm := rfl
@[simp] theorem State.setReg_ddr (off : Nat) (v : BitVec 32) : (s.setReg off v).ddr = s.ddr := rfl
@[simp] theorem State.setReg_spadMark (off : Nat) (v : BitVec 32) : (s.setReg off v).spadMark = s.spadMark := rfl
@[simp] theorem State.setReg_hbmPoison (off : Nat) (v : BitVec 32) : (s.setReg off v).hbmPoison = s.hbmPoison := rfl
@[simp] theorem State.setReg_ddrPoison (off : Nat) (v : BitVec 32) : (s.setReg off v).ddrPoison = s.ddrPoison := rfl
@[simp] theorem State.setReg_spadErr (off : Nat) (v : BitVec 32) : (s.setReg off v).spadErr = s.spadErr := rfl
@[simp] theorem State.setReg_hbmErr (off : Nat) (v : BitVec 32) : (s.setReg off v).hbmErr = s.hbmErr := rfl
@[simp] theorem State.setReg_ddrErr (off : Nat) (v : BitVec 32) : (s.setReg off v).ddrErr = s.ddrErr := rfl
@[simp] theorem State.setReg_tiles (off : Nat) (v : BitVec 32) : (s.setReg off v).tiles = s.tiles := rfl
@[simp] theorem State.setReg_rowWords (off : Nat) (v : BitVec 32) : (s.setReg off v).rowWords = s.rowWords := rfl
@[simp] theorem State.setReg_frame (off : Nat) (v : BitVec 32) : (s.setReg off v).frame = s.frame := rfl
@[simp] theorem State.setReg_routes (off : Nat) (v : BitVec 32) : (s.setReg off v).routes = s.routes := rfl
@[simp] theorem State.setReg_routesNext (off : Nat) (v : BitVec 32) : (s.setReg off v).routesNext = s.routesNext := rfl
@[simp] theorem State.setReg_twins (off : Nat) (v : BitVec 32) : (s.setReg off v).twins = s.twins := rfl
@[simp] theorem State.setReg_twinsNext (off : Nat) (v : BitVec 32) : (s.setReg off v).twinsNext = s.twinsNext := rfl
@[simp] theorem State.setReg_twinClear (off : Nat) (v : BitVec 32) : (s.setReg off v).twinClear = s.twinClear := rfl
@[simp] theorem State.setReg_entries (off : Nat) (v : BitVec 32) : (s.setReg off v).entries = s.entries := rfl
@[simp] theorem State.setReg_reqWait (off : Nat) (v : BitVec 32) : (s.setReg off v).reqWait = s.reqWait := rfl
@[simp] theorem State.setReg_sent (off : Nat) (v : BitVec 32) : (s.setReg off v).sent = s.sent := rfl
@[simp] theorem State.setReg_flight (off : Nat) (v : BitVec 32) : (s.setReg off v).flight = s.flight := rfl
@[simp] theorem State.setReg_answers (off : Nat) (v : BitVec 32) : (s.setReg off v).answers = s.answers := rfl
@[simp] theorem State.setReg_power (off : Nat) (v : BitVec 32) : (s.setReg off v).power = s.power := rfl
@[simp] theorem State.setReg_mgmt (off : Nat) (v : BitVec 32) : (s.setReg off v).mgmt = s.mgmt := rfl
@[simp] theorem State.setReg_tap (off : Nat) (v : BitVec 32) : (s.setReg off v).tap = s.tap := rfl
@[simp] theorem State.setReg_cands (off : Nat) (v : BitVec 32) : (s.setReg off v).cands = s.cands := rfl
@[simp] theorem State.setReg_viewAt (off : Nat) (v : BitVec 32) : (s.setReg off v).viewAt = s.viewAt := rfl
@[simp] theorem State.setReg_electing (off : Nat) (v : BitVec 32) : (s.setReg off v).electing = s.electing := rfl
@[simp] theorem State.setReg_clk (off : Nat) (v : BitVec 32) : (s.setReg off v).clk = s.clk := rfl
@[simp] theorem State.setReg_regions (off : Nat) (v : BitVec 32) : (s.setReg off v).regions = s.regions := rfl
@[simp] theorem State.setReg_work (off : Nat) (v : BitVec 32) : (s.setReg off v).work = s.work := rfl
@[simp] theorem State.setReg_refresh (off : Nat) (v : BitVec 32) : (s.setReg off v).refresh = s.refresh := rfl
@[simp] theorem State.setReg_fab (off : Nat) (v : BitVec 32) : (s.setReg off v).fab = s.fab := rfl
@[simp] theorem State.setReg_agp (off : Nat) (v : BitVec 32) : (s.setReg off v).agp = s.agp := rfl
@[simp] theorem State.setReg_colls (off : Nat) (v : BitVec 32) : (s.setReg off v).colls = s.colls := rfl
@[simp] theorem State.setReg_colStarted (off : Nat) (v : BitVec 32) : (s.setReg off v).colStarted = s.colStarted := rfl
@[simp] theorem State.setReg_wpairs (off : Nat) (v : BitVec 32) : (s.setReg off v).wpairs = s.wpairs := rfl
@[simp] theorem State.setReg_shr (off : Nat) (v : BitVec 32) : (s.setReg off v).shr = s.shr := rfl
@[simp] theorem State.setReg_load (off : Nat) (v : BitVec 32) : (s.setReg off v).load = s.load := rfl
@[simp] theorem State.setReg_slotDigest (off : Nat) (v : BitVec 32) : (s.setReg off v).slotDigest = s.slotDigest := rfl
@[simp] theorem State.setReg_ctxOp (off : Nat) (v : BitVec 32) : (s.setReg off v).ctxOp = s.ctxOp := rfl
@[simp] theorem State.setReg_ctxTick (off : Nat) (v : BitVec 32) : (s.setReg off v).ctxTick = s.ctxTick := rfl
@[simp] theorem State.setReg_ctxMules (off : Nat) (v : BitVec 32) : (s.setReg off v).ctxMules = s.ctxMules := rfl
@[simp] theorem State.setReg_ctxKey (off : Nat) (v : BitVec 32) : (s.setReg off v).ctxKey = s.ctxKey := rfl
@[simp] theorem State.setReg_bootNonce (off : Nat) (v : BitVec 32) : (s.setReg off v).bootNonce = s.bootNonce := rfl
@[simp] theorem State.setReg_ctxDrawn (off : Nat) (v : BitVec 32) : (s.setReg off v).ctxDrawn = s.ctxDrawn := rfl
@[simp] theorem State.setReg_dumpBuf (off : Nat) (v : BitVec 32) : (s.setReg off v).dumpBuf = s.dumpBuf := rfl
@[simp] theorem State.setReg_dsigs (off : Nat) (v : BitVec 32) : (s.setReg off v).dsigs = s.dsigs := rfl
@[simp] theorem State.setReg_us (off : Nat) (v : BitVec 32) : (s.setReg off v).us = s.us := rfl
@[simp] theorem State.setReg_hlk (off : Nat) (v : BitVec 32) : (s.setReg off v).hlk = s.hlk := rfl
@[simp] theorem State.setReg_tickFlits (off : Nat) (v : BitVec 32) : (s.setReg off v).tickFlits = s.tickFlits := rfl
@[simp] theorem State.setReg_items (off : Nat) (v : BitVec 32) : (s.setReg off v).items = s.items := rfl
@[simp] theorem State.setReg_rstJob (off : Nat) (v : BitVec 32) : (s.setReg off v).rstJob = s.rstJob := rfl
@[simp] theorem State.setReg_rstRows (off : Nat) (v : BitVec 32) : (s.setReg off v).rstRows = s.rstRows := rfl
@[simp] theorem State.setReg_rstWarm (off : Nat) (v : BitVec 32) : (s.setReg off v).rstWarm = s.rstWarm := rfl
@[simp] theorem State.setReg_closed (off : Nat) (v : BitVec 32) : (s.setReg off v).closed = s.closed := rfl
@[simp] theorem State.setReg_events (off : Nat) (v : BitVec 32) : (s.setReg off v).events = s.events := rfl
@[simp] theorem State.setReg_carried (off : Nat) (v : BitVec 32) : (s.setReg off v).carried = s.carried := rfl

@[simp] theorem State.setTile_pending (t : Nat) (x : Tile) : (s.setTile t x).pending = s.pending := rfl
@[simp] theorem State.setTile_freeCount (t : Nat) (x : Tile) : (s.setTile t x).freeCount = s.freeCount := rfl
@[simp] theorem State.setTile_entropyCount (t : Nat) (x : Tile) : (s.setTile t x).entropyCount = s.entropyCount := rfl
@[simp] theorem State.setTile_part (t : Nat) (x : Tile) : (s.setTile t x).part = s.part := rfl
@[simp] theorem State.setTile_regs (t : Nat) (x : Tile) : (s.setTile t x).regs = s.regs := rfl
@[simp] theorem State.setTile_regAnswer (t : Nat) (x : Tile) : (s.setTile t x).regAnswer = s.regAnswer := rfl
@[simp] theorem State.setTile_shadow (t : Nat) (x : Tile) : (s.setTile t x).shadow = s.shadow := rfl
@[simp] theorem State.setTile_hiLatch (t : Nat) (x : Tile) : (s.setTile t x).hiLatch = s.hiLatch := rfl
@[simp] theorem State.setTile_spad (t : Nat) (x : Tile) : (s.setTile t x).spad = s.spad := rfl
@[simp] theorem State.setTile_hbm (t : Nat) (x : Tile) : (s.setTile t x).hbm = s.hbm := rfl
@[simp] theorem State.setTile_ddr (t : Nat) (x : Tile) : (s.setTile t x).ddr = s.ddr := rfl
@[simp] theorem State.setTile_spadMark (t : Nat) (x : Tile) : (s.setTile t x).spadMark = s.spadMark := rfl
@[simp] theorem State.setTile_hbmPoison (t : Nat) (x : Tile) : (s.setTile t x).hbmPoison = s.hbmPoison := rfl
@[simp] theorem State.setTile_ddrPoison (t : Nat) (x : Tile) : (s.setTile t x).ddrPoison = s.ddrPoison := rfl
@[simp] theorem State.setTile_spadErr (t : Nat) (x : Tile) : (s.setTile t x).spadErr = s.spadErr := rfl
@[simp] theorem State.setTile_hbmErr (t : Nat) (x : Tile) : (s.setTile t x).hbmErr = s.hbmErr := rfl
@[simp] theorem State.setTile_ddrErr (t : Nat) (x : Tile) : (s.setTile t x).ddrErr = s.ddrErr := rfl
@[simp] theorem State.setTile_rowWords (t : Nat) (x : Tile) : (s.setTile t x).rowWords = s.rowWords := rfl
@[simp] theorem State.setTile_frame (t : Nat) (x : Tile) : (s.setTile t x).frame = s.frame := rfl
@[simp] theorem State.setTile_routes (t : Nat) (x : Tile) : (s.setTile t x).routes = s.routes := rfl
@[simp] theorem State.setTile_routesNext (t : Nat) (x : Tile) : (s.setTile t x).routesNext = s.routesNext := rfl
@[simp] theorem State.setTile_twins (t : Nat) (x : Tile) : (s.setTile t x).twins = s.twins := rfl
@[simp] theorem State.setTile_twinsNext (t : Nat) (x : Tile) : (s.setTile t x).twinsNext = s.twinsNext := rfl
@[simp] theorem State.setTile_twinClear (t : Nat) (x : Tile) : (s.setTile t x).twinClear = s.twinClear := rfl
@[simp] theorem State.setTile_entries (t : Nat) (x : Tile) : (s.setTile t x).entries = s.entries := rfl
@[simp] theorem State.setTile_reqWait (t : Nat) (x : Tile) : (s.setTile t x).reqWait = s.reqWait := rfl
@[simp] theorem State.setTile_sent (t : Nat) (x : Tile) : (s.setTile t x).sent = s.sent := rfl
@[simp] theorem State.setTile_flight (t : Nat) (x : Tile) : (s.setTile t x).flight = s.flight := rfl
@[simp] theorem State.setTile_answers (t : Nat) (x : Tile) : (s.setTile t x).answers = s.answers := rfl
@[simp] theorem State.setTile_power (t : Nat) (x : Tile) : (s.setTile t x).power = s.power := rfl
@[simp] theorem State.setTile_mgmt (t : Nat) (x : Tile) : (s.setTile t x).mgmt = s.mgmt := rfl
@[simp] theorem State.setTile_tap (t : Nat) (x : Tile) : (s.setTile t x).tap = s.tap := rfl
@[simp] theorem State.setTile_cands (t : Nat) (x : Tile) : (s.setTile t x).cands = s.cands := rfl
@[simp] theorem State.setTile_viewAt (t : Nat) (x : Tile) : (s.setTile t x).viewAt = s.viewAt := rfl
@[simp] theorem State.setTile_electing (t : Nat) (x : Tile) : (s.setTile t x).electing = s.electing := rfl
@[simp] theorem State.setTile_clk (t : Nat) (x : Tile) : (s.setTile t x).clk = s.clk := rfl
@[simp] theorem State.setTile_regions (t : Nat) (x : Tile) : (s.setTile t x).regions = s.regions := rfl
@[simp] theorem State.setTile_work (t : Nat) (x : Tile) : (s.setTile t x).work = s.work := rfl
@[simp] theorem State.setTile_refresh (t : Nat) (x : Tile) : (s.setTile t x).refresh = s.refresh := rfl
@[simp] theorem State.setTile_fab (t : Nat) (x : Tile) : (s.setTile t x).fab = s.fab := rfl
@[simp] theorem State.setTile_agp (t : Nat) (x : Tile) : (s.setTile t x).agp = s.agp := rfl
@[simp] theorem State.setTile_colls (t : Nat) (x : Tile) : (s.setTile t x).colls = s.colls := rfl
@[simp] theorem State.setTile_colStarted (t : Nat) (x : Tile) : (s.setTile t x).colStarted = s.colStarted := rfl
@[simp] theorem State.setTile_wpairs (t : Nat) (x : Tile) : (s.setTile t x).wpairs = s.wpairs := rfl
@[simp] theorem State.setTile_shr (t : Nat) (x : Tile) : (s.setTile t x).shr = s.shr := rfl
@[simp] theorem State.setTile_load (t : Nat) (x : Tile) : (s.setTile t x).load = s.load := rfl
@[simp] theorem State.setTile_slotDigest (t : Nat) (x : Tile) : (s.setTile t x).slotDigest = s.slotDigest := rfl
@[simp] theorem State.setTile_ctxOp (t : Nat) (x : Tile) : (s.setTile t x).ctxOp = s.ctxOp := rfl
@[simp] theorem State.setTile_ctxTick (t : Nat) (x : Tile) : (s.setTile t x).ctxTick = s.ctxTick := rfl
@[simp] theorem State.setTile_ctxMules (t : Nat) (x : Tile) : (s.setTile t x).ctxMules = s.ctxMules := rfl
@[simp] theorem State.setTile_ctxKey (t : Nat) (x : Tile) : (s.setTile t x).ctxKey = s.ctxKey := rfl
@[simp] theorem State.setTile_bootNonce (t : Nat) (x : Tile) : (s.setTile t x).bootNonce = s.bootNonce := rfl
@[simp] theorem State.setTile_ctxDrawn (t : Nat) (x : Tile) : (s.setTile t x).ctxDrawn = s.ctxDrawn := rfl
@[simp] theorem State.setTile_dumpBuf (t : Nat) (x : Tile) : (s.setTile t x).dumpBuf = s.dumpBuf := rfl
@[simp] theorem State.setTile_dsigs (t : Nat) (x : Tile) : (s.setTile t x).dsigs = s.dsigs := rfl
@[simp] theorem State.setTile_us (t : Nat) (x : Tile) : (s.setTile t x).us = s.us := rfl
@[simp] theorem State.setTile_hlk (t : Nat) (x : Tile) : (s.setTile t x).hlk = s.hlk := rfl
@[simp] theorem State.setTile_tickFlits (t : Nat) (x : Tile) : (s.setTile t x).tickFlits = s.tickFlits := rfl
@[simp] theorem State.setTile_items (t : Nat) (x : Tile) : (s.setTile t x).items = s.items := rfl
@[simp] theorem State.setTile_rstJob (t : Nat) (x : Tile) : (s.setTile t x).rstJob = s.rstJob := rfl
@[simp] theorem State.setTile_rstRows (t : Nat) (x : Tile) : (s.setTile t x).rstRows = s.rstRows := rfl
@[simp] theorem State.setTile_rstWarm (t : Nat) (x : Tile) : (s.setTile t x).rstWarm = s.rstWarm := rfl
@[simp] theorem State.setTile_closed (t : Nat) (x : Tile) : (s.setTile t x).closed = s.closed := rfl
@[simp] theorem State.setTile_events (t : Nat) (x : Tile) : (s.setTile t x).events = s.events := rfl
@[simp] theorem State.setTile_carried (t : Nat) (x : Tile) : (s.setTile t x).carried = s.carried := rfl

@[simp] theorem State.modTile_pending (t : Nat) (f : Tile → Tile) : (s.modTile t f).pending = s.pending := rfl
@[simp] theorem State.modTile_freeCount (t : Nat) (f : Tile → Tile) : (s.modTile t f).freeCount = s.freeCount := rfl
@[simp] theorem State.modTile_entropyCount (t : Nat) (f : Tile → Tile) : (s.modTile t f).entropyCount = s.entropyCount := rfl
@[simp] theorem State.modTile_part (t : Nat) (f : Tile → Tile) : (s.modTile t f).part = s.part := rfl
@[simp] theorem State.modTile_regs (t : Nat) (f : Tile → Tile) : (s.modTile t f).regs = s.regs := rfl
@[simp] theorem State.modTile_regAnswer (t : Nat) (f : Tile → Tile) : (s.modTile t f).regAnswer = s.regAnswer := rfl
@[simp] theorem State.modTile_shadow (t : Nat) (f : Tile → Tile) : (s.modTile t f).shadow = s.shadow := rfl
@[simp] theorem State.modTile_hiLatch (t : Nat) (f : Tile → Tile) : (s.modTile t f).hiLatch = s.hiLatch := rfl
@[simp] theorem State.modTile_spad (t : Nat) (f : Tile → Tile) : (s.modTile t f).spad = s.spad := rfl
@[simp] theorem State.modTile_hbm (t : Nat) (f : Tile → Tile) : (s.modTile t f).hbm = s.hbm := rfl
@[simp] theorem State.modTile_ddr (t : Nat) (f : Tile → Tile) : (s.modTile t f).ddr = s.ddr := rfl
@[simp] theorem State.modTile_spadMark (t : Nat) (f : Tile → Tile) : (s.modTile t f).spadMark = s.spadMark := rfl
@[simp] theorem State.modTile_hbmPoison (t : Nat) (f : Tile → Tile) : (s.modTile t f).hbmPoison = s.hbmPoison := rfl
@[simp] theorem State.modTile_ddrPoison (t : Nat) (f : Tile → Tile) : (s.modTile t f).ddrPoison = s.ddrPoison := rfl
@[simp] theorem State.modTile_spadErr (t : Nat) (f : Tile → Tile) : (s.modTile t f).spadErr = s.spadErr := rfl
@[simp] theorem State.modTile_hbmErr (t : Nat) (f : Tile → Tile) : (s.modTile t f).hbmErr = s.hbmErr := rfl
@[simp] theorem State.modTile_ddrErr (t : Nat) (f : Tile → Tile) : (s.modTile t f).ddrErr = s.ddrErr := rfl
@[simp] theorem State.modTile_rowWords (t : Nat) (f : Tile → Tile) : (s.modTile t f).rowWords = s.rowWords := rfl
@[simp] theorem State.modTile_frame (t : Nat) (f : Tile → Tile) : (s.modTile t f).frame = s.frame := rfl
@[simp] theorem State.modTile_routes (t : Nat) (f : Tile → Tile) : (s.modTile t f).routes = s.routes := rfl
@[simp] theorem State.modTile_routesNext (t : Nat) (f : Tile → Tile) : (s.modTile t f).routesNext = s.routesNext := rfl
@[simp] theorem State.modTile_twins (t : Nat) (f : Tile → Tile) : (s.modTile t f).twins = s.twins := rfl
@[simp] theorem State.modTile_twinsNext (t : Nat) (f : Tile → Tile) : (s.modTile t f).twinsNext = s.twinsNext := rfl
@[simp] theorem State.modTile_twinClear (t : Nat) (f : Tile → Tile) : (s.modTile t f).twinClear = s.twinClear := rfl
@[simp] theorem State.modTile_entries (t : Nat) (f : Tile → Tile) : (s.modTile t f).entries = s.entries := rfl
@[simp] theorem State.modTile_reqWait (t : Nat) (f : Tile → Tile) : (s.modTile t f).reqWait = s.reqWait := rfl
@[simp] theorem State.modTile_sent (t : Nat) (f : Tile → Tile) : (s.modTile t f).sent = s.sent := rfl
@[simp] theorem State.modTile_flight (t : Nat) (f : Tile → Tile) : (s.modTile t f).flight = s.flight := rfl
@[simp] theorem State.modTile_answers (t : Nat) (f : Tile → Tile) : (s.modTile t f).answers = s.answers := rfl
@[simp] theorem State.modTile_power (t : Nat) (f : Tile → Tile) : (s.modTile t f).power = s.power := rfl
@[simp] theorem State.modTile_mgmt (t : Nat) (f : Tile → Tile) : (s.modTile t f).mgmt = s.mgmt := rfl
@[simp] theorem State.modTile_tap (t : Nat) (f : Tile → Tile) : (s.modTile t f).tap = s.tap := rfl
@[simp] theorem State.modTile_cands (t : Nat) (f : Tile → Tile) : (s.modTile t f).cands = s.cands := rfl
@[simp] theorem State.modTile_viewAt (t : Nat) (f : Tile → Tile) : (s.modTile t f).viewAt = s.viewAt := rfl
@[simp] theorem State.modTile_electing (t : Nat) (f : Tile → Tile) : (s.modTile t f).electing = s.electing := rfl
@[simp] theorem State.modTile_clk (t : Nat) (f : Tile → Tile) : (s.modTile t f).clk = s.clk := rfl
@[simp] theorem State.modTile_regions (t : Nat) (f : Tile → Tile) : (s.modTile t f).regions = s.regions := rfl
@[simp] theorem State.modTile_work (t : Nat) (f : Tile → Tile) : (s.modTile t f).work = s.work := rfl
@[simp] theorem State.modTile_refresh (t : Nat) (f : Tile → Tile) : (s.modTile t f).refresh = s.refresh := rfl
@[simp] theorem State.modTile_fab (t : Nat) (f : Tile → Tile) : (s.modTile t f).fab = s.fab := rfl
@[simp] theorem State.modTile_agp (t : Nat) (f : Tile → Tile) : (s.modTile t f).agp = s.agp := rfl
@[simp] theorem State.modTile_colls (t : Nat) (f : Tile → Tile) : (s.modTile t f).colls = s.colls := rfl
@[simp] theorem State.modTile_colStarted (t : Nat) (f : Tile → Tile) : (s.modTile t f).colStarted = s.colStarted := rfl
@[simp] theorem State.modTile_wpairs (t : Nat) (f : Tile → Tile) : (s.modTile t f).wpairs = s.wpairs := rfl
@[simp] theorem State.modTile_shr (t : Nat) (f : Tile → Tile) : (s.modTile t f).shr = s.shr := rfl
@[simp] theorem State.modTile_load (t : Nat) (f : Tile → Tile) : (s.modTile t f).load = s.load := rfl
@[simp] theorem State.modTile_slotDigest (t : Nat) (f : Tile → Tile) : (s.modTile t f).slotDigest = s.slotDigest := rfl
@[simp] theorem State.modTile_ctxOp (t : Nat) (f : Tile → Tile) : (s.modTile t f).ctxOp = s.ctxOp := rfl
@[simp] theorem State.modTile_ctxTick (t : Nat) (f : Tile → Tile) : (s.modTile t f).ctxTick = s.ctxTick := rfl
@[simp] theorem State.modTile_ctxMules (t : Nat) (f : Tile → Tile) : (s.modTile t f).ctxMules = s.ctxMules := rfl
@[simp] theorem State.modTile_ctxKey (t : Nat) (f : Tile → Tile) : (s.modTile t f).ctxKey = s.ctxKey := rfl
@[simp] theorem State.modTile_bootNonce (t : Nat) (f : Tile → Tile) : (s.modTile t f).bootNonce = s.bootNonce := rfl
@[simp] theorem State.modTile_ctxDrawn (t : Nat) (f : Tile → Tile) : (s.modTile t f).ctxDrawn = s.ctxDrawn := rfl
@[simp] theorem State.modTile_dumpBuf (t : Nat) (f : Tile → Tile) : (s.modTile t f).dumpBuf = s.dumpBuf := rfl
@[simp] theorem State.modTile_dsigs (t : Nat) (f : Tile → Tile) : (s.modTile t f).dsigs = s.dsigs := rfl
@[simp] theorem State.modTile_us (t : Nat) (f : Tile → Tile) : (s.modTile t f).us = s.us := rfl
@[simp] theorem State.modTile_hlk (t : Nat) (f : Tile → Tile) : (s.modTile t f).hlk = s.hlk := rfl
@[simp] theorem State.modTile_tickFlits (t : Nat) (f : Tile → Tile) : (s.modTile t f).tickFlits = s.tickFlits := rfl
@[simp] theorem State.modTile_items (t : Nat) (f : Tile → Tile) : (s.modTile t f).items = s.items := rfl
@[simp] theorem State.modTile_rstJob (t : Nat) (f : Tile → Tile) : (s.modTile t f).rstJob = s.rstJob := rfl
@[simp] theorem State.modTile_rstRows (t : Nat) (f : Tile → Tile) : (s.modTile t f).rstRows = s.rstRows := rfl
@[simp] theorem State.modTile_rstWarm (t : Nat) (f : Tile → Tile) : (s.modTile t f).rstWarm = s.rstWarm := rfl
@[simp] theorem State.modTile_closed (t : Nat) (f : Tile → Tile) : (s.modTile t f).closed = s.closed := rfl
@[simp] theorem State.modTile_events (t : Nat) (f : Tile → Tile) : (s.modTile t f).events = s.events := rfl
@[simp] theorem State.modTile_carried (t : Nat) (f : Tile → Tile) : (s.modTile t f).carried = s.carried := rfl

@[simp] theorem State.modFrame_pending (f : Frame → Frame) : (s.modFrame f).pending = s.pending := rfl
@[simp] theorem State.modFrame_freeCount (f : Frame → Frame) : (s.modFrame f).freeCount = s.freeCount := rfl
@[simp] theorem State.modFrame_entropyCount (f : Frame → Frame) : (s.modFrame f).entropyCount = s.entropyCount := rfl
@[simp] theorem State.modFrame_part (f : Frame → Frame) : (s.modFrame f).part = s.part := rfl
@[simp] theorem State.modFrame_regs (f : Frame → Frame) : (s.modFrame f).regs = s.regs := rfl
@[simp] theorem State.modFrame_regAnswer (f : Frame → Frame) : (s.modFrame f).regAnswer = s.regAnswer := rfl
@[simp] theorem State.modFrame_shadow (f : Frame → Frame) : (s.modFrame f).shadow = s.shadow := rfl
@[simp] theorem State.modFrame_hiLatch (f : Frame → Frame) : (s.modFrame f).hiLatch = s.hiLatch := rfl
@[simp] theorem State.modFrame_spad (f : Frame → Frame) : (s.modFrame f).spad = s.spad := rfl
@[simp] theorem State.modFrame_hbm (f : Frame → Frame) : (s.modFrame f).hbm = s.hbm := rfl
@[simp] theorem State.modFrame_ddr (f : Frame → Frame) : (s.modFrame f).ddr = s.ddr := rfl
@[simp] theorem State.modFrame_spadMark (f : Frame → Frame) : (s.modFrame f).spadMark = s.spadMark := rfl
@[simp] theorem State.modFrame_hbmPoison (f : Frame → Frame) : (s.modFrame f).hbmPoison = s.hbmPoison := rfl
@[simp] theorem State.modFrame_ddrPoison (f : Frame → Frame) : (s.modFrame f).ddrPoison = s.ddrPoison := rfl
@[simp] theorem State.modFrame_spadErr (f : Frame → Frame) : (s.modFrame f).spadErr = s.spadErr := rfl
@[simp] theorem State.modFrame_hbmErr (f : Frame → Frame) : (s.modFrame f).hbmErr = s.hbmErr := rfl
@[simp] theorem State.modFrame_ddrErr (f : Frame → Frame) : (s.modFrame f).ddrErr = s.ddrErr := rfl
@[simp] theorem State.modFrame_tiles (f : Frame → Frame) : (s.modFrame f).tiles = s.tiles := rfl
@[simp] theorem State.modFrame_rowWords (f : Frame → Frame) : (s.modFrame f).rowWords = s.rowWords := rfl
@[simp] theorem State.modFrame_routes (f : Frame → Frame) : (s.modFrame f).routes = s.routes := rfl
@[simp] theorem State.modFrame_routesNext (f : Frame → Frame) : (s.modFrame f).routesNext = s.routesNext := rfl
@[simp] theorem State.modFrame_twins (f : Frame → Frame) : (s.modFrame f).twins = s.twins := rfl
@[simp] theorem State.modFrame_twinsNext (f : Frame → Frame) : (s.modFrame f).twinsNext = s.twinsNext := rfl
@[simp] theorem State.modFrame_twinClear (f : Frame → Frame) : (s.modFrame f).twinClear = s.twinClear := rfl
@[simp] theorem State.modFrame_entries (f : Frame → Frame) : (s.modFrame f).entries = s.entries := rfl
@[simp] theorem State.modFrame_reqWait (f : Frame → Frame) : (s.modFrame f).reqWait = s.reqWait := rfl
@[simp] theorem State.modFrame_sent (f : Frame → Frame) : (s.modFrame f).sent = s.sent := rfl
@[simp] theorem State.modFrame_flight (f : Frame → Frame) : (s.modFrame f).flight = s.flight := rfl
@[simp] theorem State.modFrame_answers (f : Frame → Frame) : (s.modFrame f).answers = s.answers := rfl
@[simp] theorem State.modFrame_power (f : Frame → Frame) : (s.modFrame f).power = s.power := rfl
@[simp] theorem State.modFrame_mgmt (f : Frame → Frame) : (s.modFrame f).mgmt = s.mgmt := rfl
@[simp] theorem State.modFrame_tap (f : Frame → Frame) : (s.modFrame f).tap = s.tap := rfl
@[simp] theorem State.modFrame_cands (f : Frame → Frame) : (s.modFrame f).cands = s.cands := rfl
@[simp] theorem State.modFrame_viewAt (f : Frame → Frame) : (s.modFrame f).viewAt = s.viewAt := rfl
@[simp] theorem State.modFrame_electing (f : Frame → Frame) : (s.modFrame f).electing = s.electing := rfl
@[simp] theorem State.modFrame_clk (f : Frame → Frame) : (s.modFrame f).clk = s.clk := rfl
@[simp] theorem State.modFrame_regions (f : Frame → Frame) : (s.modFrame f).regions = s.regions := rfl
@[simp] theorem State.modFrame_work (f : Frame → Frame) : (s.modFrame f).work = s.work := rfl
@[simp] theorem State.modFrame_refresh (f : Frame → Frame) : (s.modFrame f).refresh = s.refresh := rfl
@[simp] theorem State.modFrame_fab (f : Frame → Frame) : (s.modFrame f).fab = s.fab := rfl
@[simp] theorem State.modFrame_agp (f : Frame → Frame) : (s.modFrame f).agp = s.agp := rfl
@[simp] theorem State.modFrame_colls (f : Frame → Frame) : (s.modFrame f).colls = s.colls := rfl
@[simp] theorem State.modFrame_colStarted (f : Frame → Frame) : (s.modFrame f).colStarted = s.colStarted := rfl
@[simp] theorem State.modFrame_wpairs (f : Frame → Frame) : (s.modFrame f).wpairs = s.wpairs := rfl
@[simp] theorem State.modFrame_shr (f : Frame → Frame) : (s.modFrame f).shr = s.shr := rfl
@[simp] theorem State.modFrame_load (f : Frame → Frame) : (s.modFrame f).load = s.load := rfl
@[simp] theorem State.modFrame_slotDigest (f : Frame → Frame) : (s.modFrame f).slotDigest = s.slotDigest := rfl
@[simp] theorem State.modFrame_ctxOp (f : Frame → Frame) : (s.modFrame f).ctxOp = s.ctxOp := rfl
@[simp] theorem State.modFrame_ctxTick (f : Frame → Frame) : (s.modFrame f).ctxTick = s.ctxTick := rfl
@[simp] theorem State.modFrame_ctxMules (f : Frame → Frame) : (s.modFrame f).ctxMules = s.ctxMules := rfl
@[simp] theorem State.modFrame_ctxKey (f : Frame → Frame) : (s.modFrame f).ctxKey = s.ctxKey := rfl
@[simp] theorem State.modFrame_bootNonce (f : Frame → Frame) : (s.modFrame f).bootNonce = s.bootNonce := rfl
@[simp] theorem State.modFrame_ctxDrawn (f : Frame → Frame) : (s.modFrame f).ctxDrawn = s.ctxDrawn := rfl
@[simp] theorem State.modFrame_dumpBuf (f : Frame → Frame) : (s.modFrame f).dumpBuf = s.dumpBuf := rfl
@[simp] theorem State.modFrame_dsigs (f : Frame → Frame) : (s.modFrame f).dsigs = s.dsigs := rfl
@[simp] theorem State.modFrame_us (f : Frame → Frame) : (s.modFrame f).us = s.us := rfl
@[simp] theorem State.modFrame_hlk (f : Frame → Frame) : (s.modFrame f).hlk = s.hlk := rfl
@[simp] theorem State.modFrame_tickFlits (f : Frame → Frame) : (s.modFrame f).tickFlits = s.tickFlits := rfl
@[simp] theorem State.modFrame_items (f : Frame → Frame) : (s.modFrame f).items = s.items := rfl
@[simp] theorem State.modFrame_rstJob (f : Frame → Frame) : (s.modFrame f).rstJob = s.rstJob := rfl
@[simp] theorem State.modFrame_rstRows (f : Frame → Frame) : (s.modFrame f).rstRows = s.rstRows := rfl
@[simp] theorem State.modFrame_rstWarm (f : Frame → Frame) : (s.modFrame f).rstWarm = s.rstWarm := rfl
@[simp] theorem State.modFrame_closed (f : Frame → Frame) : (s.modFrame f).closed = s.closed := rfl
@[simp] theorem State.modFrame_events (f : Frame → Frame) : (s.modFrame f).events = s.events := rfl
@[simp] theorem State.modFrame_carried (f : Frame → Frame) : (s.modFrame f).carried = s.carried := rfl

@[simp] theorem State.modPower_pending (f : Power → Power) : (s.modPower f).pending = s.pending := rfl
@[simp] theorem State.modPower_freeCount (f : Power → Power) : (s.modPower f).freeCount = s.freeCount := rfl
@[simp] theorem State.modPower_entropyCount (f : Power → Power) : (s.modPower f).entropyCount = s.entropyCount := rfl
@[simp] theorem State.modPower_part (f : Power → Power) : (s.modPower f).part = s.part := rfl
@[simp] theorem State.modPower_regs (f : Power → Power) : (s.modPower f).regs = s.regs := rfl
@[simp] theorem State.modPower_regAnswer (f : Power → Power) : (s.modPower f).regAnswer = s.regAnswer := rfl
@[simp] theorem State.modPower_shadow (f : Power → Power) : (s.modPower f).shadow = s.shadow := rfl
@[simp] theorem State.modPower_hiLatch (f : Power → Power) : (s.modPower f).hiLatch = s.hiLatch := rfl
@[simp] theorem State.modPower_spad (f : Power → Power) : (s.modPower f).spad = s.spad := rfl
@[simp] theorem State.modPower_hbm (f : Power → Power) : (s.modPower f).hbm = s.hbm := rfl
@[simp] theorem State.modPower_ddr (f : Power → Power) : (s.modPower f).ddr = s.ddr := rfl
@[simp] theorem State.modPower_spadMark (f : Power → Power) : (s.modPower f).spadMark = s.spadMark := rfl
@[simp] theorem State.modPower_hbmPoison (f : Power → Power) : (s.modPower f).hbmPoison = s.hbmPoison := rfl
@[simp] theorem State.modPower_ddrPoison (f : Power → Power) : (s.modPower f).ddrPoison = s.ddrPoison := rfl
@[simp] theorem State.modPower_spadErr (f : Power → Power) : (s.modPower f).spadErr = s.spadErr := rfl
@[simp] theorem State.modPower_hbmErr (f : Power → Power) : (s.modPower f).hbmErr = s.hbmErr := rfl
@[simp] theorem State.modPower_ddrErr (f : Power → Power) : (s.modPower f).ddrErr = s.ddrErr := rfl
@[simp] theorem State.modPower_tiles (f : Power → Power) : (s.modPower f).tiles = s.tiles := rfl
@[simp] theorem State.modPower_rowWords (f : Power → Power) : (s.modPower f).rowWords = s.rowWords := rfl
@[simp] theorem State.modPower_frame (f : Power → Power) : (s.modPower f).frame = s.frame := rfl
@[simp] theorem State.modPower_routes (f : Power → Power) : (s.modPower f).routes = s.routes := rfl
@[simp] theorem State.modPower_routesNext (f : Power → Power) : (s.modPower f).routesNext = s.routesNext := rfl
@[simp] theorem State.modPower_twins (f : Power → Power) : (s.modPower f).twins = s.twins := rfl
@[simp] theorem State.modPower_twinsNext (f : Power → Power) : (s.modPower f).twinsNext = s.twinsNext := rfl
@[simp] theorem State.modPower_twinClear (f : Power → Power) : (s.modPower f).twinClear = s.twinClear := rfl
@[simp] theorem State.modPower_entries (f : Power → Power) : (s.modPower f).entries = s.entries := rfl
@[simp] theorem State.modPower_reqWait (f : Power → Power) : (s.modPower f).reqWait = s.reqWait := rfl
@[simp] theorem State.modPower_sent (f : Power → Power) : (s.modPower f).sent = s.sent := rfl
@[simp] theorem State.modPower_flight (f : Power → Power) : (s.modPower f).flight = s.flight := rfl
@[simp] theorem State.modPower_answers (f : Power → Power) : (s.modPower f).answers = s.answers := rfl
@[simp] theorem State.modPower_mgmt (f : Power → Power) : (s.modPower f).mgmt = s.mgmt := rfl
@[simp] theorem State.modPower_tap (f : Power → Power) : (s.modPower f).tap = s.tap := rfl
@[simp] theorem State.modPower_cands (f : Power → Power) : (s.modPower f).cands = s.cands := rfl
@[simp] theorem State.modPower_viewAt (f : Power → Power) : (s.modPower f).viewAt = s.viewAt := rfl
@[simp] theorem State.modPower_electing (f : Power → Power) : (s.modPower f).electing = s.electing := rfl
@[simp] theorem State.modPower_clk (f : Power → Power) : (s.modPower f).clk = s.clk := rfl
@[simp] theorem State.modPower_regions (f : Power → Power) : (s.modPower f).regions = s.regions := rfl
@[simp] theorem State.modPower_work (f : Power → Power) : (s.modPower f).work = s.work := rfl
@[simp] theorem State.modPower_refresh (f : Power → Power) : (s.modPower f).refresh = s.refresh := rfl
@[simp] theorem State.modPower_fab (f : Power → Power) : (s.modPower f).fab = s.fab := rfl
@[simp] theorem State.modPower_agp (f : Power → Power) : (s.modPower f).agp = s.agp := rfl
@[simp] theorem State.modPower_colls (f : Power → Power) : (s.modPower f).colls = s.colls := rfl
@[simp] theorem State.modPower_colStarted (f : Power → Power) : (s.modPower f).colStarted = s.colStarted := rfl
@[simp] theorem State.modPower_wpairs (f : Power → Power) : (s.modPower f).wpairs = s.wpairs := rfl
@[simp] theorem State.modPower_shr (f : Power → Power) : (s.modPower f).shr = s.shr := rfl
@[simp] theorem State.modPower_load (f : Power → Power) : (s.modPower f).load = s.load := rfl
@[simp] theorem State.modPower_slotDigest (f : Power → Power) : (s.modPower f).slotDigest = s.slotDigest := rfl
@[simp] theorem State.modPower_ctxOp (f : Power → Power) : (s.modPower f).ctxOp = s.ctxOp := rfl
@[simp] theorem State.modPower_ctxTick (f : Power → Power) : (s.modPower f).ctxTick = s.ctxTick := rfl
@[simp] theorem State.modPower_ctxMules (f : Power → Power) : (s.modPower f).ctxMules = s.ctxMules := rfl
@[simp] theorem State.modPower_ctxKey (f : Power → Power) : (s.modPower f).ctxKey = s.ctxKey := rfl
@[simp] theorem State.modPower_bootNonce (f : Power → Power) : (s.modPower f).bootNonce = s.bootNonce := rfl
@[simp] theorem State.modPower_ctxDrawn (f : Power → Power) : (s.modPower f).ctxDrawn = s.ctxDrawn := rfl
@[simp] theorem State.modPower_dumpBuf (f : Power → Power) : (s.modPower f).dumpBuf = s.dumpBuf := rfl
@[simp] theorem State.modPower_dsigs (f : Power → Power) : (s.modPower f).dsigs = s.dsigs := rfl
@[simp] theorem State.modPower_us (f : Power → Power) : (s.modPower f).us = s.us := rfl
@[simp] theorem State.modPower_hlk (f : Power → Power) : (s.modPower f).hlk = s.hlk := rfl
@[simp] theorem State.modPower_tickFlits (f : Power → Power) : (s.modPower f).tickFlits = s.tickFlits := rfl
@[simp] theorem State.modPower_items (f : Power → Power) : (s.modPower f).items = s.items := rfl
@[simp] theorem State.modPower_rstJob (f : Power → Power) : (s.modPower f).rstJob = s.rstJob := rfl
@[simp] theorem State.modPower_rstRows (f : Power → Power) : (s.modPower f).rstRows = s.rstRows := rfl
@[simp] theorem State.modPower_rstWarm (f : Power → Power) : (s.modPower f).rstWarm = s.rstWarm := rfl
@[simp] theorem State.modPower_closed (f : Power → Power) : (s.modPower f).closed = s.closed := rfl
@[simp] theorem State.modPower_events (f : Power → Power) : (s.modPower f).events = s.events := rfl
@[simp] theorem State.modPower_carried (f : Power → Power) : (s.modPower f).carried = s.carried := rfl

@[simp] theorem State.modMgmt_pending (f : Mgmt → Mgmt) : (s.modMgmt f).pending = s.pending := rfl
@[simp] theorem State.modMgmt_freeCount (f : Mgmt → Mgmt) : (s.modMgmt f).freeCount = s.freeCount := rfl
@[simp] theorem State.modMgmt_entropyCount (f : Mgmt → Mgmt) : (s.modMgmt f).entropyCount = s.entropyCount := rfl
@[simp] theorem State.modMgmt_part (f : Mgmt → Mgmt) : (s.modMgmt f).part = s.part := rfl
@[simp] theorem State.modMgmt_regs (f : Mgmt → Mgmt) : (s.modMgmt f).regs = s.regs := rfl
@[simp] theorem State.modMgmt_regAnswer (f : Mgmt → Mgmt) : (s.modMgmt f).regAnswer = s.regAnswer := rfl
@[simp] theorem State.modMgmt_shadow (f : Mgmt → Mgmt) : (s.modMgmt f).shadow = s.shadow := rfl
@[simp] theorem State.modMgmt_hiLatch (f : Mgmt → Mgmt) : (s.modMgmt f).hiLatch = s.hiLatch := rfl
@[simp] theorem State.modMgmt_spad (f : Mgmt → Mgmt) : (s.modMgmt f).spad = s.spad := rfl
@[simp] theorem State.modMgmt_hbm (f : Mgmt → Mgmt) : (s.modMgmt f).hbm = s.hbm := rfl
@[simp] theorem State.modMgmt_ddr (f : Mgmt → Mgmt) : (s.modMgmt f).ddr = s.ddr := rfl
@[simp] theorem State.modMgmt_spadMark (f : Mgmt → Mgmt) : (s.modMgmt f).spadMark = s.spadMark := rfl
@[simp] theorem State.modMgmt_hbmPoison (f : Mgmt → Mgmt) : (s.modMgmt f).hbmPoison = s.hbmPoison := rfl
@[simp] theorem State.modMgmt_ddrPoison (f : Mgmt → Mgmt) : (s.modMgmt f).ddrPoison = s.ddrPoison := rfl
@[simp] theorem State.modMgmt_spadErr (f : Mgmt → Mgmt) : (s.modMgmt f).spadErr = s.spadErr := rfl
@[simp] theorem State.modMgmt_hbmErr (f : Mgmt → Mgmt) : (s.modMgmt f).hbmErr = s.hbmErr := rfl
@[simp] theorem State.modMgmt_ddrErr (f : Mgmt → Mgmt) : (s.modMgmt f).ddrErr = s.ddrErr := rfl
@[simp] theorem State.modMgmt_tiles (f : Mgmt → Mgmt) : (s.modMgmt f).tiles = s.tiles := rfl
@[simp] theorem State.modMgmt_rowWords (f : Mgmt → Mgmt) : (s.modMgmt f).rowWords = s.rowWords := rfl
@[simp] theorem State.modMgmt_frame (f : Mgmt → Mgmt) : (s.modMgmt f).frame = s.frame := rfl
@[simp] theorem State.modMgmt_routes (f : Mgmt → Mgmt) : (s.modMgmt f).routes = s.routes := rfl
@[simp] theorem State.modMgmt_routesNext (f : Mgmt → Mgmt) : (s.modMgmt f).routesNext = s.routesNext := rfl
@[simp] theorem State.modMgmt_twins (f : Mgmt → Mgmt) : (s.modMgmt f).twins = s.twins := rfl
@[simp] theorem State.modMgmt_twinsNext (f : Mgmt → Mgmt) : (s.modMgmt f).twinsNext = s.twinsNext := rfl
@[simp] theorem State.modMgmt_twinClear (f : Mgmt → Mgmt) : (s.modMgmt f).twinClear = s.twinClear := rfl
@[simp] theorem State.modMgmt_entries (f : Mgmt → Mgmt) : (s.modMgmt f).entries = s.entries := rfl
@[simp] theorem State.modMgmt_reqWait (f : Mgmt → Mgmt) : (s.modMgmt f).reqWait = s.reqWait := rfl
@[simp] theorem State.modMgmt_sent (f : Mgmt → Mgmt) : (s.modMgmt f).sent = s.sent := rfl
@[simp] theorem State.modMgmt_flight (f : Mgmt → Mgmt) : (s.modMgmt f).flight = s.flight := rfl
@[simp] theorem State.modMgmt_answers (f : Mgmt → Mgmt) : (s.modMgmt f).answers = s.answers := rfl
@[simp] theorem State.modMgmt_power (f : Mgmt → Mgmt) : (s.modMgmt f).power = s.power := rfl
@[simp] theorem State.modMgmt_tap (f : Mgmt → Mgmt) : (s.modMgmt f).tap = s.tap := rfl
@[simp] theorem State.modMgmt_cands (f : Mgmt → Mgmt) : (s.modMgmt f).cands = s.cands := rfl
@[simp] theorem State.modMgmt_viewAt (f : Mgmt → Mgmt) : (s.modMgmt f).viewAt = s.viewAt := rfl
@[simp] theorem State.modMgmt_electing (f : Mgmt → Mgmt) : (s.modMgmt f).electing = s.electing := rfl
@[simp] theorem State.modMgmt_clk (f : Mgmt → Mgmt) : (s.modMgmt f).clk = s.clk := rfl
@[simp] theorem State.modMgmt_regions (f : Mgmt → Mgmt) : (s.modMgmt f).regions = s.regions := rfl
@[simp] theorem State.modMgmt_work (f : Mgmt → Mgmt) : (s.modMgmt f).work = s.work := rfl
@[simp] theorem State.modMgmt_refresh (f : Mgmt → Mgmt) : (s.modMgmt f).refresh = s.refresh := rfl
@[simp] theorem State.modMgmt_fab (f : Mgmt → Mgmt) : (s.modMgmt f).fab = s.fab := rfl
@[simp] theorem State.modMgmt_agp (f : Mgmt → Mgmt) : (s.modMgmt f).agp = s.agp := rfl
@[simp] theorem State.modMgmt_colls (f : Mgmt → Mgmt) : (s.modMgmt f).colls = s.colls := rfl
@[simp] theorem State.modMgmt_colStarted (f : Mgmt → Mgmt) : (s.modMgmt f).colStarted = s.colStarted := rfl
@[simp] theorem State.modMgmt_wpairs (f : Mgmt → Mgmt) : (s.modMgmt f).wpairs = s.wpairs := rfl
@[simp] theorem State.modMgmt_shr (f : Mgmt → Mgmt) : (s.modMgmt f).shr = s.shr := rfl
@[simp] theorem State.modMgmt_load (f : Mgmt → Mgmt) : (s.modMgmt f).load = s.load := rfl
@[simp] theorem State.modMgmt_slotDigest (f : Mgmt → Mgmt) : (s.modMgmt f).slotDigest = s.slotDigest := rfl
@[simp] theorem State.modMgmt_ctxOp (f : Mgmt → Mgmt) : (s.modMgmt f).ctxOp = s.ctxOp := rfl
@[simp] theorem State.modMgmt_ctxTick (f : Mgmt → Mgmt) : (s.modMgmt f).ctxTick = s.ctxTick := rfl
@[simp] theorem State.modMgmt_ctxMules (f : Mgmt → Mgmt) : (s.modMgmt f).ctxMules = s.ctxMules := rfl
@[simp] theorem State.modMgmt_ctxKey (f : Mgmt → Mgmt) : (s.modMgmt f).ctxKey = s.ctxKey := rfl
@[simp] theorem State.modMgmt_bootNonce (f : Mgmt → Mgmt) : (s.modMgmt f).bootNonce = s.bootNonce := rfl
@[simp] theorem State.modMgmt_ctxDrawn (f : Mgmt → Mgmt) : (s.modMgmt f).ctxDrawn = s.ctxDrawn := rfl
@[simp] theorem State.modMgmt_dumpBuf (f : Mgmt → Mgmt) : (s.modMgmt f).dumpBuf = s.dumpBuf := rfl
@[simp] theorem State.modMgmt_dsigs (f : Mgmt → Mgmt) : (s.modMgmt f).dsigs = s.dsigs := rfl
@[simp] theorem State.modMgmt_us (f : Mgmt → Mgmt) : (s.modMgmt f).us = s.us := rfl
@[simp] theorem State.modMgmt_hlk (f : Mgmt → Mgmt) : (s.modMgmt f).hlk = s.hlk := rfl
@[simp] theorem State.modMgmt_tickFlits (f : Mgmt → Mgmt) : (s.modMgmt f).tickFlits = s.tickFlits := rfl
@[simp] theorem State.modMgmt_items (f : Mgmt → Mgmt) : (s.modMgmt f).items = s.items := rfl
@[simp] theorem State.modMgmt_rstJob (f : Mgmt → Mgmt) : (s.modMgmt f).rstJob = s.rstJob := rfl
@[simp] theorem State.modMgmt_rstRows (f : Mgmt → Mgmt) : (s.modMgmt f).rstRows = s.rstRows := rfl
@[simp] theorem State.modMgmt_rstWarm (f : Mgmt → Mgmt) : (s.modMgmt f).rstWarm = s.rstWarm := rfl
@[simp] theorem State.modMgmt_closed (f : Mgmt → Mgmt) : (s.modMgmt f).closed = s.closed := rfl
@[simp] theorem State.modMgmt_events (f : Mgmt → Mgmt) : (s.modMgmt f).events = s.events := rfl
@[simp] theorem State.modMgmt_carried (f : Mgmt → Mgmt) : (s.modMgmt f).carried = s.carried := rfl

@[simp] theorem State.modEngine_pending (n : Nat) (f : Agp → Agp) : (s.modEngine n f).pending = s.pending := rfl
@[simp] theorem State.modEngine_freeCount (n : Nat) (f : Agp → Agp) : (s.modEngine n f).freeCount = s.freeCount := rfl
@[simp] theorem State.modEngine_entropyCount (n : Nat) (f : Agp → Agp) : (s.modEngine n f).entropyCount = s.entropyCount := rfl
@[simp] theorem State.modEngine_part (n : Nat) (f : Agp → Agp) : (s.modEngine n f).part = s.part := rfl
@[simp] theorem State.modEngine_regs (n : Nat) (f : Agp → Agp) : (s.modEngine n f).regs = s.regs := rfl
@[simp] theorem State.modEngine_regAnswer (n : Nat) (f : Agp → Agp) : (s.modEngine n f).regAnswer = s.regAnswer := rfl
@[simp] theorem State.modEngine_shadow (n : Nat) (f : Agp → Agp) : (s.modEngine n f).shadow = s.shadow := rfl
@[simp] theorem State.modEngine_hiLatch (n : Nat) (f : Agp → Agp) : (s.modEngine n f).hiLatch = s.hiLatch := rfl
@[simp] theorem State.modEngine_spad (n : Nat) (f : Agp → Agp) : (s.modEngine n f).spad = s.spad := rfl
@[simp] theorem State.modEngine_hbm (n : Nat) (f : Agp → Agp) : (s.modEngine n f).hbm = s.hbm := rfl
@[simp] theorem State.modEngine_ddr (n : Nat) (f : Agp → Agp) : (s.modEngine n f).ddr = s.ddr := rfl
@[simp] theorem State.modEngine_spadMark (n : Nat) (f : Agp → Agp) : (s.modEngine n f).spadMark = s.spadMark := rfl
@[simp] theorem State.modEngine_hbmPoison (n : Nat) (f : Agp → Agp) : (s.modEngine n f).hbmPoison = s.hbmPoison := rfl
@[simp] theorem State.modEngine_ddrPoison (n : Nat) (f : Agp → Agp) : (s.modEngine n f).ddrPoison = s.ddrPoison := rfl
@[simp] theorem State.modEngine_spadErr (n : Nat) (f : Agp → Agp) : (s.modEngine n f).spadErr = s.spadErr := rfl
@[simp] theorem State.modEngine_hbmErr (n : Nat) (f : Agp → Agp) : (s.modEngine n f).hbmErr = s.hbmErr := rfl
@[simp] theorem State.modEngine_ddrErr (n : Nat) (f : Agp → Agp) : (s.modEngine n f).ddrErr = s.ddrErr := rfl
@[simp] theorem State.modEngine_tiles (n : Nat) (f : Agp → Agp) : (s.modEngine n f).tiles = s.tiles := rfl
@[simp] theorem State.modEngine_rowWords (n : Nat) (f : Agp → Agp) : (s.modEngine n f).rowWords = s.rowWords := rfl
@[simp] theorem State.modEngine_frame (n : Nat) (f : Agp → Agp) : (s.modEngine n f).frame = s.frame := rfl
@[simp] theorem State.modEngine_routes (n : Nat) (f : Agp → Agp) : (s.modEngine n f).routes = s.routes := rfl
@[simp] theorem State.modEngine_routesNext (n : Nat) (f : Agp → Agp) : (s.modEngine n f).routesNext = s.routesNext := rfl
@[simp] theorem State.modEngine_twins (n : Nat) (f : Agp → Agp) : (s.modEngine n f).twins = s.twins := rfl
@[simp] theorem State.modEngine_twinsNext (n : Nat) (f : Agp → Agp) : (s.modEngine n f).twinsNext = s.twinsNext := rfl
@[simp] theorem State.modEngine_twinClear (n : Nat) (f : Agp → Agp) : (s.modEngine n f).twinClear = s.twinClear := rfl
@[simp] theorem State.modEngine_entries (n : Nat) (f : Agp → Agp) : (s.modEngine n f).entries = s.entries := rfl
@[simp] theorem State.modEngine_reqWait (n : Nat) (f : Agp → Agp) : (s.modEngine n f).reqWait = s.reqWait := rfl
@[simp] theorem State.modEngine_sent (n : Nat) (f : Agp → Agp) : (s.modEngine n f).sent = s.sent := rfl
@[simp] theorem State.modEngine_flight (n : Nat) (f : Agp → Agp) : (s.modEngine n f).flight = s.flight := rfl
@[simp] theorem State.modEngine_answers (n : Nat) (f : Agp → Agp) : (s.modEngine n f).answers = s.answers := rfl
@[simp] theorem State.modEngine_power (n : Nat) (f : Agp → Agp) : (s.modEngine n f).power = s.power := rfl
@[simp] theorem State.modEngine_mgmt (n : Nat) (f : Agp → Agp) : (s.modEngine n f).mgmt = s.mgmt := rfl
@[simp] theorem State.modEngine_tap (n : Nat) (f : Agp → Agp) : (s.modEngine n f).tap = s.tap := rfl
@[simp] theorem State.modEngine_cands (n : Nat) (f : Agp → Agp) : (s.modEngine n f).cands = s.cands := rfl
@[simp] theorem State.modEngine_viewAt (n : Nat) (f : Agp → Agp) : (s.modEngine n f).viewAt = s.viewAt := rfl
@[simp] theorem State.modEngine_electing (n : Nat) (f : Agp → Agp) : (s.modEngine n f).electing = s.electing := rfl
@[simp] theorem State.modEngine_clk (n : Nat) (f : Agp → Agp) : (s.modEngine n f).clk = s.clk := rfl
@[simp] theorem State.modEngine_regions (n : Nat) (f : Agp → Agp) : (s.modEngine n f).regions = s.regions := rfl
@[simp] theorem State.modEngine_work (n : Nat) (f : Agp → Agp) : (s.modEngine n f).work = s.work := rfl
@[simp] theorem State.modEngine_refresh (n : Nat) (f : Agp → Agp) : (s.modEngine n f).refresh = s.refresh := rfl
@[simp] theorem State.modEngine_fab (n : Nat) (f : Agp → Agp) : (s.modEngine n f).fab = s.fab := rfl
@[simp] theorem State.modEngine_colls (n : Nat) (f : Agp → Agp) : (s.modEngine n f).colls = s.colls := rfl
@[simp] theorem State.modEngine_colStarted (n : Nat) (f : Agp → Agp) : (s.modEngine n f).colStarted = s.colStarted := rfl
@[simp] theorem State.modEngine_wpairs (n : Nat) (f : Agp → Agp) : (s.modEngine n f).wpairs = s.wpairs := rfl
@[simp] theorem State.modEngine_shr (n : Nat) (f : Agp → Agp) : (s.modEngine n f).shr = s.shr := rfl
@[simp] theorem State.modEngine_load (n : Nat) (f : Agp → Agp) : (s.modEngine n f).load = s.load := rfl
@[simp] theorem State.modEngine_slotDigest (n : Nat) (f : Agp → Agp) : (s.modEngine n f).slotDigest = s.slotDigest := rfl
@[simp] theorem State.modEngine_ctxOp (n : Nat) (f : Agp → Agp) : (s.modEngine n f).ctxOp = s.ctxOp := rfl
@[simp] theorem State.modEngine_ctxTick (n : Nat) (f : Agp → Agp) : (s.modEngine n f).ctxTick = s.ctxTick := rfl
@[simp] theorem State.modEngine_ctxMules (n : Nat) (f : Agp → Agp) : (s.modEngine n f).ctxMules = s.ctxMules := rfl
@[simp] theorem State.modEngine_ctxKey (n : Nat) (f : Agp → Agp) : (s.modEngine n f).ctxKey = s.ctxKey := rfl
@[simp] theorem State.modEngine_bootNonce (n : Nat) (f : Agp → Agp) : (s.modEngine n f).bootNonce = s.bootNonce := rfl
@[simp] theorem State.modEngine_ctxDrawn (n : Nat) (f : Agp → Agp) : (s.modEngine n f).ctxDrawn = s.ctxDrawn := rfl
@[simp] theorem State.modEngine_dumpBuf (n : Nat) (f : Agp → Agp) : (s.modEngine n f).dumpBuf = s.dumpBuf := rfl
@[simp] theorem State.modEngine_dsigs (n : Nat) (f : Agp → Agp) : (s.modEngine n f).dsigs = s.dsigs := rfl
@[simp] theorem State.modEngine_us (n : Nat) (f : Agp → Agp) : (s.modEngine n f).us = s.us := rfl
@[simp] theorem State.modEngine_hlk (n : Nat) (f : Agp → Agp) : (s.modEngine n f).hlk = s.hlk := rfl
@[simp] theorem State.modEngine_tickFlits (n : Nat) (f : Agp → Agp) : (s.modEngine n f).tickFlits = s.tickFlits := rfl
@[simp] theorem State.modEngine_items (n : Nat) (f : Agp → Agp) : (s.modEngine n f).items = s.items := rfl
@[simp] theorem State.modEngine_rstJob (n : Nat) (f : Agp → Agp) : (s.modEngine n f).rstJob = s.rstJob := rfl
@[simp] theorem State.modEngine_rstRows (n : Nat) (f : Agp → Agp) : (s.modEngine n f).rstRows = s.rstRows := rfl
@[simp] theorem State.modEngine_rstWarm (n : Nat) (f : Agp → Agp) : (s.modEngine n f).rstWarm = s.rstWarm := rfl
@[simp] theorem State.modEngine_closed (n : Nat) (f : Agp → Agp) : (s.modEngine n f).closed = s.closed := rfl
@[simp] theorem State.modEngine_events (n : Nat) (f : Agp → Agp) : (s.modEngine n f).events = s.events := rfl
@[simp] theorem State.modEngine_carried (n : Nat) (f : Agp → Agp) : (s.modEngine n f).carried = s.carried := rfl

@[simp] theorem State.modRegion_pending (r : Nat) (f : ClkRegion → ClkRegion) : (s.modRegion r f).pending = s.pending := rfl
@[simp] theorem State.modRegion_freeCount (r : Nat) (f : ClkRegion → ClkRegion) : (s.modRegion r f).freeCount = s.freeCount := rfl
@[simp] theorem State.modRegion_entropyCount (r : Nat) (f : ClkRegion → ClkRegion) : (s.modRegion r f).entropyCount = s.entropyCount := rfl
@[simp] theorem State.modRegion_part (r : Nat) (f : ClkRegion → ClkRegion) : (s.modRegion r f).part = s.part := rfl
@[simp] theorem State.modRegion_regs (r : Nat) (f : ClkRegion → ClkRegion) : (s.modRegion r f).regs = s.regs := rfl
@[simp] theorem State.modRegion_regAnswer (r : Nat) (f : ClkRegion → ClkRegion) : (s.modRegion r f).regAnswer = s.regAnswer := rfl
@[simp] theorem State.modRegion_shadow (r : Nat) (f : ClkRegion → ClkRegion) : (s.modRegion r f).shadow = s.shadow := rfl
@[simp] theorem State.modRegion_hiLatch (r : Nat) (f : ClkRegion → ClkRegion) : (s.modRegion r f).hiLatch = s.hiLatch := rfl
@[simp] theorem State.modRegion_spad (r : Nat) (f : ClkRegion → ClkRegion) : (s.modRegion r f).spad = s.spad := rfl
@[simp] theorem State.modRegion_hbm (r : Nat) (f : ClkRegion → ClkRegion) : (s.modRegion r f).hbm = s.hbm := rfl
@[simp] theorem State.modRegion_ddr (r : Nat) (f : ClkRegion → ClkRegion) : (s.modRegion r f).ddr = s.ddr := rfl
@[simp] theorem State.modRegion_spadMark (r : Nat) (f : ClkRegion → ClkRegion) : (s.modRegion r f).spadMark = s.spadMark := rfl
@[simp] theorem State.modRegion_hbmPoison (r : Nat) (f : ClkRegion → ClkRegion) : (s.modRegion r f).hbmPoison = s.hbmPoison := rfl
@[simp] theorem State.modRegion_ddrPoison (r : Nat) (f : ClkRegion → ClkRegion) : (s.modRegion r f).ddrPoison = s.ddrPoison := rfl
@[simp] theorem State.modRegion_spadErr (r : Nat) (f : ClkRegion → ClkRegion) : (s.modRegion r f).spadErr = s.spadErr := rfl
@[simp] theorem State.modRegion_hbmErr (r : Nat) (f : ClkRegion → ClkRegion) : (s.modRegion r f).hbmErr = s.hbmErr := rfl
@[simp] theorem State.modRegion_ddrErr (r : Nat) (f : ClkRegion → ClkRegion) : (s.modRegion r f).ddrErr = s.ddrErr := rfl
@[simp] theorem State.modRegion_tiles (r : Nat) (f : ClkRegion → ClkRegion) : (s.modRegion r f).tiles = s.tiles := rfl
@[simp] theorem State.modRegion_rowWords (r : Nat) (f : ClkRegion → ClkRegion) : (s.modRegion r f).rowWords = s.rowWords := rfl
@[simp] theorem State.modRegion_frame (r : Nat) (f : ClkRegion → ClkRegion) : (s.modRegion r f).frame = s.frame := rfl
@[simp] theorem State.modRegion_routes (r : Nat) (f : ClkRegion → ClkRegion) : (s.modRegion r f).routes = s.routes := rfl
@[simp] theorem State.modRegion_routesNext (r : Nat) (f : ClkRegion → ClkRegion) : (s.modRegion r f).routesNext = s.routesNext := rfl
@[simp] theorem State.modRegion_twins (r : Nat) (f : ClkRegion → ClkRegion) : (s.modRegion r f).twins = s.twins := rfl
@[simp] theorem State.modRegion_twinsNext (r : Nat) (f : ClkRegion → ClkRegion) : (s.modRegion r f).twinsNext = s.twinsNext := rfl
@[simp] theorem State.modRegion_twinClear (r : Nat) (f : ClkRegion → ClkRegion) : (s.modRegion r f).twinClear = s.twinClear := rfl
@[simp] theorem State.modRegion_entries (r : Nat) (f : ClkRegion → ClkRegion) : (s.modRegion r f).entries = s.entries := rfl
@[simp] theorem State.modRegion_reqWait (r : Nat) (f : ClkRegion → ClkRegion) : (s.modRegion r f).reqWait = s.reqWait := rfl
@[simp] theorem State.modRegion_sent (r : Nat) (f : ClkRegion → ClkRegion) : (s.modRegion r f).sent = s.sent := rfl
@[simp] theorem State.modRegion_flight (r : Nat) (f : ClkRegion → ClkRegion) : (s.modRegion r f).flight = s.flight := rfl
@[simp] theorem State.modRegion_answers (r : Nat) (f : ClkRegion → ClkRegion) : (s.modRegion r f).answers = s.answers := rfl
@[simp] theorem State.modRegion_power (r : Nat) (f : ClkRegion → ClkRegion) : (s.modRegion r f).power = s.power := rfl
@[simp] theorem State.modRegion_mgmt (r : Nat) (f : ClkRegion → ClkRegion) : (s.modRegion r f).mgmt = s.mgmt := rfl
@[simp] theorem State.modRegion_tap (r : Nat) (f : ClkRegion → ClkRegion) : (s.modRegion r f).tap = s.tap := rfl
@[simp] theorem State.modRegion_cands (r : Nat) (f : ClkRegion → ClkRegion) : (s.modRegion r f).cands = s.cands := rfl
@[simp] theorem State.modRegion_viewAt (r : Nat) (f : ClkRegion → ClkRegion) : (s.modRegion r f).viewAt = s.viewAt := rfl
@[simp] theorem State.modRegion_electing (r : Nat) (f : ClkRegion → ClkRegion) : (s.modRegion r f).electing = s.electing := rfl
@[simp] theorem State.modRegion_clk (r : Nat) (f : ClkRegion → ClkRegion) : (s.modRegion r f).clk = s.clk := rfl
@[simp] theorem State.modRegion_work (r : Nat) (f : ClkRegion → ClkRegion) : (s.modRegion r f).work = s.work := rfl
@[simp] theorem State.modRegion_refresh (r : Nat) (f : ClkRegion → ClkRegion) : (s.modRegion r f).refresh = s.refresh := rfl
@[simp] theorem State.modRegion_fab (r : Nat) (f : ClkRegion → ClkRegion) : (s.modRegion r f).fab = s.fab := rfl
@[simp] theorem State.modRegion_agp (r : Nat) (f : ClkRegion → ClkRegion) : (s.modRegion r f).agp = s.agp := rfl
@[simp] theorem State.modRegion_colls (r : Nat) (f : ClkRegion → ClkRegion) : (s.modRegion r f).colls = s.colls := rfl
@[simp] theorem State.modRegion_colStarted (r : Nat) (f : ClkRegion → ClkRegion) : (s.modRegion r f).colStarted = s.colStarted := rfl
@[simp] theorem State.modRegion_wpairs (r : Nat) (f : ClkRegion → ClkRegion) : (s.modRegion r f).wpairs = s.wpairs := rfl
@[simp] theorem State.modRegion_shr (r : Nat) (f : ClkRegion → ClkRegion) : (s.modRegion r f).shr = s.shr := rfl
@[simp] theorem State.modRegion_load (r : Nat) (f : ClkRegion → ClkRegion) : (s.modRegion r f).load = s.load := rfl
@[simp] theorem State.modRegion_slotDigest (r : Nat) (f : ClkRegion → ClkRegion) : (s.modRegion r f).slotDigest = s.slotDigest := rfl
@[simp] theorem State.modRegion_ctxOp (r : Nat) (f : ClkRegion → ClkRegion) : (s.modRegion r f).ctxOp = s.ctxOp := rfl
@[simp] theorem State.modRegion_ctxTick (r : Nat) (f : ClkRegion → ClkRegion) : (s.modRegion r f).ctxTick = s.ctxTick := rfl
@[simp] theorem State.modRegion_ctxMules (r : Nat) (f : ClkRegion → ClkRegion) : (s.modRegion r f).ctxMules = s.ctxMules := rfl
@[simp] theorem State.modRegion_ctxKey (r : Nat) (f : ClkRegion → ClkRegion) : (s.modRegion r f).ctxKey = s.ctxKey := rfl
@[simp] theorem State.modRegion_bootNonce (r : Nat) (f : ClkRegion → ClkRegion) : (s.modRegion r f).bootNonce = s.bootNonce := rfl
@[simp] theorem State.modRegion_ctxDrawn (r : Nat) (f : ClkRegion → ClkRegion) : (s.modRegion r f).ctxDrawn = s.ctxDrawn := rfl
@[simp] theorem State.modRegion_dumpBuf (r : Nat) (f : ClkRegion → ClkRegion) : (s.modRegion r f).dumpBuf = s.dumpBuf := rfl
@[simp] theorem State.modRegion_dsigs (r : Nat) (f : ClkRegion → ClkRegion) : (s.modRegion r f).dsigs = s.dsigs := rfl
@[simp] theorem State.modRegion_us (r : Nat) (f : ClkRegion → ClkRegion) : (s.modRegion r f).us = s.us := rfl
@[simp] theorem State.modRegion_hlk (r : Nat) (f : ClkRegion → ClkRegion) : (s.modRegion r f).hlk = s.hlk := rfl
@[simp] theorem State.modRegion_tickFlits (r : Nat) (f : ClkRegion → ClkRegion) : (s.modRegion r f).tickFlits = s.tickFlits := rfl
@[simp] theorem State.modRegion_items (r : Nat) (f : ClkRegion → ClkRegion) : (s.modRegion r f).items = s.items := rfl
@[simp] theorem State.modRegion_rstJob (r : Nat) (f : ClkRegion → ClkRegion) : (s.modRegion r f).rstJob = s.rstJob := rfl
@[simp] theorem State.modRegion_rstRows (r : Nat) (f : ClkRegion → ClkRegion) : (s.modRegion r f).rstRows = s.rstRows := rfl
@[simp] theorem State.modRegion_rstWarm (r : Nat) (f : ClkRegion → ClkRegion) : (s.modRegion r f).rstWarm = s.rstWarm := rfl
@[simp] theorem State.modRegion_closed (r : Nat) (f : ClkRegion → ClkRegion) : (s.modRegion r f).closed = s.closed := rfl
@[simp] theorem State.modRegion_events (r : Nat) (f : ClkRegion → ClkRegion) : (s.modRegion r f).events = s.events := rfl
@[simp] theorem State.modRegion_carried (r : Nat) (f : ClkRegion → ClkRegion) : (s.modRegion r f).carried = s.carried := rfl

@[simp] theorem State.modLink_pending (l : Nat) (f : Link → Link) : (s.modLink l f).pending = s.pending := rfl
@[simp] theorem State.modLink_freeCount (l : Nat) (f : Link → Link) : (s.modLink l f).freeCount = s.freeCount := rfl
@[simp] theorem State.modLink_entropyCount (l : Nat) (f : Link → Link) : (s.modLink l f).entropyCount = s.entropyCount := rfl
@[simp] theorem State.modLink_part (l : Nat) (f : Link → Link) : (s.modLink l f).part = s.part := rfl
@[simp] theorem State.modLink_regs (l : Nat) (f : Link → Link) : (s.modLink l f).regs = s.regs := rfl
@[simp] theorem State.modLink_regAnswer (l : Nat) (f : Link → Link) : (s.modLink l f).regAnswer = s.regAnswer := rfl
@[simp] theorem State.modLink_shadow (l : Nat) (f : Link → Link) : (s.modLink l f).shadow = s.shadow := rfl
@[simp] theorem State.modLink_hiLatch (l : Nat) (f : Link → Link) : (s.modLink l f).hiLatch = s.hiLatch := rfl
@[simp] theorem State.modLink_spad (l : Nat) (f : Link → Link) : (s.modLink l f).spad = s.spad := rfl
@[simp] theorem State.modLink_hbm (l : Nat) (f : Link → Link) : (s.modLink l f).hbm = s.hbm := rfl
@[simp] theorem State.modLink_ddr (l : Nat) (f : Link → Link) : (s.modLink l f).ddr = s.ddr := rfl
@[simp] theorem State.modLink_spadMark (l : Nat) (f : Link → Link) : (s.modLink l f).spadMark = s.spadMark := rfl
@[simp] theorem State.modLink_hbmPoison (l : Nat) (f : Link → Link) : (s.modLink l f).hbmPoison = s.hbmPoison := rfl
@[simp] theorem State.modLink_ddrPoison (l : Nat) (f : Link → Link) : (s.modLink l f).ddrPoison = s.ddrPoison := rfl
@[simp] theorem State.modLink_spadErr (l : Nat) (f : Link → Link) : (s.modLink l f).spadErr = s.spadErr := rfl
@[simp] theorem State.modLink_hbmErr (l : Nat) (f : Link → Link) : (s.modLink l f).hbmErr = s.hbmErr := rfl
@[simp] theorem State.modLink_ddrErr (l : Nat) (f : Link → Link) : (s.modLink l f).ddrErr = s.ddrErr := rfl
@[simp] theorem State.modLink_tiles (l : Nat) (f : Link → Link) : (s.modLink l f).tiles = s.tiles := rfl
@[simp] theorem State.modLink_rowWords (l : Nat) (f : Link → Link) : (s.modLink l f).rowWords = s.rowWords := rfl
@[simp] theorem State.modLink_frame (l : Nat) (f : Link → Link) : (s.modLink l f).frame = s.frame := rfl
@[simp] theorem State.modLink_routes (l : Nat) (f : Link → Link) : (s.modLink l f).routes = s.routes := rfl
@[simp] theorem State.modLink_routesNext (l : Nat) (f : Link → Link) : (s.modLink l f).routesNext = s.routesNext := rfl
@[simp] theorem State.modLink_twins (l : Nat) (f : Link → Link) : (s.modLink l f).twins = s.twins := rfl
@[simp] theorem State.modLink_twinsNext (l : Nat) (f : Link → Link) : (s.modLink l f).twinsNext = s.twinsNext := rfl
@[simp] theorem State.modLink_twinClear (l : Nat) (f : Link → Link) : (s.modLink l f).twinClear = s.twinClear := rfl
@[simp] theorem State.modLink_entries (l : Nat) (f : Link → Link) : (s.modLink l f).entries = s.entries := rfl
@[simp] theorem State.modLink_reqWait (l : Nat) (f : Link → Link) : (s.modLink l f).reqWait = s.reqWait := rfl
@[simp] theorem State.modLink_sent (l : Nat) (f : Link → Link) : (s.modLink l f).sent = s.sent := rfl
@[simp] theorem State.modLink_flight (l : Nat) (f : Link → Link) : (s.modLink l f).flight = s.flight := rfl
@[simp] theorem State.modLink_answers (l : Nat) (f : Link → Link) : (s.modLink l f).answers = s.answers := rfl
@[simp] theorem State.modLink_power (l : Nat) (f : Link → Link) : (s.modLink l f).power = s.power := rfl
@[simp] theorem State.modLink_mgmt (l : Nat) (f : Link → Link) : (s.modLink l f).mgmt = s.mgmt := rfl
@[simp] theorem State.modLink_tap (l : Nat) (f : Link → Link) : (s.modLink l f).tap = s.tap := rfl
@[simp] theorem State.modLink_cands (l : Nat) (f : Link → Link) : (s.modLink l f).cands = s.cands := rfl
@[simp] theorem State.modLink_viewAt (l : Nat) (f : Link → Link) : (s.modLink l f).viewAt = s.viewAt := rfl
@[simp] theorem State.modLink_electing (l : Nat) (f : Link → Link) : (s.modLink l f).electing = s.electing := rfl
@[simp] theorem State.modLink_clk (l : Nat) (f : Link → Link) : (s.modLink l f).clk = s.clk := rfl
@[simp] theorem State.modLink_regions (l : Nat) (f : Link → Link) : (s.modLink l f).regions = s.regions := rfl
@[simp] theorem State.modLink_work (l : Nat) (f : Link → Link) : (s.modLink l f).work = s.work := rfl
@[simp] theorem State.modLink_refresh (l : Nat) (f : Link → Link) : (s.modLink l f).refresh = s.refresh := rfl
@[simp] theorem State.modLink_agp (l : Nat) (f : Link → Link) : (s.modLink l f).agp = s.agp := rfl
@[simp] theorem State.modLink_colls (l : Nat) (f : Link → Link) : (s.modLink l f).colls = s.colls := rfl
@[simp] theorem State.modLink_colStarted (l : Nat) (f : Link → Link) : (s.modLink l f).colStarted = s.colStarted := rfl
@[simp] theorem State.modLink_wpairs (l : Nat) (f : Link → Link) : (s.modLink l f).wpairs = s.wpairs := rfl
@[simp] theorem State.modLink_shr (l : Nat) (f : Link → Link) : (s.modLink l f).shr = s.shr := rfl
@[simp] theorem State.modLink_load (l : Nat) (f : Link → Link) : (s.modLink l f).load = s.load := rfl
@[simp] theorem State.modLink_slotDigest (l : Nat) (f : Link → Link) : (s.modLink l f).slotDigest = s.slotDigest := rfl
@[simp] theorem State.modLink_ctxOp (l : Nat) (f : Link → Link) : (s.modLink l f).ctxOp = s.ctxOp := rfl
@[simp] theorem State.modLink_ctxTick (l : Nat) (f : Link → Link) : (s.modLink l f).ctxTick = s.ctxTick := rfl
@[simp] theorem State.modLink_ctxMules (l : Nat) (f : Link → Link) : (s.modLink l f).ctxMules = s.ctxMules := rfl
@[simp] theorem State.modLink_ctxKey (l : Nat) (f : Link → Link) : (s.modLink l f).ctxKey = s.ctxKey := rfl
@[simp] theorem State.modLink_bootNonce (l : Nat) (f : Link → Link) : (s.modLink l f).bootNonce = s.bootNonce := rfl
@[simp] theorem State.modLink_ctxDrawn (l : Nat) (f : Link → Link) : (s.modLink l f).ctxDrawn = s.ctxDrawn := rfl
@[simp] theorem State.modLink_dumpBuf (l : Nat) (f : Link → Link) : (s.modLink l f).dumpBuf = s.dumpBuf := rfl
@[simp] theorem State.modLink_dsigs (l : Nat) (f : Link → Link) : (s.modLink l f).dsigs = s.dsigs := rfl
@[simp] theorem State.modLink_us (l : Nat) (f : Link → Link) : (s.modLink l f).us = s.us := rfl
@[simp] theorem State.modLink_hlk (l : Nat) (f : Link → Link) : (s.modLink l f).hlk = s.hlk := rfl
@[simp] theorem State.modLink_tickFlits (l : Nat) (f : Link → Link) : (s.modLink l f).tickFlits = s.tickFlits := rfl
@[simp] theorem State.modLink_items (l : Nat) (f : Link → Link) : (s.modLink l f).items = s.items := rfl
@[simp] theorem State.modLink_rstJob (l : Nat) (f : Link → Link) : (s.modLink l f).rstJob = s.rstJob := rfl
@[simp] theorem State.modLink_rstRows (l : Nat) (f : Link → Link) : (s.modLink l f).rstRows = s.rstRows := rfl
@[simp] theorem State.modLink_rstWarm (l : Nat) (f : Link → Link) : (s.modLink l f).rstWarm = s.rstWarm := rfl
@[simp] theorem State.modLink_closed (l : Nat) (f : Link → Link) : (s.modLink l f).closed = s.closed := rfl
@[simp] theorem State.modLink_events (l : Nat) (f : Link → Link) : (s.modLink l f).events = s.events := rfl
@[simp] theorem State.modLink_carried (l : Nat) (f : Link → Link) : (s.modLink l f).carried = s.carried := rfl

end

/-! ### The field that an update changes -/

@[simp] theorem State.modFrame_frame (s : State) (f : Frame → Frame) : (s.modFrame f).frame = f s.frame := rfl
@[simp] theorem State.modPower_power (s : State) (f : Power → Power) : (s.modPower f).power = f s.power := rfl
@[simp] theorem State.modMgmt_mgmt (s : State) (f : Mgmt → Mgmt) : (s.modMgmt f).mgmt = f s.mgmt := rfl

/-! ### Registers -/

theorem State.reg_setReg (s : State) (o : Nat) (v : BitVec 32) (o' : Nat) :
    (s.setReg o v).reg o' = if o' = o then v else s.reg o' := by
  unfold State.reg State.setReg
  by_cases h : o' = o
  · subst h; simp
  · simp only [h, if_false]
    exact mapGet_mapSet_other _ _ h

@[simp] theorem State.reg_setReg_same (s : State) (o : Nat) (v : BitVec 32) : (s.setReg o v).reg o = v := by
  simp [State.reg_setReg]

@[simp] theorem State.reg_setReg_ne (s : State) {o o' : Nat} (v : BitVec 32) (h : o' ≠ o) :
    (s.setReg o v).reg o' = s.reg o' := by simp [State.reg_setReg, h]

/-- Registers depend on nothing but the map of registers. -/
theorem State.reg_of_regs {s s' : State} (h : s'.regs = s.regs) (o : Nat) : s'.reg o = s.reg o := by
  simp only [State.reg, h]

@[simp] theorem State.reg_setTile (s : State) (t : Nat) (x : Tile) (o : Nat) : (s.setTile t x).reg o = s.reg o := rfl
@[simp] theorem State.reg_modTile (s : State) (t : Nat) (f : Tile → Tile) (o : Nat) :
    (s.modTile t f).reg o = s.reg o := rfl
@[simp] theorem State.reg_modFrame (s : State) (f : Frame → Frame) (o : Nat) : (s.modFrame f).reg o = s.reg o := rfl
@[simp] theorem State.reg_modPower (s : State) (f : Power → Power) (o : Nat) : (s.modPower f).reg o = s.reg o := rfl
@[simp] theorem State.reg_modMgmt (s : State) (f : Mgmt → Mgmt) (o : Nat) : (s.modMgmt f).reg o = s.reg o := rfl
@[simp] theorem State.reg_modEngine (s : State) (n : Nat) (f : Agp → Agp) (o : Nat) :
    (s.modEngine n f).reg o = s.reg o := rfl
@[simp] theorem State.reg_modRegion (s : State) (r : Nat) (f : ClkRegion → ClkRegion) (o : Nat) :
    (s.modRegion r f).reg o = s.reg o := rfl
@[simp] theorem State.reg_modLink (s : State) (l : Nat) (f : Link → Link) (o : Nat) :
    (s.modLink l f).reg o = s.reg o := rfl

/-! ### Tiles -/

theorem State.tile_setTile (s : State) (t : Nat) (x : Tile) (u : Nat) :
    (s.setTile t x).tile u = if u = t then x else s.tile u := by
  unfold State.tile State.setTile
  exact mapGet_mapSet _ _ _ _ _

@[simp] theorem State.tile_setTile_same (s : State) (t : Nat) (x : Tile) : (s.setTile t x).tile t = x := by
  simp [State.tile_setTile]

@[simp] theorem State.tile_setTile_ne (s : State) {t u : Nat} (x : Tile) (h : u ≠ t) :
    (s.setTile t x).tile u = s.tile u := by simp [State.tile_setTile, h]

theorem State.tile_modTile (s : State) (t : Nat) (f : Tile → Tile) (u : Nat) :
    (s.modTile t f).tile u = if u = t then f (s.tile t) else s.tile u := State.tile_setTile _ _ _ _

@[simp] theorem State.tile_modTile_same (s : State) (t : Nat) (f : Tile → Tile) :
    (s.modTile t f).tile t = f (s.tile t) := by simp [State.tile_modTile]

@[simp] theorem State.tile_modTile_ne (s : State) {t u : Nat} (f : Tile → Tile) (h : u ≠ t) :
    (s.modTile t f).tile u = s.tile u := by simp [State.tile_modTile, h]

@[simp] theorem State.tile_setReg (s : State) (o : Nat) (v : BitVec 32) (t : Nat) :
    (s.setReg o v).tile t = s.tile t := rfl

/-- Tiles depend on nothing but the map of tiles. -/
theorem State.tile_of_tiles {s s' : State} (h : s'.tiles = s.tiles) (t : Nat) : s'.tile t = s.tile t := by
  simp only [State.tile, h]

/-! ### Engines and regions -/

theorem State.engine_modEngine (s : State) (n : Nat) (f : Agp → Agp) (m : Nat) :
    (s.modEngine n f).engine m = if m = n then f (s.engine n) else s.engine m := by
  unfold State.engine State.modEngine
  exact mapGet_mapSet _ _ _ _ _

@[simp] theorem State.engine_modEngine_same (s : State) (n : Nat) (f : Agp → Agp) :
    (s.modEngine n f).engine n = f (s.engine n) := by simp [State.engine_modEngine]

@[simp] theorem State.engine_setReg (s : State) (o : Nat) (v : BitVec 32) (n : Nat) :
    (s.setReg o v).engine n = s.engine n := rfl

theorem State.region_modRegion (s : State) (r : Nat) (f : ClkRegion → ClkRegion) (q : Nat) :
    (s.modRegion r f).region q = if q = r then f (s.region r) else s.region q := by
  unfold State.region State.modRegion
  exact mapGet_mapSet _ _ _ _ _

@[simp] theorem State.region_modRegion_same (s : State) (r : Nat) (f : ClkRegion → ClkRegion) :
    (s.modRegion r f).region r = f (s.region r) := by simp [State.region_modRegion]

@[simp] theorem State.region_setReg (s : State) (o : Nat) (v : BitVec 32) (r : Nat) :
    (s.setReg o v).region r = s.region r := rfl

end Sys2Proof.Machine
end

