-- ==== Sys2Proof/Laws/Events.lean ====
section
/-! SUPPORT. Laws of registers that count and of Goose events: what raising an event changes, and that it changes
nothing else. -/

namespace Sys2Proof.Machine

/-! ### Counters and flags -/

theorem State.reg_addReg (s : State) (o n o' : Nat) :
    (s.addReg o n).reg o' = if o' = o then BitVec.ofNat 32 (min ((s.reg o).toNat + n) (2 ^ 32 - 1)) else s.reg o' :=
  State.reg_setReg _ _ _ _

theorem State.reg_incReg (s : State) (o o' : Nat) :
    (s.incReg o).reg o' = if o' = o then BitVec.ofNat 32 (min ((s.reg o).toNat + 1) (2 ^ 32 - 1)) else s.reg o' :=
  State.reg_addReg _ _ _ _

theorem State.reg_orReg (s : State) (o : Nat) (v : BitVec 32) (o' : Nat) :
    (s.orReg o v).reg o' = if o' = o then s.reg o ||| v else s.reg o' := State.reg_setReg _ _ _ _

theorem toNat_sat (n : Nat) : (BitVec.ofNat 32 (min n (2 ^ 32 - 1))).toNat = min n (2 ^ 32 - 1) := by
  rw [BitVec.toNat_ofNat, Nat.mod_eq_of_lt]
  exact lt_of_le_of_lt (Nat.min_le_right _ _) (by norm_num)

/-- A register write changes registers only. -/
theorem onlyRegs_setReg (s : State) (o : Nat) (v : BitVec 32) : onlyRegs s (s.setReg o v) := by
  cases s; rfl

theorem onlyRegs.trans {s s1 s2 : State} (h : onlyRegs s s1) (h' : onlyRegs s1 s2) : onlyRegs s s2 := by
  unfold onlyRegs at *
  have e := congrArg (fun x : State => { x with regs := s.regs }) h'
  exact e.trans h

/-! ### Hard events -/

theorem recordFault_onlyRegs (s : State) (e : GEvent) : onlyRegs s (recordFault s e) := by
  unfold recordFault; split
  · rfl
  · exact onlyRegs_setReg _ _ _

theorem localCount_onlyRegs (s : State) (e : GEvent) : onlyRegs s (localCount s e) := by
  have h2 : ∀ a b v, onlyRegs s ((s.orReg a v).incReg b) := fun a b v =>
    (onlyRegs_setReg s a _).trans (onlyRegs_setReg _ b _)
  unfold localCount
  split
  · exact h2 _ _ _
  · exact h2 _ _ _
  · exact (h2 _ _ _).trans (recordFault_onlyRegs _ _)
  · rfl
  · exact recordFault_onlyRegs s e

theorem reg_recordFault (s : State) (e : GEvent) {o : Nat} (h : o ≠ GOS_REC_FAULT) :
    (recordFault s e).reg o = s.reg o := by
  unfold recordFault; split
  · rfl
  · exact State.reg_setReg_ne _ _ h

/-- Raising an event changes registers and the events of the frames only. -/
theorem raise_frame (s : State) (e : GEvent) :
    { s.raise e with regs := s.regs, events := s.events, closed := s.closed } = s := by
  have h := localCount_onlyRegs s e
  unfold State.raise State.raiseFrame
  split
  · exact congrArg (fun x : State => { x with events := s.events, closed := s.closed }) h
  · exact congrArg (fun x : State => { x with events := s.events, closed := s.closed }) h

/-- What a hard event does (R370, R372, R395). -/
theorem raise_hard (s : State) (e : GEvent) (h : evClass e.kind = .hard) :
    raisedHard s (s.raise e) e ∧ sameRegsBut s (s.raise e) (hardRegs e.region) := by
  have hl : localCount s e
      = recordFault ((s.orReg (GOS_L_EVENT e.region) 4).incReg (GOS_L_HARD e.region)) e := by
    unfold localCount; rw [h]
  have hr : ∀ o, (s.raise e).reg o = (localCount s e).reg o := by
    intro o; unfold State.raise State.raiseFrame; split <;> rfl
  have hc : (localCount s e).closed = s.closed := by
    rw [hl]
    have a := congrArg State.closed (recordFault_onlyRegs ((s.orReg (GOS_L_EVENT e.region) 4).incReg (GOS_L_HARD e.region)) e)
    simpa [State.orReg, State.incReg, State.addReg] using a
  have n1 : GOS_L_HARD e.region ≠ GOS_REC_FAULT := by unfold GOS_L_HARD GOS_REC_FAULT regionBase; omega
  have n2 : GOS_L_EVENT e.region ≠ GOS_REC_FAULT := by unfold GOS_L_EVENT GOS_REC_FAULT regionBase; omega
  have n3 : GOS_L_EVENT e.region ≠ GOS_L_HARD e.region := by unfold GOS_L_EVENT GOS_L_HARD; omega
  refine ⟨⟨?_, ?_, ?_⟩, ?_⟩
  · intro hd
    unfold State.raise State.raiseFrame
    rw [hd]
    exact ⟨rfl, hc⟩
  · rw [hr, hl, reg_recordFault _ _ n1, State.reg_incReg, if_pos rfl, toNat_sat, State.reg_orReg, if_neg n3.symm]
  · rw [hr, hl, reg_recordFault _ _ n2, State.reg_incReg, if_neg n3, State.reg_orReg, if_pos rfl]
  · intro o ho
    simp only [hardRegs, List.mem_cons, List.not_mem_nil, or_false, not_or] at ho
    rw [hr, hl, reg_recordFault _ _ ho.2.2, State.reg_incReg, if_neg ho.1, State.reg_orReg, if_neg ho.2.1]

theorem raise_tiles (s : State) (e : GEvent) : (s.raise e).tiles = s.tiles :=
  by simpa using congrArg State.tiles (raise_frame s e)

theorem raise_tile (s : State) (e : GEvent) (t : Nat) : (s.raise e).tile t = s.tile t :=
  State.tile_of_tiles (raise_tiles s e) t

theorem raise_tileRegion (s : State) (f : Tile → Tile) (t u : Nat) :
    (s.modTile t f).tileRegion u = s.tileRegion u := by
  unfold State.tileRegion State.physRow State.usedRows State.rowMap
  simp only [State.reg_modTile]

end Sys2Proof.Machine
end

