-- ==== Sys2Proof/Laws/Memories.lean ====
section
/-! SUPPORT. Laws of the memories: what a byte reads after a write, and that every write keeps the canonical form. -/

namespace Sys2Proof.Machine

/-! ### Reads after writes -/

theorem memGet_memSet (m : List Host.Cell) (a : Nat) (b : BitVec 8) (x : Nat) :
    memGet (memSet m a b) x = if x = a then b else memGet m x := mapGet_mapSet _ _ _ _ _

/-- A memory reads the bytes written to it, and elsewhere what it read before. -/
theorem memGet_memWrite (m : List Host.Cell) (a : Nat) (bs : List (BitVec 8)) (x : Nat) :
    memGet (memWrite m a bs) x = if a ≤ x ∧ x < a + bs.length then bs.getD (x - a) 0 else memGet m x := by
  induction bs generalizing m a with
  | nil => rw [if_neg (by simp)]; rfl
  | cons b t ih =>
    rw [memWrite, ih, memGet_memSet]
    by_cases h : x = a
    · subst h
      rw [if_neg (by omega), if_pos rfl, if_pos ⟨le_refl _, by simp⟩]
      simp
    · rw [if_neg h]
      by_cases h1 : a + 1 ≤ x ∧ x < a + 1 + t.length
      · rw [if_pos h1, if_pos ⟨by omega, by simp only [List.length_cons]; omega⟩]
        have : x - a = (x - (a + 1)) + 1 := by omega
        rw [this, List.getD_cons_succ]
      · rw [if_neg h1, if_neg (by simp only [List.length_cons]; omega)]

/-! ### The canonical form -/

theorem Memory.wf_nil : Memory.wf [] = true := rfl

theorem Memory.wf_memSet {m : List Host.Cell} (a : Nat) (b : BitVec 8) (h : Memory.wf m = true) :
    Memory.wf (memSet m a b) = true := mapWf_mapSet a b h

theorem Memory.wf_memWrite {m : List Host.Cell} (a : Nat) (bs : List (BitVec 8)) (h : Memory.wf m = true) :
    Memory.wf (memWrite m a bs) = true := by
  induction bs generalizing m a with
  | nil => exact h
  | cons b t ih => exact ih _ (Memory.wf_memSet a b h)

end Sys2Proof.Machine
end

