-- ==== Sys2Proof/Laws/Mule.lean ====
section
/-! SUPPORT. Laws of the Mule: an instruction that is at the pc runs, what the shared ends of an instruction change,
and what a fault changes. -/

namespace Sys2Proof.Machine

/-- The instruction at the pc of a Mule that is ready runs. -/
theorem onMule_at {s : State} {t : Nat} {w : BitVec 32} (h : muleAt s t w) (f : State → State) :
    onMule t w s f = .next (f s) := by
  obtain ⟨h1, h2, h3, h4, h5⟩ := h
  unfold onMule State.onTile
  rw [if_pos h1]
  unfold muleRun muleFetch
  simp only [h2, h4, h5, Bool.not_true, Bool.false_eq_true, if_false, if_neg (Nat.not_le.2 h3), if_true]

theorem onTile_lt {s : State} {t : Nat} (h : t < s.tileCount) (f : State → State) :
    s.onTile t f = .next (f s) := if_pos h

theorem mule_modMule (s : State) (t : Nat) (f : Mule → Mule) :
    ((s.modMule t f).tile t).mule = f (s.tile t).mule := by
  simp [State.modMule]

theorem onlyTiles_modTile (s : State) (t : Nat) (f : Tile → Tile) : onlyTiles s (s.modTile t f) := rfl

theorem sameTilesBut_modTile (s : State) (t : Nat) (f : Tile → Tile) : sameTilesBut s (s.modTile t f) [t] := by
  intro u hu
  exact State.tile_modTile_ne _ _ (by simpa using hu)

/-- Changing a Mule changes nothing else. -/
theorem muleBecame_modMule (s : State) (t : Nat) (f : Mule → Mule) :
    muleBecame s (s.modMule t f) t (f (s.tile t).mule) :=
  ⟨mule_modMule s t f, rfl, sameTilesBut_modTile _ _ _, by simp [State.modMule]⟩

/-- s0 reads 0, the register written reads its value, the others read as before (R148). -/
theorem muleReg_muleSet (m : Mule) (r q : BitVec 5) (v : BitVec 32) :
    muleReg (muleSet m r v) q = if q = 0 then 0 else if q = r then v else muleReg m q := by
  unfold muleReg muleSet
  by_cases hq : q = 0
  · rw [if_pos hq, if_pos hq]
  · rw [if_neg hq, if_neg hq]
    by_cases hr : r = 0
    · rw [if_pos hr, if_neg (fun e => hq (e.trans hr)), if_neg hq]
    · rw [if_neg hr]
      by_cases h : q = r
      · rw [if_pos h, h]; exact mapGet_mapSet_same _ _ _ _
      · have : q.toNat ≠ r.toNat := fun e => h (BitVec.eq_of_toNat_eq e)
        rw [if_neg h, if_neg hq]; exact mapGet_mapSet_ne _ _ _ this

/-- The regular end of an instruction (R148, R151). -/
theorem muleWrote_modMule (s : State) (t : Nat) (d : BitVec 5) (v pc : BitVec 32) :
    muleWrote s (s.modMule t fun m => { muleSet m d v with pc := pc }) t d v pc := by
  have hr : ∀ r, (s.modMule t fun m => { muleSet m d v with pc := pc }).sreg t r
      = muleReg (muleSet (s.tile t).mule d v) r := by
    intro r
    unfold State.sreg
    rw [mule_modMule]
    rfl
  refine ⟨?_, ?_, ?_, (muleBecame_modMule s t _).2⟩
  · rw [hr, muleReg_muleSet]
    by_cases h : d = 0 <;> simp [h]
  · intro r h
    rw [hr, muleReg_muleSet]
    by_cases h0 : r = 0
    · rw [if_pos h0, h0]; rfl
    · rw [if_neg h0, if_neg h]; rfl
  · rw [mule_modMule]
    unfold muleSet
    split <;> rfl

theorem muleWrote_muleDone (s : State) (t : Nat) (d : BitVec 5) (v : BitVec 32) :
    muleWrote s (muleDone s t d v) t d v ((s.tile t).mule.pc + 4) := by
  have h := muleWrote_modMule s t d v ((s.tile t).mule.pc + 4)
  have e : muleDone s t d v = s.modMule t fun m => { muleSet m d v with pc := (s.tile t).mule.pc + 4 } := by
    unfold muleDone State.modMule State.modTile
    rfl
  rw [e]
  exact h

theorem muleWrote_muleNext (s : State) (t : Nat) : muleWrote s (muleNext s t) t 0 0 ((s.tile t).mule.pc + 4) :=
  muleWrote_muleDone s t 0 0

/-- A fault of the Mule stops it and raises MULE_FAULT (R164). -/
theorem muleFaulted_muleFault (s : State) (t code : Nat) : muleFaulted s (muleFault s t code) t code := by
  let s1 := s.modMule t fun m => { m with state := .fault, fcode := code, faultPc := m.pc, waitSem := none }
  have hrg : s1.tileRegion t = s.tileRegion t := raise_tileRegion _ _ _ _
  have hcy : s1.cycle t = s.cycle t := by simp [s1, State.cycle, State.modMule]
  let e : GEvent := ⟨.muleFault, s.tileRegion t, t, s.cycle t, code⟩
  have hs : muleFault s t code = s1.raise e := by
    show s1.raise ⟨.muleFault, s1.tileRegion t, t, s1.cycle t, code⟩ = _
    rw [hrg, hcy]
  obtain ⟨⟨a, b, c⟩, r⟩ := raise_hard s1 e rfl
  have hre : ∀ o, s1.reg o = s.reg o := fun o => State.reg_modTile _ _ _ _
  rw [hs]
  refine ⟨?_, ?_, ?_, ⟨?_, ?_, ?_⟩, ?_⟩
  · rw [raise_tile]; simp [s1, State.modMule]
  · intro u hu
    rw [raise_tile]
    exact sameTilesBut_modTile s t _ u hu
  · exact congrArg (fun x : State => { x with tiles := s.tiles }) (raise_frame s1 e)
  · exact a
  · rw [b, hre]
  · rw [c, hre]
  · intro o ho
    rw [r o ho, hre]

end Sys2Proof.Machine
end

