-- ==== Sys2Proof/Tests/Slice0.lean ====
section
/-! SUPPORT. Tests on fixed values. The smoke tests of the well-formedness checks; for each statement with hypotheses a
concrete state and operands that meet them (`witness_…`); and single steps whose expected results come from the rules of
the specification (`test_…`). -/

namespace Sys2Proof.Tests

open Sys2Proof Sys2Proof.Machine

set_option Elab.async false

/-! ### States that the tests start from -/

/-- A module with power, 64 tiles, and an armed frame of program 0 in which tiles 0 to 31 run for 1,000 cycles. -/
def run : State :=
  let s := { State.reset with
    power := { Power.reset with
      mainGood := true
      p12 := true
      p52 := true
      enLow := true
      onReq := true
      stagger := true
      seq := .on }
    mgmt := { Mgmt.reset with stage := 3, dev := 7, inForce := [(1, [])], slotOk := true }
    frame := { Frame.reset with armed := some 0, released := true, acquired := true } }
  let s := (s.setReg DMC_IDENT (BitVec.ofNat 32 (2 + 64 * 2 ^ 8 + 8 * 2 ^ 19))).setReg DMC_ROWMAP_LO 3
  (s.setReg (FRM_PROG_CYCLES 0) 1000).setReg (FRM_USED 0 0) 0xFFFFFFFF

/-- The state after a command; the state before it where it does not answer a next state. -/
def after (i : Instr) (s : State) : State :=
  match exec i s with
  | .next s' => s'
  | _ => s

/-- Whether a command answers a next state. -/
def goes (i : Instr) (s : State) : Bool :=
  match exec i s with
  | .next _ => true
  | _ => false

/-- Whether a command answers a next state equal to the one before. -/
def stays (i : Instr) (s : State) : Bool :=
  match exec i s with
  | .next s' => decide (s' = s)
  | _ => false

theorem test_run : run.tileCount = 64 ∧ run.tileIssues 0 = true ∧ run.tileIssues 63 = false ∧ run.tileRuns 0 = true := by
  decide +kernel

/-! ### The checks of WellFormed -/

/-- VADD in the FP32 view of one row from registers 1 and 2 to register 0 (R183). -/
def slot : VecSlot := ⟨0, 0, 1, 0, 1, 2, 3, 0, 0, 0, 0, 0⟩

theorem test_wellFormed_accepts : wellFormed (.vadd 1023 slot) = true ∧ wellFormed (.pass 0 63 4) = true
    ∧ wellFormed (.regRead 0 12) = true ∧ wellFormed (.cancel) = true := by decide +kernel
theorem test_tileOk_refuses : wellFormed (.bundleIssue 1024) = false := by decide +kernel
/-- VIEW 3 is reserved (R175). -/
theorem test_vectorOk_refuses : wellFormed (.vadd 0 { slot with view := 3 }) = false := by decide +kernel
/-- IND values 1 to 3 are reserved (R177). -/
theorem test_indOk_refuses : wellFormed (.pass 0 0 1) = false ∧ wellFormed (.srun 0 0 0 0 false 3) = false := by
  decide +kernel
/-- Host packets carry whole words, at most 256 bytes (R427, R428). -/
theorem test_hostOk_refuses :
    wellFormed (.hostRead 0 ⟨1, 0, false, false, 0, 260, [], []⟩ false) = false
    ∧ wellFormed (.hostWrite 0 ⟨0, 0, false, false, 0, 0, [1], []⟩ false) = false := by decide +kernel
theorem test_sideBandOk_refuses : wellFormed (.regRead 0 0) = false ∧ wellFormed (.regRead 0 13) = false
    ∧ wellFormed (.regWrite 0 []) = false := by decide +kernel

/-! ### The machine as a whole -/

theorem witness_StepRunsFrontCommand : State.reset.pending = [] := by decide +kernel
theorem test_step_runs_front : step { State.reset with pending := [.cancel] } = .next State.reset := rfl
theorem test_step_idle : ∃ s', step State.reset = .next s' ∧ s'.us = 1 := ⟨_, rfl, by decide +kernel⟩
theorem witness_StepKeepsMemoriesCanonical : memoriesWf { State.reset with hbm := [(4, 1)], pending := [.cancel] }
    ∧ step { State.reset with hbm := [(4, 1)], pending := [.cancel] } = .next { State.reset with hbm := [(4, 1)] } :=
  ⟨by unfold memoriesWf; decide +kernel, rfl⟩
theorem witness_OnlyMissingTilesFault_missing : tileOf (.endOp 64) = some 64 ∧ run.tileCount ≤ 64 := by decide +kernel
theorem witness_OnlyMissingTilesFault_present : tileOf (.endOp 63) = some 63 ∧ 63 < run.tileCount := by decide +kernel
theorem test_missing_tile : exec (.endOp 64) run = .fault (.noSuchTile 64) := rfl

/-! ### The Mule -/

/-- Tile 0's Mule runs the word `w`, with `a` in s1 and `b` in s2. -/
def mule (w a b : BitVec 32) : State :=
  run.modMule 0 fun m => { m with state := .running, imem := [(0, w)], regs := [(1, a), (2, b)] }

/-- What s3 holds after a command. -/
def s3 (i : Instr) (w a b : BitVec 32) : BitVec 32 := (after i (mule w a b)).sreg 0 3

theorem witness_MuleWordsAreUnique : muleWord (.add 0 3 1 2) = some (0, 0x00611000) ∧ muleIllegal 0x00611000 = false := by
  decide +kernel
/-- ADD s3, s1, s2: opcode 0x00 in bits 31:26, d in 25:21, a in 20:16, b in 15:11 (R150, R151). -/
theorem witness_MuleArithmeticWritesResult : muleWord (.add 0 3 1 2) = some (0, 0x00611000)
    ∧ muleAt (mule 0x00611000 5 6) 0 0x00611000 ∧ muleResult (mule 0x00611000 5 6) (.add 0 3 1 2) = some (3, 11) := by
  unfold muleAt; decide +kernel
theorem test_mule_arithmetic_a :
    s3 (.add 0 3 1 2) 0x00611000 0xFFFFFFFF 2 = 1 ∧ s3 (.sub 0 3 1 2) 0x04611000 1 2 = 0xFFFFFFFF
    ∧ s3 (.and 0 3 1 2) 0x08611000 0xC 0xA = 8 ∧ s3 (.or 0 3 1 2) 0x0C611000 0xC 0xA = 0xE
    ∧ s3 (.xor 0 3 1 2) 0x10611000 0xC 0xA = 6 ∧ s3 (.shl 0 3 1 2) 0x14611000 3 33 = 6
    ∧ s3 (.shr 0 3 1 2) 0x18611000 0x80000000 31 = 1 ∧ s3 (.sra 0 3 1 2) 0x1C611000 0x80000000 31 = 0xFFFFFFFF := by
  decide +kernel
theorem test_mule_arithmetic_b :
    s3 (.slt 0 3 1 2) 0x20611000 0xFFFFFFFF 0 = 1 ∧ s3 (.sltu 0 3 1 2) 0x24611000 0xFFFFFFFF 0 = 0
    ∧ s3 (.mul 0 3 1 2) 0x28611000 0x10000 0x10001 = 0x10000
    ∧ s3 (.mulhu 0 3 1 2) 0x2C611000 0xFFFFFFFF 0xFFFFFFFF = 0xFFFFFFFE
    ∧ s3 (.mulh 0 3 1 2) 0x30611000 0xFFFFFFFF 2 = 0xFFFFFFFF := by decide +kernel
theorem test_mule_immediates :
    s3 (.addi 0 3 1 0xFFFF) 0x4061FFFF 5 0 = 4 ∧ s3 (.andi 0 3 1 0x8001) 0x44618001 0xFFFFFFFF 0 = 0x8001
    ∧ s3 (.ori 0 3 1 0x8000) 0x48618000 1 0 = 0x8001 ∧ s3 (.xori 0 3 1 0x8000) 0x4C618000 0x8001 0 = 1
    ∧ s3 (.shli 0 3 1 33) 0x50610021 3 0 = 6 ∧ s3 (.shri 0 3 1 31) 0x5461001F 0x80000000 0 = 1
    ∧ s3 (.srai 0 3 1 31) 0x5861001F 0x80000000 0 = 0xFFFFFFFF ∧ s3 (.slti 0 3 1 0xFFFF) 0x5C61FFFF 0xFFFFFFFE 0 = 1
    ∧ s3 (.lui 0 3 0x1FFFFF) 0x607FFFFF 0 0 = 0xFFFFF800 := by decide +kernel
/-- A write to s0 is ignored (R148). -/
theorem test_mule_s0 : (after (.add 0 0 1 2) (mule 0x00011000 5 6)).sreg 0 0 = 0
    ∧ ((after (.add 0 0 1 2) (mule 0x00011000 5 6)).tile 0).mule.pc = 4 := by decide +kernel

/-- Loads and stores at the last byte of each window and the first outside it. -/
theorem witness_MuleMemoryAccesses_load : muleWord (.ldw 0 3 1 0) = some (0, 0x80610000)
    ∧ muleAt (mule 0x80610000 0x1FFC 0) 0 0x80610000
    ∧ muleLoadOf (mule 0x80610000 0x1FFC 0) (.ldw 0 3 1 0) = some (0, 4, false, 3, 0x1FFC) := by unfold muleAt; decide +kernel
theorem witness_MuleMemoryAccesses_store : muleWord (.stb 0 2 1 0) = some (0, 0xA8410000)
    ∧ muleAt (mule 0xA8410000 0x100FFFFF 7) 0 0xA8410000
    ∧ muleStoreOf (mule 0xA8410000 0x100FFFFF 7) (.stb 0 2 1 0) = some (0, 1, 0x100FFFFF, 7) := by unfold muleAt; decide +kernel
theorem witness_MuleMemoryAccesses_registers : muleAt (mule 0x80610000 0x2000A000 0) 0 0x80610000
    ∧ (tileRead (mule 0x80610000 0x2000A000 0) (.mule 0) 0 0xA000).2.1 = stDone
    ∧ (tileRead (mule 0x80610000 0x2000A000 0) (.mule 0) 0 0xFFFFC).2.1 ≠ stDone := by unfold muleAt; decide +kernel
theorem test_mule_loads_registers : let s := (mule 0x80610000 0x2000A00C 0).setReg (SYN_SEM 0 3) 77
    (after (.ldw 0 3 1 0) s).sreg 0 3 = 77 := by decide +kernel
/-- A halfword at an odd address is misaligned; an address outside the map faults with ADDR whatever its low bits. -/
theorem test_mule_load_faults : ((after (.ldh 0 3 1 0) (mule 0x84610000 0x1001 0)).tile 0).mule.fcode = faultMisaligned
    ∧ ((after (.ldh 0 3 1 0) (mule 0x84610000 0x2001 0)).tile 0).mule.fcode = faultAddr
    ∧ ((after (.ldhu 0 3 1 0) (mule 0x88610000 0x20000000 0)).tile 0).mule.fcode = faultAddr := by decide +kernel
/-- STH then LDH, LDHU, LDB and LDBU of what it stored: little-endian, sign- or zero-extended. -/
theorem test_mule_store_load : let s := after (.sth 0 2 1 0) (mule 0xA4410000 0x1000 0x12348091)
    let load := fun (i : Instr) (w : BitVec 32) =>
      (after i (s.modMule 0 fun m => { m with pc := 0, imem := [(0, w)] })).sreg 0 3
    load (.ldh 0 3 1 0) 0x84610000 = 0xFFFF8091 ∧ load (.ldhu 0 3 1 0) 0x88610000 = 0x8091
    ∧ load (.ldb 0 3 1 0) 0x8C610000 = 0xFFFFFF91 ∧ load (.ldbu 0 3 1 1) 0x90610001 = 0x80 := by decide +kernel
theorem test_mule_stores_slice : memGet (after (.stw 0 2 1 0) (mule 0xA0410000 0x10000004 0x12345678)).spad 5 = 0x56
    ∧ goes (.stb 0 2 1 0) (mule 0xA8410000 0x10000004 1) = true := by decide +kernel

theorem witness_MuleBranchesAndJumps_branch : muleWord (.beq 0 1 2 2) = some (0, 0xC0220002)
    ∧ muleAt (mule 0xC0220002 7 7) 0 0xC0220002
    ∧ muleBranchOf (mule 0xC0220002 7 7) (.beq 0 1 2 2) = some (0, true, 8) := by unfold muleAt; decide +kernel
theorem witness_MuleBranchesAndJumps_jal : muleAt (mule (muleE 0x36 0x3FFFFFF) 0 0) 0 (muleE 0x36 0x3FFFFFF) := by
  unfold muleAt; decide +kernel
theorem witness_MuleBranchesAndJumps_jalr : muleAt (mule (muleB 0x37 3 1 0) 0x3FFF 0) 0 (muleB 0x37 3 1 0) := by
  unfold muleAt; decide +kernel
theorem test_mule_branches : let pc := fun (i : Instr) (w a b : BitVec 32) => ((after i (mule w a b)).tile 0).mule.pc
    pc (.beq 0 1 2 2) 0xC0220002 7 7 = 8 ∧ pc (.bne 0 1 2 2) 0xC4220002 7 7 = 4 ∧ pc (.blt 0 1 2 2) 0xC8220002 0xFFFFFFFF 0 = 8
    ∧ pc (.bge 0 1 2 2) 0xCC220002 0xFFFFFFFF 0 = 4 ∧ pc (.bltu 0 1 2 2) 0xD0220002 0xFFFFFFFF 0 = 4
    ∧ pc (.bgeu 0 1 2 2) 0xD4220002 0xFFFFFFFF 0 = 8 := by decide +kernel
theorem test_mule_jumps : let s := after (.jal 0 3) (mule 0xD8000003 0 0)
    (s.tile 0).mule.pc = 12 ∧ s.sreg 0 1 = 4
    ∧ ((after (.jalr 0 3 1 0) (mule 0xDC610000 0x3FFF 0)).tile 0).mule.pc = 0x3FFC
    ∧ ((after (.jalr 0 3 1 1) (mule 0xDC610001 0x3FFF 0)).tile 0).mule.fcode = faultAddr := by decide +kernel

theorem witness_MuleSynchronises_wait : muleAt (mule (muleB 0x38 3 0 31) 0 0) 0 (muleB 0x38 3 0 31) := by unfold muleAt; decide +kernel
theorem witness_MuleSynchronises_end :
    let s := (after (.muleWait 0 3 0 31) (mule (muleB 0x38 3 0 31) 0 0)).setSem 0 31 1
    0 < s.tileCount ∧ (s.tile 0).mule.state = .waiting ∧ (s.tile 0).mule.waitSem = some (31, (3 : BitVec 5).toNat)
      ∧ 1 ≤ s.sem 0 31 := by decide +kernel
theorem test_mule_wait_end :
    let s := after (.muleWaitEnd 0) ((after (.muleWait 0 3 0 31) (mule (muleB 0x38 3 0 31) 0 0)).setSem 0 31 5)
    s.sem 0 31 = 4 ∧ s.sreg 0 3 = 4 ∧ (s.tile 0).mule.pc = 4 ∧ (s.tile 0).mule.state = .running := by decide +kernel
theorem witness_MuleSynchronises_sig : muleAt (mule (muleA 0x39 0 1 2) 0x8003 1) 0 (muleA 0x39 0 1 2) := by
  unfold muleAt; decide +kernel
/-- A signal to tile 0 itself saturates at 65,535; one to tile 64, which the part lacks, faults; one to tile 63 waits there. -/
theorem test_mule_sig : let w := muleA 0x39 0 1 2
    (after (.muleSig 0 0 1 2) ((mule w 3 2).setSem 0 3 65534)).sem 0 3 = 65535
    ∧ ((after (.muleSig 0 0 1 2) (mule w 0x803 2)).tile 0).mule.fcode = faultAddr
    ∧ ((after (.muleSig 0 0 1 2) (mule w 0x7E3 2)).tile 63).sigs = [⟨3, 2, none⟩]
    ∧ (after (.muleSig 0 0 1 2) (mule w 0x80FF 2)).dsigs = [(255, 2)] := by decide +kernel
theorem witness_MuleSynchronises_fence : muleAt (mule (muleA 0x3A 0 0 0) 0 0) 0 (muleA 0x3A 0 0 0) := by unfold muleAt; decide +kernel
theorem witness_MuleSynchronises_halt : muleAt (mule (muleA 0x3E 0 0 0) 0 0) 0 (muleA 0x3E 0 0 0) := by unfold muleAt; decide +kernel
theorem witness_MuleSynchronises_cyc : muleAt (mule (muleA 0x3F 3 0 0) 0 0) 0 (muleA 0x3F 3 0 0)
    ∧ (mule (muleA 0x3F 3 0 0) 0 0).tileIssues 0 = true := by unfold muleAt; decide +kernel
theorem witness_MuleSynchronises_cyc_idle : let s := { mule (muleA 0x3F 3 0 0) 0 0 with frame := Frame.reset }
    muleAt s 0 (muleA 0x3F 3 0 0) ∧ s.tileIssues 0 = false := by unfold muleAt; decide +kernel
theorem test_mule_halt_cyc : ((after (.muleHalt 0 0 0 0) (mule (muleA 0x3E 0 0 0) 0 0)).tile 0).mule.state = .halted
    ∧ (after (.cyc 0 3 0 0) ((mule (muleA 0x3F 3 0 0) 0 0).modCtl 0 fun c => { c with cycle := 41 })).sreg 0 3 = 41
    ∧ ((after (.muleFence 0 0 0 0) (mule (muleA 0x3A 0 0 0) 0 0)).tile 0).mule.pc = 4 := by decide +kernel

/-- A message with TAG 0x1234, EPOCH 5 and a payload, in the inbox under handler entry 2. -/
def entry : InboxEntry := ⟨⟨selfRank, 0, 15, 0x1234, 5, true, false, false, 2, 0x1111222233334444⟩, 2, 0, false⟩
/-- Handler entry 2 of tile 0 is at word 16. -/
def withHandler (s : State) : State := (s.setReg (MUL_HADDR 0 2) 16).modMule 0 fun m => { m with inbox := [entry] }

theorem witness_MuleHandlers_yield : let s := withHandler (mule (muleA 0x3C 0 0 0) 0 0)
    muleAt s 0 (muleA 0x3C 0 0 0) ∧ eligible s 0 = some entry := by unfold muleAt; decide +kernel
theorem witness_MuleHandlers_waiting : let s := withHandler (after (.muleWait 0 3 0 1) (mule (muleB 0x38 3 0 1) 0 0))
    0 < s.tileCount ∧ (s.tile 0).mule.state = .waiting ∧ (s.tile 0).mule.waitSem = some (1, 3) ∧ s.sem 0 1 = 0
      ∧ (s.tile 0).mule.inHandler = false ∧ (s.tile 0).gated = false ∧ eligible s 0 = some entry := by decide +kernel
theorem witness_MuleHandlers_idle :
    let s := (withHandler (after (.muleHalt 0 0 0 0) (mule (muleA 0x3E 0 0 0) 0 0))).setReg (MUL_CTRL 0) 8
    0 < s.tileCount ∧ (s.tile 0).mule.state = .halted ∧ (s.tile 0).mule.haltedByHalt = true ∧ bit (s.reg (MUL_CTRL 0)) 3 = true
      ∧ (s.tile 0).mule.inHandler = false ∧ (s.tile 0).gated = false ∧ eligible s 0 = some entry := by decide +kernel
theorem witness_MuleHandlers_nested : let s := after (.yield 0 0 0 0) (withHandler (mule (muleA 0x3C 0 0 0) 0 0))
    0 < s.tileCount ∧ (s.tile 0).mule.inHandler = true := by decide +kernel
theorem witness_MuleHandlers_hret : muleAt (mule (muleA 0x3D 0 0 0) 0 0) 0 (muleA 0x3D 0 0 0) := by unfold muleAt; decide +kernel
theorem test_mule_yield : let s := after (.yield 0 0 0 0) (withHandler (mule (muleA 0x3C 0 0 0) 0 0))
    s.sreg 0 28 = 0x33334444 ∧ s.sreg 0 29 = 0x11112222 ∧ (s.sreg 0 30).extractLsb' 0 24 = 0x051234 ∧ s.sreg 0 31 = 4
      ∧ (s.tile 0).mule.pc = 64 ∧ (s.tile 0).mule.state = .handler := by decide +kernel
theorem test_mule_hret : ((after (.hret 0 0 0 0) (mule (muleA 0x3D 0 0 0) 0 0)).tile 0).mule.fcode = faultHret
    ∧ ((after (.hret 0 0 0 0) ((mule (muleA 0x3D 0 0 0) 0 0).modMule 0 fun m =>
        { m with inHandler := true, regs := [(31, 40)] })).tile 0).mule.pc = 40 := by decide +kernel

/-- A SEND to this module: s24 to s27 give the message (R159). -/
def sending : State := (mule (muleA 0x3B 3 0 0) 0 0).modMule 0 fun m => { m with regs := [(25, 0x1FFF0000), (26, 9), (27, 8)] }
theorem witness_MuleSendsMessages_send : muleAt sending 0 (muleA 0x3B 3 0 0) := by unfold muleAt; decide +kernel
theorem witness_MuleSendsMessages_answer :
    let s := { sending.modMule 0 (fun m => { m with sendDest := some 3 }) with answers := [⟨.mule 0, 0, 5⟩] }
    (s.tile 0).mule.sendDest = some (3 : BitVec 5).toNat ∧ s.answers = ⟨.mule 0, 0, 5⟩ :: [] := by decide +kernel
theorem test_mule_answer :
    let s := after .messageAnswer
      { sending.modMule 0 (fun m => { m with sendDest := some 3 }) with answers := [⟨.mule 0, 4, 5⟩] }
    s.sreg 0 3 = 4 ∧ (s.tile 0).mule.pc = 4 ∧ s.answers = [] := by decide +kernel

theorem witness_MuleControlAndFaults_control : 0 < run.tileCount ∧ (run.tile 0).inReset = false
    ∧ ((run.tile 0).mule.state = .halted ∨ (run.tile 0).mule.state = .fault) ∧ (run.tile 0).gated = false := by decide +kernel
theorem witness_MuleControlAndFaults_running : let s := sending.modMule 0 fun m => { m with sendDest := some 3 }
    ¬ ((s.tile 0).mule.state = .halted ∨ (s.tile 0).mule.state = .fault) ∧ (s.tile 0).mule.sendDest ≠ none := by decide +kernel
theorem witness_MuleControlAndFaults_fetch :
    let s := (mule 0 0 0).modMule 0 fun m => { m with pc := 0x4000 }
    0 < s.tileCount ∧ muleReady (s.tile 0).mule = true ∧ 0x4000 ≤ (s.tile 0).mule.pc.toNat := by decide +kernel
theorem witness_MuleControlAndFaults_ecc :
    let s := (mule 0 0 0).modMule 0 fun m => { m with pc := 0x3FFC, imemErr := [(0xFFF, .double)] }
    muleReady (s.tile 0).mule = true ∧ mapFind (s.tile 0).mule.imemErr ((s.tile 0).mule.pc.toNat / 4) = some .double := by
  decide +kernel
theorem witness_MuleControlAndFaults_illegal : muleAt (mule 0x34000000 0 0) 0 0x34000000 ∧ muleIllegal 0x34000000 = true := by
  unfold muleAt; decide +kernel
theorem test_mule_start : let s := after (.mulStart 0) (run.setReg (MUL_BOOT 0) 3)
    (s.tile 0).mule.pc = 12 ∧ (s.tile 0).mule.state = .running
    ∧ ((after (.mulStop 0) s).tile 0).mule.state = .halted := by decide +kernel
theorem test_mule_faults : ((after (.illegal false 0) (mule 0x34000000 0 0)).tile 0).mule.fcode = faultIllegal
    ∧ stays (.add 0 3 1 2) (mule 0x34000000 0 0) = true := by decide +kernel

/-! ### The control slot and the bundle -/

/-- Tile 0 with counter k0 = 2 in a block of bundles 5 and 6, at its last bundle. -/
def looping : State := run.modCtl 0 fun c => { c with pc := 6, k := [(0, 2)], reps := [⟨0, 5, 6⟩] }

theorem witness_ControlSlot_issue : issuing run 0 ∧ ctlActive (run.tile 0).ctl 0 = false ∧ ctlAtBodyEnd (run.tile 0).ctl = false
    ∧ ctlJumpBreaks (run.tile 0).ctl 2047 = false := by unfold issuing; decide +kernel
theorem witness_ControlSlot_jump_inside : let s := looping.modCtl 0 fun c => { c with pc := 5 }
    issuing s 0 ∧ ctlAtBodyEnd (s.tile 0).ctl = false ∧ ctlJumpBreaks (s.tile 0).ctl 5 = false := by unfold issuing; decide +kernel
theorem witness_ControlSlot_rep_skips : issuing run 0 ∧ ctlK (run.tile 0).ctl 0 = 0 := by unfold issuing; decide +kernel
theorem witness_ControlSlot_rep_opens : let s := run.modCtl 0 fun c => { c with pc := 2046, k := [(3, 1)] }
    issuing s 0 ∧ ctlK (s.tile 0).ctl 3 ≠ 0 ∧ (s.tile 0).ctl.pc.toNat + 1 ≤ 2047 := by unfold issuing; decide +kernel
theorem witness_ControlSlot_iteration : issuing looping 0 ∧ (looping.tile 0).ctl.reps = [⟨0, 5, 6⟩]
    ∧ 6 = (looping.tile 0).ctl.pc.toNat ∧ ctlK (looping.tile 0).ctl 0 ≠ 1 := by unfold issuing; decide +kernel
theorem witness_ControlSlot_enclosing :
    let s := looping.modCtl 0 fun c => { c with k := [(0, 1), (1, 3)], reps := [⟨0, 5, 6⟩, ⟨1, 2, 6⟩] }
    issuing s 0 ∧ (s.tile 0).ctl.reps = ⟨0, 5, 6⟩ :: [⟨1, 2, 6⟩] ∧ ctlK (s.tile 0).ctl 0 = 1 ∧ ctlK (s.tile 0).ctl 1 ≠ 1 := by
  unfold issuing; decide +kernel
theorem witness_ControlSlot_violations : issuing looping 0 ∧ flowViolation (looping.tile 0).ctl 0 (.kset 0 0 5)
    ∧ flowViolation (looping.tile 0).ctl 0 (.jmp 0 5) ∧ flowViolation (looping.tile 0).ctl 0 (.rep 0 1 1) := by
  unfold issuing flowViolation; decide +kernel
theorem witness_ControlSlot_crossing : let s := run.modCtl 0 fun c => { c with pc := 2047, k := [(0, 1)] }
    issuing s 0 ∧ flowViolation (s.tile 0).ctl 0 (.rep 0 0 1) := by unfold issuing flowViolation; decide +kernel
theorem witness_ControlSlot_hazard : let s := looping.setReg FRM_MODE 4
    issuing s 0 ∧ bit (s.reg FRM_MODE) 2 = true ∧ (s.tile 0).hazardSeen = false ∧ s.frame.draining = false
      ∧ bit (s.reg DBG_HZ_STATUS) 0 = false := by unfold issuing; decide +kernel
theorem test_kset : ctlK ((after (.kset 0 2 7) run).tile 0).ctl 2 = 7 ∧ ctlJ ((after (.kset 0 2 7) run).tile 0).ctl 2 = 0 := by
  decide +kernel
theorem test_iteration : let c := ((after (.repIterationEnd 0) looping).tile 0).ctl
    c.pc = 5 ∧ ctlK c 0 = 1 ∧ ctlJ c 0 = 1 := by decide +kernel
theorem test_iteration_last :
    let s := (after (.repIterationEnd 0) looping).modCtl 0 fun c => { c with pc := 6 }
    let d := ((after (.repIterationEnd 0) s).tile 0).ctl
    d.pc = 7 ∧ ctlK d 0 = 0 ∧ ctlJ d 0 = 2 ∧ d.reps = [] := by decide +kernel
theorem test_rep : let c := ((after (.rep 0 0 4) run).tile 0).ctl
    c.pc = 5 ∧ c.reps = []
    ∧ ((after (.rep 0 0 4) (run.modCtl 0 fun c => { c with k := [(0, 9)] })).tile 0).ctl.reps = [⟨0, 1, 4⟩] := by decide +kernel
theorem test_jumps : ((after (.jmp 0 99) run).tile 0).ctl.pc = 99 ∧ ((after (.jq 0 1 99) run).tile 0).ctl.pc = 1
    ∧ ((after (.jq 0 1 99) (run.modCtl 0 fun c => { c with q := [(1, true)] })).tile 0).ctl.pc = 99 := by decide +kernel
theorem test_qcmp : let q := fun (rel : BitVec 2) (imm : BitVec 16) =>
      (ctlQ ((after (.qcmp 0 3 0 rel imm) looping).tile 0).ctl 3)
    q 0 2 = true ∧ q 1 2 = false ∧ q 2 0x8000 = true ∧ q 3 2 = true ∧ q 3 3 = false := by decide +kernel
theorem test_end : ((after (.endOp 0) looping).tile 0).ctl.ended = true ∧ ((after (.endOp 0) looping).tile 0).ctl.reps = [] := by
  decide +kernel

theorem witness_quiet : quietTile run 0 := by
  refine ⟨by decide +kernel, by decide +kernel, by decide +kernel, fun _ => rfl, by decide +kernel, by decide +kernel,
    by decide +kernel, fun _ => ⟨rfl, rfl⟩, ?_, ?_, ?_⟩ <;> intro x h <;> cases h
theorem witness_BundlesIssue_empty : issuing run 0 ∧ (run.tile 0).ctl.ended = false
    ∧ mapGet 0 (run.tile 0).imem (run.tile 0).ctl.pc.toNat = 0 := by unfold issuing; decide +kernel
theorem witness_BundlesIssue_malformed : let s := run.modTile 0 fun x => { x with imem := [(0, 1 <<< 240)] }
    bundleMalformed (mapGet 0 (s.tile 0).imem (s.tile 0).ctl.pc.toNat) = true ∧ mapFind (s.tile 0).imemErr 0 = none := by decide +kernel
/-- A bundle of VADD under PRED q0, which is clear: VOP in bits 22:16, the vector PRED in bits 25:23 (R182). -/
def predicated : BitVec 256 := BitVec.ofNat 256 (4 * 2 ^ 8 + 1 * 2 ^ 16 + 4 * 2 ^ 23 + 1 * 2 ^ 33 + 4 * 2 ^ 115 + 4 * 2 ^ 147)
theorem witness_BundlesIssue_predicated : let s := run.modTile 0 fun x => { x with imem := [(0, predicated)] }
    issuing s 0 ∧ bundleMalformed predicated = false ∧ bndCop predicated = 0 ∧ bndMif predicated = 0
      ∧ (∀ p, p = bnd predicated 8 3 ∨ p = bnd predicated 23 3 ∨ p = bnd predicated 115 3 ∨ p = bnd predicated 147 3 →
          4 ≤ p ∧ ctlQ (s.tile 0).ctl (p - 4) = false) := by
  refine ⟨by unfold issuing; decide +kernel, by decide +kernel, by decide +kernel, by decide +kernel, ?_⟩
  rintro p (rfl | rfl | rfl | rfl) <;> decide +kernel
theorem witness_BundlesIssue_release : let s := { run with frame := { run.frame with released := false } }
    s.frame.armed = some 0 ∧ s.power.mainGood = true ∧ s.frame.acquired = true ∧ s.frame.released = false
      ∧ s.frame.stopped = false := by decide +kernel
theorem test_bundle_empty : ((after (.bundleIssue 0) run).tile 0).ctl.cycle = 1 ∧ ((after (.bundleIssue 0) run).tile 0).ctl.pc = 1 := by
  decide +kernel
/-- Reserved bits 255:240 make a bundle malformed (R173, R175). -/
theorem test_bundle_malformed : let s := after (.bundleIssue 0) (run.modTile 0 fun x => { x with imem := [(0, 1 <<< 255)] })
    bit (s.reg (TIL_EVENT 0)) 0 = true ∧ (s.tile 0).ctl.pc = 1 := by decide +kernel
theorem test_release : let armed := run.setReg (FRM_PROG_ENTRY 0) 40
    let s := after .releaseCycle0 { armed with frame := { armed.frame with released := false } }
    s.frame.released = true ∧ (s.tile 5).ctl.pc = 40 := by decide +kernel

/-! ### Exact accumulation and the matrix unit -/

theorem witness_AccumulatorsAndWideWords : (∀ e ∈ [((2 ^ 79 - 1 : Int), Cause.none), (-1, .none)], e.1.natAbs ≤ 2 ^ 79 - 1)
    ∧ [((2 ^ 79 - 1 : Int), Cause.none), (-1, .none)].Perm [(-1, .none), (2 ^ 79 - 1, .none)] :=
  ⟨by decide, List.Perm.swap _ _ _⟩
theorem witness_AccumulatorsAndWideWords_count : (⟨0, 0, 65535, .none⟩ : Wide).terms = 65535 := by decide
theorem witness_AccumulatorsAndWideWords_drain : (⟨BitVec.ofInt 96 (2 ^ 79 - 1), 0, 0, .none⟩ : Wide).a.toInt.natAbs ≤ 2 ^ 79 - 1
    ∧ 2 ^ 79 - 1 < (⟨BitVec.ofInt 96 (-(2 ^ 79)), 0, 0, .none⟩ : Wide).a.toInt.natAbs := by decide +kernel
theorem test_wide_word : wideBits ⟨0x1234, 0x3FF, 2, .count⟩ = BitVec.ofNat 128 (0x1234 + 0x3FF * 2 ^ 96 + 6 * 2 ^ 106 + 2 * 2 ^ 109) := by
  decide +kernel

/-- Words of an INT8 pass of one weight row with CLEAR in array 0: AFMT and WFMT 5, K 1, N 2, AMASK 1 (R109). -/
def passWords (drain dest : Nat) : List (BitVec 32) :=
  [BitVec.ofNat 32 (5 + 5 * 16 + 2 ^ 8 + 2 * 2 ^ 20 + 2 ^ 26 + 2 ^ 28), BitVec.ofNat 32 (drain * 2 ^ 10 + dest * 2 ^ 22), 0, 0x400]
def passOf (words : List (BitVec 32)) (waiting : List StepSums) (n : Nat) : Pass :=
  ⟨0, words, 0, n, none, none, [], waiting, 0, [], [], [], [], [], [], [], false, false, false, false⟩
/-- The sums of the pass's step: 3 × 5 in column 0, −2 × 7 in column 1. -/
def sums : StepSums :=
  ⟨0, 0, [(0, [valMul (.fin false 3 0) (.fin false 5 0)]), (1, [valMul (.fin true 2 0) (.fin false 7 0)])], [], [], []⟩
def passing (words : List (BitVec 32)) (waiting : List StepSums) (n cyc : Nat) : State :=
  (run.modTile 0 fun x => { x with passes := [passOf words waiting n] }).modCtl 0 fun c => { c with cycle := cyc }

theorem witness_MatrixPasses_start : issuing run 0 ∧ ((0 : BitVec 3) = 0 ∨ 4 ≤ (0 : BitVec 3).toNat) := by unfold issuing; decide +kernel
theorem witness_MatrixPasses_step : let s := passing (passWords 2 1) [] 0 0
    0 < s.tileCount ∧ s.tileRuns 0 = true
      ∧ findPass s 0 (fun p => decide (p.nextStep < passSteps p) && s.dueNow 0 (passIssue p p.nextStep))
          = some (0, passOf (passWords 2 1) [] 0) := by decide +kernel
theorem test_pass : let s := after (.pass 0 9 0) (run.setReg (MXA_DESC 0 9 0) 0x12)
    (s.tile 0).unitDesc = 9 ∧ ((s.tile 0).passes.map fun p => (p.desc, p.words)) = [(9, [0x12, 0, 0, 0])] := by decide +kernel

theorem witness_AccumulateAndDrain_add : let s := passing (passWords 2 1) [sums] 1 36
    s.tileRuns 0 = true ∧ (findPass s 0 fun p => match p.waiting with
        | st :: _ => s.dueNow 0 (st.issue + 36)
        | [] => false) = some (0, passOf (passWords 2 1) [sums] 1) := by decide +kernel
/-- 15 and −14 stand in the first two accumulators, the checksum is their sum, and the pass has copied them. -/
theorem test_accumulate : let s := after (.accumulate 0) (passing (passWords 2 1) [sums] 1 36)
    (accOf (s.array 0 0) 0).a = 15 ∧ (accOf (s.array 0 0) 1).a = BitVec.ofInt 96 (-14) ∧ (accOf (s.array 0 0) 0).terms = 1
      ∧ (s.array 0 0).chk = 1 ∧ ((s.tile 0).passes.map (·.copied)) = [true] := by decide +kernel
/-- The pass once it has copied and compared, in the cycle of its drain. -/
def draining (drain dest : Nat) : State :=
  let s := after (.checksumCompare 0)
    ((after (.accumulate 0) (passing (passWords drain dest) [sums] 1 36)).modCtl 0 fun c => { c with cycle := 37 })
  let p := (s.tile 0).passes.headD (passOf [] [] 0)
  s.modCtl 0 fun c => { c with cycle := drainDue s 0 p }
theorem witness_AccumulateAndDrain_drain : let s := draining 2 1
    0 < s.tileCount ∧ s.tileRuns 0 = true ∧ (findPass s 0 fun p => drainReady p && s.dueNow 0 (drainDue s 0 p)).isSome = true
      ∧ (s.tile 0).broken = false ∧ (s.tile 0).portUse = [] := by decide +kernel
theorem witness_AccumulateAndDrain_queue : (findPass (draining 2 0) 0 fun p =>
      drainReady p && (draining 2 0).dueNow 0 (drainDue (draining 2 0) 0 p)).isSome = true
    ∧ ((draining 2 0).tile 0).vec.queue.length < 4 := by decide +kernel
/-- Column 1's wide word at 0x410: A = −14, TERMS = 1. -/
theorem test_drain : let s := after (.drain 0) (draining 2 1)
    memGet s.spad 0x400 = 15 ∧ memGet s.spad 0x410 = 0xF2 ∧ memGet s.spad 0x411 = 0xFF ∧ memGet s.spad 0x420 = 0 := by decide +kernel

theorem witness_ChecksumsAndPartials_compare :
    let s := (after (.accumulate 0) (passing (passWords 2 1) [sums] 1 36)).modCtl 0 fun c => { c with cycle := 37 }
    s.tileRuns 0 = true ∧ (findPass s 0 fun p => p.copied && !p.compared && passCls p != .bf16 && passK p != 0
      && s.dueNow 0 (passLastU p + 1)).isSome = true := by decide +kernel
/-- A checksum that does not agree: every accumulator of the array takes CHECK. -/
theorem test_checksum : let s := (after (.accumulate 0) (passing (passWords 2 1) [sums] 1 36)).modCtl 0 fun c => { c with cycle := 37 }
    let bad := s.modTile 0 fun x => { x with passes := x.passes.map fun p => { p with snapChk := [(0, 2)] } }
    (accOf ((after (.checksumCompare 0) bad).array 0 0) 31).cause = .check
      ∧ (after (.checksumCompare 0) bad).reg (MXA_CHK_FAILS 0 0) = 1
      ∧ (accOf ((after (.checksumCompare 0) s).array 0 0) 31).cause = .none := by decide +kernel
/-- A BF16 pass (AFMT and WFMT 6) at V. -/
def bfPass : Pass :=
  { passOf [BitVec.ofNat 32 (6 + 6 * 16 + 2 ^ 8 + 2 * 2 ^ 20 + 2 ^ 26 + 2 ^ 28), 0, 0, 0] [] 1 with
    copied := true
    updated := 1
    snapBfParts := [(0, 0x3F800000), (1, 0x40000000)] }
def combining : State := (run.modTile 0 fun x => { x with passes := [bfPass] }).modCtl 0 fun c => { c with cycle := 69 }
theorem witness_ChecksumsAndPartials_combine : combining.tileRuns 0 = true ∧ combining.frame.draining = false
    ∧ findPass combining 0 (fun p => p.copied && !p.combined && passCls p == .bf16 && combining.dueNow 0 (passV p))
        = some (0, bfPass) := by decide +kernel
/-- 1.0 + 2.0 + 30 zeros is 3.0. -/
theorem test_combine : (((after (.bf16Combine 0) combining).tile 0).passes.map fun p => mapGet 0 p.snapBf 0) = [0x40400000] := by
  decide +kernel

/-! ### The vector engine -/

/-- `a`, `b` and `c` in element 0 of row 0 of tile 0's registers 1, 2 and 3. -/
def vecWith (a b c : BitVec 32) : State :=
  run.modVec 0 fun v => { v with treg := [(2048, ⟨a, .none⟩), (4096, ⟨b, .none⟩), (6144, ⟨c, .none⟩)] }
/-- The elements of the first result on its way, with the cycle it is written in. -/
def results (s : State) : Nat × List Lane :=
  match (s.vec 0).pending with
  | ⟨due, _, .treg _ _ ls⟩ :: _ => (due, ls)
  | ⟨due, _, .ocache _ ls⟩ :: _ => (due, ls)
  | _ => (0, [])
/-- Element `n` of the first result of an instruction, with the cycle it is written in. -/
def lane (n : Nat) (i : Instr) (s : State) : Nat × BitVec 32 :=
  ((results (after i s)).1, ((results (after i s)).2.getD n ⟨0, none, 0, .none⟩).bits)
def islot : VecSlot := { slot with view := 1 }

theorem witness_clean : vecClean run 0 := by unfold vecClean issuing; decide +kernel
theorem witness_VectorInstructionsIssue : vecOp (.vadd 0 slot) = some (0, 0x01, slot) ∧ issuing run 0
    ∧ vecMalformed 0x01 slot = false ∧ vecMalformed 0x01 { slot with count := 32 } = false
    ∧ vecMalformed 0x01 { slot with count := 33 } = true := by unfold issuing; decide +kernel
theorem witness_VectorInstructionsIssue_busy : let s := after (.vadd 0 { slot with count := 2 }) run
    issuing s 0 ∧ (s.vec 0).run.isSome = true := by unfold issuing; decide +kernel
theorem witness_ElementwiseAndConversion : vecOp (.vadd 0 slot) = some (0, 0x01, slot) ∧ vecIssues run 0 0x01 slot
    ∧ (elementResult (.vadd 0 slot) slot 0 0 0 0).isSome = true := by
  unfold vecIssues vecClean issuing; decide +kernel
theorem witness_ElementwiseAndConversion_int : vecIssues run 0 0x1A islot
    ∧ (elementResult (.viota 0 islot) islot 0 0 0 0).isSome = true := by unfold vecIssues vecClean issuing; decide +kernel
/-- VCVT of FP32 to BF16 (TVIEW 2). -/
theorem witness_ElementwiseAndConversion_vcvt : vecIssues run 0 0x20 { slot with mode := 2 }
    ∧ vRnd { slot with mode := 2 } ≠ .sr := by unfold vecIssues vecClean issuing; decide +kernel
theorem test_vec_fp : let s := vecWith 0x40000000 0x40400000 0x3F800000
    lane 0 (.vadd 0 slot) s = (4, 0x40A00000) ∧ lane 0 (.vsub 0 slot) s = (4, 0xBF800000)
    ∧ lane 0 (.vmul 0 slot) s = (4, 0x40C00000) ∧ lane 0 (.vfma 0 slot) s = (4, 0x40E00000)
    ∧ lane 0 (.vmin 0 slot) s = (4, 0x40000000) ∧ lane 0 (.vmax 0 slot) s = (4, 0x40400000) := by decide +kernel
theorem test_vec_fp_bits : let s := vecWith 0xC0000000 0x40400000 0x3F800000
    lane 0 (.vabs 0 slot) s = (4, 0x40000000) ∧ lane 0 (.vneg 0 slot) s = (4, 0x40000000)
    ∧ lane 0 (.vcmp 0 { slot with mode := 2 }) s = (4, 0x3F800000) ∧ lane 0 (.vcmp 0 slot) s = (4, 0)
    ∧ lane 0 (.vsel 0 slot) s = (4, 0xC0000000) ∧ lane 1 (.vsel 0 slot) s = (4, 0)
    ∧ lane 0 (.vmov 0 slot) s = (4, 0x40400000) := by decide +kernel
theorem test_vec_int : let s := vecWith 0x80000001 0x21 0
    lane 0 (.viadd 0 islot) s = (2, 0x80000022) ∧ lane 0 (.visub 0 islot) s = (2, 0x7FFFFFE0)
    ∧ lane 0 (.vimul 0 islot) s = (2, 0x80000021) ∧ lane 0 (.vand 0 islot) s = (2, 1)
    ∧ lane 0 (.vor 0 islot) s = (2, 0x80000021) ∧ lane 0 (.vxor 0 islot) s = (2, 0x80000020) := by decide +kernel
/-- The count is modulo 32; VICMP compares signed; VIOTA adds the column to IMM32. -/
theorem test_vec_int_shift : let s := vecWith 0x80000001 0x21 0
    lane 0 (.vshl 0 islot) s = (2, 2) ∧ lane 0 (.vshr 0 islot) s = (2, 0x40000000)
    ∧ lane 0 (.vsra 0 islot) s = (2, 0xC0000000) ∧ lane 0 (.vicmp 0 { islot with mode := 2 }) s = (2, 1)
    ∧ lane 5 (.viota 0 { islot with mode := 100 }) s = (2, 105) := by decide +kernel
/-- −2 to FP32 from INT32, and 2.5 to INT32 to nearest even. -/
theorem test_vec_cvt : lane 0 (.vcvt 0 islot) (vecWith 0xFFFFFFFE 0 0) = (3, 0xC0000000)
    ∧ lane 0 (.vcvt 0 { slot with mode := 1 }) (vecWith 0x40200000 0 0) = (3, 2) := by decide +kernel

theorem witness_TranscendentalsAndRandom_nan : fp32Val 0x7FC00001 = .nan ∧ fp32Val 0xBF800000 = .fin true (2 ^ 23) (-23) := by
  decide +kernel
theorem witness_TranscendentalsAndRandom_random : let s := run.setReg (VEC_RNG_CFG 0 0) 0x80000000
    vecOp (.vrngn 0 slot) = some (0, 0x32, slot) ∧ vecIssues s 0 0x32 slot ∧ bit (s.reg (VEC_RNG_CFG 0 0)) 31 = true
      ∧ s.rngBind 0 0 ≠ 1 := by unfold vecIssues vecClean issuing; decide +kernel
theorem test_transcendentals_a : (lane 0 (.vexp 0 slot) (vecWith 0xFF800000 0 0)).2 = 0
    ∧ (lane 0 (.vexp2 0 slot) (vecWith 0 0 0)).2 = 0x3F800000 ∧ (lane 0 (.vlog 0 slot) (vecWith 0x3F800000 0 0)).2 = 0
    ∧ (lane 0 (.vlog2 0 slot) (vecWith 0 0 0)).2 = 0xFF800000 ∧ (lane 0 (.vrcp 0 slot) (vecWith 0xFF800000 0 0)).2 = 0x80000000
    ∧ (lane 0 (.vrsqrt 0 slot) (vecWith 0xBF800000 0 0)).2 = 0x7FC00000 := by decide +kernel
theorem test_transcendentals_b : (lane 0 (.vsqrt 0 slot) (vecWith 0x80000000 0 0)).2 = 0x80000000
    ∧ (lane 0 (.vtanh 0 slot) (vecWith 0xFF800000 0 0)).2 = 0xBF800000 ∧ (lane 0 (.vsigm 0 slot) (vecWith 0xFF800000 0 0)).2 = 0
    ∧ (lane 0 (.verf 0 slot) (vecWith 0x7F800000 0 0)).2 = 0x3F800000 ∧ (lane 0 (.vsinpi 0 slot) (vecWith 0xC0000000 0 0)).2 = 0x80000000
    ∧ (lane 0 (.vcospi 0 slot) (vecWith 0x3F000000 0 0)).2 = 0 := by decide +kernel
/-- A stream that is not enabled draws 0. -/
theorem test_random_off : (lane 0 (.vrngu 0 slot) run).2 = 0 ∧ goes (.vrngb 0 slot) run = true ∧ goes (.vrngn 0 slot) run = true := by
  decide +kernel

theorem witness_ReductionsScansAndTree_tree : [(1 : BitVec 32), 2].length = 2 ^ 1 ∧ 2 ^ 1 < [(1 : BitVec 32), 2, 3].length
    ∧ [(1 : BitVec 32), 2, 3].length ≤ 2 ^ (1 + 1) := by decide
theorem witness_ReductionsScansAndTree_vred : vecIssues run 0 0x38 islot ∧ vAxis islot = 0
    ∧ vecIssues run 0 0x38 { islot with mode := 4 } ∧ vAxis { islot with mode := 4 } = 1 := by
  unfold vecIssues vecClean issuing; decide +kernel
theorem witness_ReductionsScansAndTree_vscan : vecIssues run 0 0x39 islot ∧ islot.view = 1 ∧ vRop islot = 0 ∧ vAxis islot = 0
    ∧ vSeg islot = 0 ∧ vExcl islot = false := by unfold vecIssues vecClean issuing; decide +kernel
/-- AXIS 2 and SEG 2 (R142), with every length of the cache row 0. -/
theorem witness_ReductionsScansAndTree_vsegred : let v := { islot with mode := 8 + 128 }
    vecIssues run 0 0x3A v ∧ v.view ≠ 2 ∧ v.count = 1
      ∧ (∀ c, c < 64 → (((List.range 64).map fun c => cacheValue run 0 v.orow.toNat 1 c).getD c elemReset).cause = .none) := by
  unfold vecIssues vecClean issuing; decide +kernel
/-- The INT32 sum of a row is 7 + 5, and the inclusive sums are 7, 12, 12. -/
def twoElems : State := run.modVec 0 fun v => { v with treg := [(2048, ⟨7, .none⟩), (2049, ⟨5, .none⟩)] }
theorem test_vred : lane 0 (.vred 0 islot) twoElems = ((results (after (.vred 0 islot) twoElems)).1, 12) := by decide +kernel
theorem test_vscan : (results (after (.vscan 0 islot) twoElems)).2.map (·.bits) = 7 :: List.replicate 63 12 := by decide +kernel

theorem witness_SortsQueuesAndAreas_sort : vecOp (.vsort 0 slot) = some (0, 0x3C, slot) ∧ vecIssues run 0 0x3C slot
    ∧ vecIssues run 0 0x3D { slot with mode := 1 } ∧ slot.vd.toNat ≠ vVf { slot with mode := 1 } := by
  unfold vecIssues vecClean issuing; decide +kernel
def queued (e : QEntry) : State := run.modVec 0 fun v => { v with queue := [e] }
theorem witness_SortsQueuesAndAreas_pop : let s := queued (.narrow (List.replicate 128 ⟨5, .none⟩))
    vecIssues s 0 0x40 { slot with count := 2 } ∧ (s.vec 0).queue = .narrow (List.replicate 128 ⟨5, .none⟩) :: [] := by
  unfold vecIssues vecClean issuing; decide +kernel
theorem witness_SortsQueuesAndAreas_empty : vecIssues run 0 0x40 { slot with count := 2 } ∧ (run.vec 0).queue = [] := by
  unfold vecIssues vecClean issuing; decide +kernel
theorem witness_SortsQueuesAndAreas_vwadd : let s := queued (.wide (List.replicate 128 accReset))
    vecIssues s 0 0x41 slot ∧ vmode slot 53 1 = 0 ∧ (s.vec 0).queue = .wide (List.replicate 128 accReset) :: []
      ∧ (List.replicate 128 accReset).length = 128 := by unfold vecIssues vecClean issuing; decide +kernel
theorem witness_SortsQueuesAndAreas_vwcvt : vecIssues run 0 0x42 { slot with count := 2 } ∧ vRnd slot ≠ .sr := by
  unfold vecIssues vecClean issuing; decide +kernel
/-- 3.0 in column 1 goes before 2.0 in column 0 (R143); its index follows it. -/
def pairs : State := run.modVec 0 fun v => { v with
  treg := [(2048, ⟨0x40000000, .none⟩), (2049, ⟨0x40400000, .none⟩), (4096, ⟨10, .none⟩), (4097, ⟨11, .none⟩)] }
theorem test_vsort : let ls := (results (after (.vsort 0 { slot with mode := 4 }) pairs)).2
    (ls.getD 0 ⟨0, none, 0, .none⟩).bits = 0x40400000 ∧ (ls.getD 1 ⟨0, none, 0, .none⟩).bits = 0x40000000 := by decide +kernel
theorem test_vqpop : let s := queued (.narrow (List.replicate 128 ⟨5, .none⟩))
    lane 63 (.vqpop 0 { slot with count := 2 }) s = (2, 5) ∧ ((after (.vqpop 0 { slot with count := 2 }) s).vec 0).queue = [] := by
  decide +kernel

/-- VOCLD, VOCST, VLD and VST of FP32 (FMT 7) at line 0x3FFF, the last of the slice. -/
theorem witness_VectorMemoryAndLanding_cache : let v := { slot with mode := 0x3FFF }
    vecOp (.vocld 0 v) = some (0, 0x4A, v) ∧ vecIssues run 0 0x4A v ∧ vecIssues run 0 0x4B v ∧ v.view = 0
      ∧ (run.tile 0).portUse = [] := by unfold vecIssues vecClean issuing; decide +kernel
theorem witness_VectorMemoryAndLanding_memory : let v := { slot with mode := BitVec.ofNat 44 (0x3FFF + 7 * 2 ^ 14) }
    vecIssues run 0 0x48 v ∧ vecIssues run 0 0x49 v ∧ vFmt v = 7 ∧ vRnd v ≠ .sr := by
  unfold vecIssues vecClean issuing; decide +kernel
theorem witness_VectorMemoryAndLanding_due : let s := (after (.viadd 0 islot) (vecWith 3 4 0)).modCtl 0 fun c => { c with cycle := 2 }
    s.tileRuns 0 = true ∧ ((s.vec 0).pending.find? fun p => s.dueNow 0 p.due).isSome = true := by decide +kernel
theorem witness_VectorMemoryAndLanding_none : ((run.vec 0).pending.find? fun p => run.dueNow 0 p.due) = none := by decide +kernel
theorem test_vec_lands : let s := (after (.viadd 0 islot) (vecWith 3 4 0)).modCtl 0 fun c => { c with cycle := 2 }
    mapGet elemReset ((after (.vecResultWrite 0) s).vec 0).treg 0 = ⟨7, .none⟩
      ∧ stays (.vecResultWrite 0) (after (.viadd 0 islot) (vecWith 3 4 0)) = true := by decide +kernel
theorem test_vocld : let s := { run with spad := [(64, 0x78), (65, 0x56), (66, 0x34), (67, 0x12)] }
    lane 0 (.vocld 0 { slot with mode := 1 }) s = (4, 0x12345678) := by decide +kernel
theorem test_vst : ((after (.vst 0 { slot with mode := BitVec.ofNat 44 (1 + 7 * 2 ^ 14) }) (vecWith 0x40000000 0 0)).vec 0).pending.map
    (fun p => (p.due, match p.what with | .spad off bs _ => (off, bs.take 4) | _ => (0, []))) = [(5, 64, [0, 0, 0, 0x40])] := by
  decide +kernel

/-! ### Stream channels -/

/-- Descriptor 0 of channel 0 of tile 0: MODE, COUNT elements of 64 bytes between 0x1000 of the slice and the start of
HBM (R239). -/
def streaming (mode count : Nat) : State :=
  ((((run.setReg (STR_DESC 0 0 0 0) (BitVec.ofNat 32 mode)).setReg (STR_DESC 0 0 0 1) 0x1000).setReg (STR_DESC 0 0 0 2) 64).setReg
    (STR_DESC 0 0 0 3) (BitVec.ofNat 32 count)).setReg (STR_DESC 0 0 0 5) 0xFFF88000
/-- Channel 0 of tile 0 with a run of descriptor 0 as SRUN starts it. -/
def started (mode count : Nat) : State := after (.srun 0 0 0 7 true 0) (streaming mode count)

theorem witness_StreamStartsAndHalts_fits : let w := (streaming 0 2).strDesc 0 0 0
    issuing (streaming 0 2) 0 ∧ descMode w ≠ 2
      ∧ descCount w ≠ 0 ∧ descRsize w ≠ 0 ∧ ((streaming 0 2).chan 0 0).run = none := by unfold issuing; decide +kernel
theorem witness_StreamStartsAndHalts_operation : streamOpOf (.srun 0 0 0 7 true 0) = some (0, 1, 0, 0, 7, true, 0)
    ∧ streamOpOf (.sgather 0 0 0 7 true 0) = some (0, 2, 0, 0, 7, true, 0) := ⟨rfl, rfl⟩
theorem witness_StreamStartsAndHalts_misfit : descMode ((streaming 2 2).strDesc 0 0 0) = 2
    ∧ issuing (streaming 2 2) 0 := by unfold issuing; decide +kernel
theorem witness_StreamStartsAndHalts_busy : ∃ q, ((started 0 2).chan 0 0).run = some q ∧ q.ended = none :=
  ⟨_, rfl, by decide +kernel⟩
theorem witness_StreamStartsAndHalts_halt : issuing (started 0 2) 0
    ∧ ((started 0 2).chan 0 0).run.map (fun r => (r.waiting, r.nextOff)) = some ([], 0) := by unfold issuing; decide +kernel
theorem test_srun : ((started 0 2).chan 0 0).run.map (fun r => (r.desc, r.sop, r.sem, r.reqAt, r.ended)) = some (0, 1, 7, 2, none)
    ∧ ((started 0 2).chan 0 0).cur = 2
    ∧ ((started 0 0).chan 0 0).run.map (fun r => r.ended) = some (some 0) := by decide +kernel
/-- SGATHER on a LINEAR descriptor does not fit its mode (R242 code 4), and neither does SRUN on an INDEXED one. -/
theorem test_stream_misfit : (after (.sgather 0 0 0 0 false 0) (streaming 0 2)).reg (STR_FAULT 0 0) = 4
    ∧ (after (.sscatter 0 0 0 0 false 0) (streaming 0 2)).reg (STR_FAULT 0 0) = 4
    ∧ (started 2 2).reg (STR_FAULT 0 0) = 4 ∧ bit ((started 2 2).reg (STR_EVENT 0)) 0 = true := by decide +kernel
theorem test_shalt : ((after (.shalt 0 0) (started 0 2)).chan 0 0).run = none ∧ stays (.shalt 0 0) run = true := by decide +kernel

theorem witness_StreamRunsProceed_complete : let s := started 0 0
    0 < s.tileCount ∧ (s.chan 0 0).run.map (fun r => r.ended) = some (some 0) ∧ s.dueNow 0 0 = true := by decide +kernel
/-- A run with one request of 4 bytes on its way, from the start of HBM, on a tile that does not issue. -/
def elem : StreamElem := ⟨0, 0, 4, fabAddr selfRank 1 0, [], [], true, none, false, none⟩
def requested : State :=
  let s := started 0 1
  let s := s.setChan 0 0 { s.chan 0 0 with run := (s.chan 0 0).run.map fun r => { r with waiting := [elem], next := 1 } }
  { s with hbm := [(0, 0xAB), (3, 0xCD)], frame := { s.frame with released := false } }
theorem witness_StreamRunsProceed_reply : (requested.chan 0 0).run.map (fun r => (r.ended, r.halted, r.waiting)) = some (none, false, [elem])
    ∧ elem.remote = false ∧ elem.answer = none ∧ elem.len ≤ 64 ∧ (requested.tile 0).broken = false
    ∧ requested.tileIssues 0 = false ∧ (requested.localRead [] elem.far elem.len).2.1 = stDone := by decide +kernel
theorem test_stream_reply : let s := after (.streamReply 0 0) requested
    memGet s.spad 0x1000 = 0xAB ∧ memGet s.spad 0x1003 = 0xCD ∧ (s.chan 0 0).run.map (fun r => (r.done, r.ended)) = some (1, some 0) := by
  decide +kernel
theorem test_stream_complete : let s := after (.streamComplete 0 0) (started 0 0)
    (s.chan 0 0).run = none ∧ (s.tile 0).sigs = [⟨7, 1, some 1⟩] := by decide +kernel
def rowWord : RowWord := ⟨0, 0, [], [], [], [], []⟩
theorem witness_StreamRunsProceed_row : let s := { run with rowWords := [rowWord, { rowWord with dest := 1 }] }
    0 < s.tileCount ∧ s.tileRuns 0 = true := by decide +kernel
theorem test_row_arrival : let s := after (.rowStreamArrival 0) { run with rowWords := [rowWord, { rowWord with dest := 1 }] }
    (s.tile 0).rowIn = [rowWord] ∧ s.rowWords = [{ rowWord with dest := 1 }] := by decide +kernel

/-! ### Messages, signals and check points -/

theorem witness_MessagesAndFences_send : issuing run 0 ∧ (run.tile 0).outstanding.length < 16 ∧ (run.tile 0).portUse = [] := by
  unfold issuing; decide +kernel
def message (port : BitVec 4) (tag : BitVec 16) (payload : BitVec 64) : Msg := ⟨0x1FFF, 2, port, tag, 1, true, false, false, 0, payload⟩
theorem witness_MessagesAndFences_release :
    let s := run.modTile 0 fun x => { x with held := [⟨0, 1, 0, message 0 3 1⟩] }
    0 < s.tileCount ∧ (s.tile 0).held.find? (fun h => s.fence 0 h.fence == 0) = some ⟨0, 1, 0, message 0 3 1⟩
      ∧ s.rankLocal (message 0 3 1).rank.toNat = true := by decide +kernel
/-- Template 3: RANK self and TILE 2 (R279); the signal is due 3 + Δt after its issue, Δt between tiles 0 and 2. -/
theorem test_msig : let s := after (.msig 0 3 5 true) ((run.setReg (MSG_TPL 0 3 0) 0x5FFF))
    s.flight.map (fun f => (f.msg.payload, f.msg.ord, f.due)) = [(5, true, 3 + 12 + 16)] ∧ (s.tile 0).outstanding.length = 1 := by
  decide +kernel
theorem test_msend : let s := after (.msend 0 3 1 false 0 0) { run.setReg (MSG_TPL 0 3 0) 0x5FFF with spad := [(8, 9), (15, 1)] }
    s.flight.map (fun f => f.msg.payload) = [0x0100000000000009] := by decide +kernel
theorem test_mfence : let s := after (.mfence 0 2) (after (.msig 0 3 5 true) (run.setReg (MSG_TPL 0 3 0) 0x5FFF))
    s.fence 0 2 = 1 ∧ s.fence 0 1 = 0 := by decide +kernel
theorem test_fence_release : ((after (.fenceReleaseSend 0)
      (run.modTile 0 fun x => { x with held := [⟨0, 1, 0, message 0 3 1⟩] })).flight.map fun f => f.msg) = [message 0 3 1] := by decide +kernel

theorem witness_CheckPointsTrace : issuing run 0 ∧ bit (run.reg FRM_MODE) 0 = false ∧ run.sem 0 31 = 0
    ∧ (run.setSem 0 31 65535).sem 0 31 = 65535 ∧ (run.setSem 0 31 1).sem 0 31 ≠ 0 := by unfold issuing; decide +kernel
theorem witness_CheckPointsTrace_strict : let s := run.setReg FRM_MODE 1
    issuing s 0 ∧ bit (s.reg FRM_MODE) 0 = true ∧ (s.tile 0).landings = [] := by unfold issuing; decide +kernel
theorem test_check_points : (after (.cpTake 0 31) (run.setSem 0 31 1)).sem 0 31 = 0
    ∧ (after (.cpTake 0 31) run).reg (MUL_LATE_COUNT 0) = 1 ∧ (after (.cpGive 0 31) (run.setSem 0 31 65535)).sem 0 31 = 65535
    ∧ stays (.cpMark 0) run = true := by decide +kernel
theorem test_cp_mark_strict : let box := [⟨message 15 9 2, 0, 0, false⟩, ⟨message 15 9 1, 0, 0, false⟩, ⟨message 15 8 7, 0, 5, false⟩]
    let s := (run.setReg FRM_MODE 1).modMule 0 fun m => { m with inbox := box }
    ((after (.cpMark 0) s).tile 0).mule.inbox.map (fun e => (e.msg.payload, e.released)) = [(1, true), (2, true), (7, false)] := by
  decide +kernel

theorem witness_SignalsAndMessagesArrive_sig : 63 < run.tileCount ∧ (run.tile 63).inReset = false
    ∧ ((run.modTile 63 fun x => { x with inReset := true }).tile 63).inReset = true := by decide +kernel
theorem witness_SignalsAndMessagesArrive_device : (0x80FF : BitVec 16).getLsbD 15 = true
    ∧ ([(255, 3)].filter fun g => g.1 == (0x80FF : BitVec 16).toNat % 256) ≠ [] := by decide +kernel
theorem witness_SignalsAndMessagesArrive_tile : let s := run.modTile 63 fun x => { x with sigs := [⟨31, 2, none⟩] }
    (0x07FF : BitVec 16).getLsbD 15 = false ∧ 0x07FF / 32 % 1024 < s.tileCount
      ∧ ((s.tile 63).sigs.filter fun g => g.sem == 0x07FF % 32) ≠ [] := by decide +kernel
theorem witness_SignalsAndMessagesArrive_receive : let s := { run with flight := [⟨message 0 31 4, .mule 0, 9⟩] }
    s.flight = ⟨message 0 31 4, .mule 0, 9⟩ :: [] ∧ (message 0 31 4).epoch.toNat = fld (s.reg (MSG_EPOCH 2)) 0 8
      ∧ s.frame.safe = none := by decide +kernel
/-- Landing port 0 of tile 2: BASE line 4, 2 entries, pair 1 (semaphores 2 and 3), open; a message due in cycle 0. -/
def landing : State :=
  let s := (run.setReg (MSG_LAND_CFG 2 0) (BitVec.ofNat 32 (4 + 2 * 2 ^ 14 + 1 * 2 ^ 22))).setSem 2 3 1
  s.modTile 2 fun x => { x with landOpen := [(0, true)], landings := [⟨message 2 0x55 0x77, .die (.mule 0) 0, some 0, 0⟩] }
theorem witness_SignalsAndMessagesArrive_landing :
    landing.dueLandings 2 = ⟨message 2 0x55 0x77, .die (.mule 0) 0, some 0, 0⟩ :: [] ∧ landing.portOpen 2 0 = true
      ∧ (landing.tile 2).gated = false ∧ landing.sem 2 (2 * fld (landing.reg (MSG_LAND_CFG 2 0)) 22 4 + 1) ≠ 0 := by decide +kernel
theorem test_signals : ((after (.synSig 63 0x0005001F) run).tile 63).sigs = [⟨31, 5, some 0⟩]
    ∧ (after (.synDsig 0x000500FF) run).dsigs = [(255, 5)]
    ∧ (after (.semaphoreSignal 0x80FF) { run with dsigs := [(255, 3), (255, 4)] }).dsem 255 = 7
    ∧ (after (.semaphoreSignal 0x07FF) (run.modTile 63 fun x => { x with sigs := [⟨31, 2, none⟩] })).sem 63 31 = 2 := by decide +kernel
/-- Ports 6 to 14 are BADPORT (answer 4); a message to a halted Mule is refused as well, with ABSENT (R268). -/
theorem test_receive : let receive := fun (m : Msg) => after (.messageReceive none) { run with flight := [⟨m, .mule 0, 9⟩] }
    ((receive (message 0 31 4)).tile 2).sigs = [⟨31, 4, some 0⟩] ∧ (receive (message 0 31 4)).answers.map (·.code) = [0]
    ∧ (receive (message 14 0 0)).answers.map (·.code) = [4] ∧ (receive (message 15 0 0)).answers.map (·.code) = [2]
    ∧ ((receive { message 0 31 4 with epoch := 2 }).answers.map (·.code)) = [3] := by decide +kernel
theorem test_landing : let s := after (.scheduledLanding 2) landing
    memGet s.spad (spadOff 2 263) = 0x77 ∧ s.sem 2 3 = 0 ∧ s.reg (MSG_LAND_WR 2 0) = 1 ∧ (s.tile 2).sigs = [⟨2, 1, some 1⟩] := by
  decide +kernel
/-- The worked example of R279: the words of router tile 96's message. -/
theorem test_message_words : msgBits ⟨0x1FFF, 517, 2, 0x0700, 3, false, false, false, 0, 0x0000004D000001C4⟩
    = 0x000000004D000001C40018380140BFFF := by decide +kernel
theorem test_close : (after (.msgLandClose 2 1) landing).portOpen 2 0 = false ∧ (after (.msgLandClose 2 2) landing).portOpen 2 0 = true := by
  decide +kernel

/-! ### Program memories and images -/

theorem witness_InstructionMemoriesAndImages_words : 0 < run.tileCount ∧ (run.tile 0).inReset = false ∧ (run.tile 0).gated = false
    ∧ (run.tile 0).mule.state = .halted := by decide +kernel
theorem test_instruction_memory : ((after (.mulImemWrite 0 4095 7) run).tile 0).mule.imem = [(4095, 7)]
    ∧ stays (.mulImemWrite 0 0 7) (mule 0 0 0) = true
    ∧ (let s := after (.imemBundleWrite .dmc 0 2047 9) (after (.imemStageWrite .dmc 0 6 5) run)
      (s.tile 0).imem = [(2047, BitVec.ofNat 256 (9 * 2 ^ 224 + 5 * 2 ^ 192))] ∧ (s.tile 0).staging = []) := by decide +kernel
/-- A load of 64 bytes at the start of HBM, and one of a length of 0. -/
def loadable : State := (run.setReg DMC_LOAD_LEN 64).setReg (DMC_LOAD_ADDR_LO + 4) 0xFFF88000
theorem witness_InstructionMemoriesAndImages_start : loadable.loadState = 0 ∧ loadable.rankLocal (addrRank (loadable.reg64 DMC_LOAD_ADDR_LO).toNat) = true
    ∧ addrSpace (loadable.reg64 DMC_LOAD_ADDR_LO).toNat = 1 ∧ (loadable.reg DMC_LOAD_LEN).toNat = 64 := by decide +kernel
theorem witness_InstructionMemoriesAndImages_checks : let s := after (.dmcLoadStart 0) loadable
    s.load = some ⟨fabAddr selfRank 1 0, 64, 0, none⟩ ∧ s.loadState = 1 := by decide +kernel
/-- An image without content, past the checks, whose second reading and commit are awaited. -/
def nif : Nif := ⟨[], 64, 0, 8, 0, 0, 1, 0, [], [], [], [], [], true⟩
def installing (state : Nat) : State :=
  (({ run with load := some ⟨fabAddr selfRank 1 0, 64, 1, some nif⟩ } : State).setReg DMC_LOAD_STATUS (BitVec.ofNat 32 (state * 2 ^ 8)))
theorem witness_InstructionMemoriesAndImages_install : (installing 2).load = some ⟨fabAddr selfRank 1 0, 64, 1, some nif⟩ ∧ (installing 2).loadState = 2 := by
  decide +kernel
theorem witness_InstructionMemoriesAndImages_end : (installing 3).loadState = 3 ∧ (installing 3).frame.commitReq = none := by decide +kernel
/-- A reserved COP is a bad request; so is a length of 0; a header without the magic number fails the checks; an abort ends the load (R222 to R229). -/
theorem test_load : let code := fun (s : State) => fld (s.reg DMC_LOAD_STATUS) 0 8 + 256 * fld (s.reg DMC_LOAD_STATUS) 16 8
    code (after (.dmcLoadStart 4) loadable) = 3 * 256 ∧ code (after (.dmcLoadStart 0) (loadable.setReg DMC_LOAD_LEN 0)) = 3 * 256
    ∧ code (after .dmcLoadAbort (after (.dmcLoadStart 0) loadable)) = 0x14 ∧ code (after .loadEnd (installing 3)) = 1
    ∧ nifHeader (List.replicate 64 0) 64 = some (loadFormat, 0) := by decide +kernel

/-! ### Upkeep of the memories -/

theorem witness_MemoryUpkeep_scrub : let s := after (.spdScrubStart 0) run
    0 < s.tileCount ∧ s.bankFree 0 15 = true ∧ mapFind (s.tile 0).scrub 15 = some 0 := by decide +kernel
theorem witness_MemoryUpkeep_writeback : let s := run.modTile 0 fun x => { x with writeBacks := [127] }
    s.bankFree 0 15 = true ∧ (s.tile 0).writeBacks.find? (fun w => (w / 8) % 16 == 15) = some 127 := by decide +kernel
def refreshing : State := ((run.setReg (HBM_STATUS 7) 3).setReg (HBM_REF_PERIOD 7) 100).setReg (HBM_REF_PHASE 7) 5
theorem witness_MemoryUpkeep_refresh : fld (refreshing.reg (HBM_STATUS (7 : Fin 8))) 0 3 = 3 ∧ refreshing.frame.armed.isSome = true
    ∧ refreshing.frame.released = true ∧ fld (refreshing.reg (HBM_REF_PERIOD (7 : Fin 8))) 0 16 ≠ 0 := by decide +kernel
theorem witness_MemoryUpkeep_ddr : let s := (run.setReg DMC_IDENT (BitVec.ofNat 32 (2 + 64 * 2 ^ 8 + 15 * 2 ^ 23))).setReg (DDR_REF_PERIOD 0) 100
    s.ddrChannels ≠ [] ∧ s.frame.armed.isSome = true ∧ s.frame.released = true ∧ fld (s.reg (DDR_REF_PERIOD 0)) 0 16 ≠ 0 := by decide +kernel
/-- Bank 15's first line is line 15 of the slice: the byte at 960 is zeroed, the one at 959 stays. -/
theorem test_scrub : let s := after (.scrubLine 0 15) { after (.spdScrubStart 0) run with spad := [(959, 1), (960, 2)] }
    s.spad = [(959, 1)] ∧ mapFind (s.tile 0).scrub 15 = some 1 := by decide +kernel
def writingBack : State := { run.modTile 0 (fun x => { x with writeBacks := [127] }) with spadErr := [(127, .single)] }
theorem test_writeback : let s := after (.eccWriteback 0 15) writingBack
    s.spadErr = [] ∧ (s.tile 0).writeBacks = [] := by decide +kernel
theorem test_refresh : (after (.hbmRefreshWindow 7 205) refreshing).refresh = [(7, 205)]
    ∧ stays (.hbmRefreshWindow 7 206) refreshing = true ∧ (after (.forcedRefresh 7 900) refreshing).reg (HBM_REF_FORCED 7) = 1
    ∧ (after (.forcedRefresh 7 900) refreshing).reg (CLK_R_HOLD_PS 55) = 900 ∧ stays (.ddrRefreshWindow 0) run = true := by decide +kernel

/-! ### The address-generator engines -/

/-- Engine 3 runs an instruction at index 4. -/
def engine (i : BitVec 64) : State :=
  (run.setReg64 (AGP_PROG_LO 3 4) i).modEngine 3 fun e => { e with pc := 4, state := .running }
/-- SETA a2, 5: OP 1 in bits 63:58, A in 57:55, IMM48 in 47:0 (R249). -/
def seta : BitVec 64 := 0x0500000000000005
theorem witness_EngineInstructions : engineSpells (engine seta) (.seta 3 2 5) 3 ∧ engineAway (engine seta) 3 := by
  refine ⟨⟨rfl, seta, ⟨by decide +kernel, by decide +kernel⟩, ?_, by decide +kernel⟩, by unfold engineAway; decide +kernel⟩
  unfold agpSpells; decide +kernel
theorem witness_EngineInstructions_writes : (agpWrites (engine seta) (.seta 3 2 5)).isSome = true ∧ agpIllegal 0xFC00000000000000 = true
    ∧ engineAt (engine 0xFC00000000000000) 3 0xFC00000000000000 := by unfold engineAt; decide +kernel
theorem witness_EngineInstructions_stopped : (run.engine 3).state = .halted ∧ ¬ ((engine seta).engine 3).state = .halted
    ∧ ((engine seta).engine 3).copies = [] := by decide +kernel
/-- REP c1 over 2 instructions, WAIT dsem 9, SIG to dsem 9 by 5, FENCE and HALT. -/
theorem witness_EngineInstructions_flow : engineSpells (engine 0x1C04000000000002) (.agpRep 3 1 2) 3
    ∧ engineSpells (engine 0x2000000000000009) (.agpWait 3 9) 3 ∧ engineSpells (engine 0x2400000000058009) (.agpSig 3 0x8009 5) 3
    ∧ engineSpells (engine 0x2800000000000000) (.agpFence 3) 3 ∧ engineSpells (engine 0x2C00000000000000) (.agpHalt 3) 3 := by
  refine ⟨⟨rfl, _, ⟨by decide +kernel, rfl⟩, ?_, by decide +kernel⟩, ⟨rfl, _, ⟨by decide +kernel, rfl⟩, ?_, by decide +kernel⟩,
    ⟨rfl, _, ⟨by decide +kernel, rfl⟩, ?_, by decide +kernel⟩, ⟨rfl, _, ⟨by decide +kernel, rfl⟩, ?_, by decide +kernel⟩,
    ⟨rfl, _, ⟨by decide +kernel, rfl⟩, ?_, by decide +kernel⟩⟩ <;> unfold agpSpells <;> decide +kernel
theorem witness_EngineInstructions_body : let s := (engine 0).modEngine 3 fun e => { e with reps := [⟨1, 3, 4⟩] }
    engineSpells s (.agpNop 3) 3 ∧ (s.engine 3).reps = ⟨1, 3, 4⟩ :: [] ∧ 4 = (s.engine 3).pc.toNat :=
  ⟨⟨rfl, 0, ⟨by decide +kernel, by decide +kernel⟩, by unfold agpSpells; decide +kernel, by decide +kernel⟩, by decide +kernel,
    by decide +kernel⟩
theorem test_engine_registers : let s := (engine seta).setReg64 (AGP_A_LO 3 2) 0x123480000000FFFF
    (after (.seta 3 2 5) s).reg64 (AGP_A_LO 3 2) = 0x1234000000000005
    ∧ ((after (.seta 3 2 5) s).engine 3).pc = 5
    ∧ (after (.setah 3 2 0xABCD) ((engine 0x090000000000ABCD).setReg64 (AGP_A_LO 3 2) 7)).reg64 (AGP_A_LO 3 2) = 0xABCD000000000007
    ∧ (after (.adda 3 2 0xFFFFFFFFFFFF) ((engine 0x0D00FFFFFFFFFFFF).setReg64 (AGP_A_LO 3 2) 0x800000000000)).reg64 (AGP_A_LO 3 2)
        = 0xFFFFFFFFFFFF
    ∧ (after (.mova 3 2 1) ((engine 0x1110000000000000).setReg64 (AGP_A_LO 3 1) 9)).reg64 (AGP_A_LO 3 2) = 9
    ∧ (after (.setc 3 1 8) (engine 0x1404000000000008)).reg (AGP_C 3 1) = 8 ∧ ((after (.agpNop 3) (engine 0)).engine 3).pc = 5 := by
  decide +kernel
theorem test_engine_flow : let s := (engine 0x1C04000000000002).setReg (AGP_C 3 1) 3
    ((after (.agpRep 3 1 2) s).engine 3).reps = [⟨1, 5, 6⟩] ∧ ((after (.agpRep 3 1 2) (engine 0x1C04000000000002)).engine 3).pc = 7
    ∧ ((after (.agpWait 3 9) (engine 0x2000000000000009)).engine 3).state = .waiting
    ∧ (after (.agpSig 3 0x8009 5) (engine 0x2400000000058009)).dsigs = [(9, 5)]
    ∧ ((after (.agpFence 3) (engine 0x2800000000000000)).engine 3).pc = 5
    ∧ ((after (.agpHalt 3) (engine 0x2C00000000000000)).engine 3).state = .halted := by decide +kernel
theorem test_engine_control : ((after (.agpStart 3) (run.setReg (AGP_BOOT 3) 8)).engine 3).pc = 8
    ∧ ((after (.agpStop 3) (engine seta)).engine 3).state = .halted ∧ ((after (.agpResume 3) run).engine 3).state = .running
    ∧ ((after (.illegal true 3) (engine 0xFC00000000000000)).engine 3).state = .fault := by decide +kernel

/-- COPY of 8 bytes from a1, at 64 of HBM, to a0, at 0 of HBM, with advance. -/
def copying : State :=
  ((engine 0x1810000100000008).setReg64 (AGP_A_LO 3 0) 0xFFF8800000000000).setReg64 (AGP_A_LO 3 1) 0xFFF8800000000040
theorem witness_EngineCopies_copy : engineSpells copying (.copy 3 0 1 8 true) 3 ∧ engineAway copying 3 := by
  refine ⟨⟨rfl, _, ⟨by decide +kernel, rfl⟩, ?_, by decide +kernel⟩, by unfold engineAway; decide +kernel⟩
  unfold agpSpells; decide +kernel
theorem witness_EngineCopies_good : copying.rankLocal (addrRank (copying.agpA 3 0)) = true ∧ addrSpace (copying.agpA 3 0) = 1
    ∧ (∀ j, j < 4 → bit (copying.reg (FRM_WPAIR_STATUS j)) 0 = false) ∧ addrOff (copying.agpA 3 1) + 8 ≤ copying.spaceEnd 1 := by
  decide +kernel
def copied : State := { after (.copy 3 0 1 8 true) copying with hbm := [(64, 0x11), (71, 0x22)] }
theorem witness_EngineCopies_complete : ∃ c, copied.agpCopy 3 c.id = some c ∧ c.pieces = [⟨0, c.len, .toRead, [], []⟩] ∧ 0 < c.len
    ∧ c.src % 64 + c.len ≤ 64 ∧ c.dst % 64 + c.len ≤ 64 ∧ c.copies = [] ∧ addrSpace c.src = 1 ∧ addrSpace c.dst = 1 :=
  ⟨⟨0, 0xFFF8800000000000, 0xFFF8800000000040, 8, 4, [], [⟨0, 8, .toRead, [], []⟩], []⟩, by decide +kernel⟩
theorem test_copy : copied.reg64 (AGP_A_LO 3 0) = 0xFFF8800000000008 ∧ copied.reg64 (AGP_A_LO 3 1) = 0xFFF8800000000048
    ∧ (after (.copyComplete 3 0) copied).hbm = [(0, 0x11), (7, 0x22), (64, 0x11), (71, 0x22)]
    ∧ (after (.copyComplete 3 0) copied).reg (AGP_LINES 3) = 1 := by decide +kernel

/-! ### Context and dump -/

/-- An idle module with a place at the start of HBM and a length for 64 tiles. -/
def idle : State :=
  { ((run.setReg (DMC_CTX_ADDR_LO + 4) 0xFFF88000).setReg DMC_CTX_LEN (BitVec.ofNat 32 (0x280 + 768 * 64))) with
    frame := { Frame.reset with acquired := true } }
theorem witness_ContextsAndDumps_request : idle.frmState = 0 ∧ idle.ctxState = 0 ∧ idle.loadState = 0 ∧ idle.enginesBusy = false
    ∧ idle.placeOk (idle.reg64 DMC_CTX_ADDR_LO).toNat = true ∧ (idle.reg DMC_CTX_LEN).toNat = 0x280 + 768 * idle.tileCount := by
  decide +kernel
def saving (op : Nat) : State := { idle.setReg DMC_CTX_STATUS 0x200 with ctxOp := op }
theorem witness_ContextsAndDumps_save : (saving 1).ctxOp = 1 ∧ (saving 1).ctxState = 2
    ∧ (∀ t, t < (saving 1).tileCount → tileQuiet (saving 1) t = true)
    ∧ ¬ (saving 1).spaceEnd 1 < addrOff ((saving 1).reg64 DMC_CTX_ADDR_LO).toNat + (saving 1).ctxBytes ∧ (saving 1).hbmPoison = [] := by
  decide +kernel
theorem witness_ContextsAndDumps_busy : let s := (saving 1).modMule 63 fun m => { m with state := .running }
    63 < s.tileCount ∧ tileQuiet s 63 = false := by decide +kernel
theorem witness_ContextsAndDumps_restore : (saving 2).ctxOp = 2 ∧ (saving 2).ctxState = 2 := by decide +kernel
theorem witness_ContextsAndDumps_dump : run.placeOk (run.reg64 DMC_DUMP_ADDR_LO).toNat = false := by decide +kernel
theorem test_context_requests : (after .save idle).ctxState = 1 ∧ (after .restore idle).ctxOp = 2
    ∧ fld ((after .save (idle.setReg DMC_CTX_LEN 0)).reg DMC_CTX_STATUS) 0 8 = 3
    ∧ (after (.dumpStart false) run).reg DMC_DUMP_STATUS = 3 ∧ (after (.dumpStart true) run).reg DMC_DUMP_STATUS = 1
    ∧ stays .contextSaveRun run = true ∧ stays .contextRestoreRun run = true := by decide +kernel

/-! ### Links -/

/-- Link `l` is UP at four lanes. -/
def up (s : State) (l : Nat) : State := s.setReg (linkStatus l) 0x32
theorem witness_LinksGoDown_carries : linkFault (.linkSilence 31 true) = some (31, 1) ∧ (up run 31).linkCarries 31 = true
    ∧ goes (.linkSilence 31 true) (up run 31) = true := by decide +kernel
theorem witness_LinksGoDown_port : linkFault (.laneBad 33 2 false) = some (33, 3) ∧ (up run 33).linkCarries 33 = true := by
  decide +kernel
theorem witness_LinksGoDown_idle : linkFault (.linkSilence 0 false) = some (0, 4) ∧ run.linkCarries 0 = false := by decide +kernel
theorem test_links_down : let s := after (.linkSilence 31 true) (up run 31)
    fld (s.reg (linkStatus 31)) 12 4 = 1 ∧ s.reg (linkDowns 31) = 1 ∧ s.linkCarries 31 = false
    ∧ ((after (.laneBad 0 2 false) (up run 0)).link 0).bad = 4
    ∧ (after (.retrain 0) (run.setReg (FAB_LINK_CFG 0) 1)).linkState 0 = lkTraining := by decide +kernel

theorem witness_LinksAndNotices_flit : (up run 31).linkCarries 31 = true ∧ (⟨true, 0, 0, 0, false, false, false⟩ : Flit).nak = false := by
  decide +kernel
def training (l : Nat) : State := (run.setReg (linkStatus l) 1).setReg (linkCfg l) 1
theorem witness_LinksAndNotices_trained : (training 0).linkState 0 = lkTraining ∧ bit ((training 0).reg (linkCfg 0)) 0 = true
    ∧ (training 0).wiredPeer 0 = some (0, 1) ∧ (training 0).widthAllowed 0 3 = true := by decide +kernel
theorem witness_LinksAndNotices_port : (training 33).linkState 33 = lkTraining ∧ bit ((training 33).reg (linkCfg 33)) 0 = true
    ∧ (training 33).widthAllowed 33 3 = true ∧ run.linkState 33 ≠ lkTraining := by decide +kernel
theorem witness_LinksAndNotices_excl : ∃ n, n < 64 ∧ bit (run.reg (FAB_EXCL n)) 31 = false := ⟨63, by decide +kernel⟩
theorem test_flits : let flit := fun (good : Bool) (seq : BitVec 12) =>
      ((after (.flitReceive 31 ⟨good, 2, seq, 0, false, false, false⟩) (up run 31)).link 31)
    (flit true 0).rx = 1 ∧ (flit true 1).nakDue = true ∧ (flit true 1).rx = 0 ∧ (flit false 0).nakDue = true := by decide +kernel
/-- Port 0 of member 0 leads to member 1 of the flock (R295): UP where both ends forward, HELD, or MISWIRED. -/
theorem test_trained : let link := fun (s : State) (member : BitVec 5) (fwd : Bool) (good : BitVec 4) =>
      ((after (.linkTrained 0 0 member fwd good 10 0x80000000) s).linkState 0)
    link (training 0) 1 true 15 = lkUp ∧ link ((training 0).setReg FAB_CTRL 0) 1 true 15 = lkHeld
    ∧ link (training 0) 2 true 15 = lkMiswired ∧ link (training 0) 1 true 1 = lkDown := by decide +kernel
theorem test_notices : (after (.routeNotice (.module 3 4)) run).excluded (3, 4) = true ∧ (after .forward (run.setReg FAB_CTRL 0)).fab.forwardStage = 1
    ∧ (after .fabTwinClear run).twinClear = true := by decide +kernel

/-! ### Traffic between ranks -/

/-- Rank 5 of two modules, with link 0 UP, and window 0 open to all ranks for 256 bytes of HBM. -/
def ranked : State :=
  let s := (((up run 0).setReg FAB_OWN_RANK 5).setReg (FAB_WIN_SIZE_LO 0) 256).setReg (FAB_WIN_BASE_HI 0) 0x10000
  (s.setReg (FAB_WIN_RANKS 0) 0x1FFF0000).setReg (FAB_WIN_CFG 0) 3
/-- A best-effort packet of rank 6 with 16 bytes at offset 0 of HBM. -/
def packet (kind : Nat) : Packet := ⟨5, 6, kind, 0, true, false, false, 0, 1, 40, 0, 1, 0, 0x7F :: List.replicate 15 0, [.none], []⟩
theorem witness_RemoteRequests_request : ranked.linkUp 0 = true ∧ (packet 0).be = true ∧ (packet 0).dst = ranked.ownRank
    ∧ ranked.ownRank ≠ selfRank ∧ (packet 0).kind = 0 ∧ ranked.winFor true 6 1 0 16 = some 0 ∧ ranked.frame.safe = none
    ∧ (packet 0).data.length = 16 * (packet 0).len := by decide +kernel
theorem witness_RemoteRequests_edge : ranked.winFor true 6 1 240 16 = some 0 ∧ ranked.winFor true 6 1 241 16 = none := by decide +kernel
theorem witness_RemoteRequests_pass : (packetOf (.write 0 true (packet 0))).isSome = true ∧ run.ownRank = selfRank
    ∧ (up run 0).linkUp 0 = true := by decide +kernel
/-- An entry of a Mule's SEND that awaits its answer. -/
def awaited : State := { ranked with entries := [⟨{ packet 2 with tid := 5000, dst := 6 }, .mule 0, 0, true⟩] }
theorem witness_RemoteRequests_completing : completing awaited (.beTimeout 5000) 5000 stTimeout
    ∧ (awaited.entryOf 5000).map (fun e => e.pkt.be) = some true ∧ awaited.reqWait = [] ∧ (∀ x ∈ awaited.entries, x.sent = true) :=
  ⟨Or.inr ⟨5000, rfl, by decide +kernel, rfl⟩, by decide +kernel⟩
theorem witness_RemoteRequests_answer : completing awaited (.answer 0 true { packet 4 with tid := 5000 }) 5000 0x7F :=
  Or.inl ⟨0, { packet 4 with tid := 5000 }, Or.inr ⟨rfl, by decide +kernel⟩, by decide +kernel⟩
theorem witness_RemoteRequests_wait : let s := { ranked with reqWait := [⟨packet 0, .mule 0, 0, false⟩] }
    s.reqWait = ⟨packet 0, .mule 0, 0, false⟩ :: [] ∧ s.freeTid true = some 4096 := by decide +kernel
theorem test_remote : (after (.write 0 true (packet 0)) ranked).hbm = [(0, 0x7F)]
    ∧ (after (.write 0 false (packet 0)) ranked).reg FAB_DISCARD = 1 ∧ (after (.read 0 true { packet 1 with offset := 241 }) ranked).reg FAB_WIN_DENY = 1
    ∧ (after (.beTimeout 5000) awaited).entries = [] ∧ stays (.readData 0 true { packet 3 with tid := 5001 }) awaited = true := by
  decide +kernel

/-- A transfer 9 of program 0 that this module originates on link 0, forwards from link 1 to link 0, or ends from link 1. -/
def route (role : Nat) : Route := ⟨9, 0, role, false, 6, 1, 0, 20, 3⟩
def routed (role : Nat) : State := { up ranked 1 with routes := [route role] }
theorem witness_ScheduledTransfers_slot : (routed 0).frame.released = true
    ∧ ((routed 0).transferRoutes 9 false).filter (fun r => r.outLink == 0 && r.role != 2) = [route 0] ∧ (routed 0).linkSched 0 = true := by
  decide +kernel
theorem witness_ScheduledTransfers_arrival : (routed 1).linkUp 1 = true
    ∧ ((routed 1).transferRoutes 9 false).find? (fun r => r.inLink == 1 && r.role != 0) = some (route 1)
    ∧ (routed 1).linkSched (route 1).outLink = true := by decide +kernel
theorem witness_ScheduledTransfers_timeout : ((routed 2).transferRoutes 9 false).filter (routed 2).awaits = [route 2]
    ∧ (route 2).role ≠ 0 ∧ (routed 2).linkSched (route 2).inLink = true := by decide +kernel
theorem test_scheduled : (after (.transferTimeout 9 false none) (routed 2)).reg FAB_TIMEOUTS = 1
    ∧ (after (.dueHold 9 false none 700) ((routed 2).setReg FAB_GRACE 1)).reg (CLK_R_HOLD_PS 56) = 700
    ∧ goes (.slotSend 0 9 false) (routed 0) = true
    ∧ (after (.scheduledArrival 1 true { packet 0 with be := false, xfer := 9, dst := 6 })
        (((routed 1).setReg FAB_CTRL 1).setReg (FAB_RANK 6) 0x80000101)).fab.forwards.map (fun f => f.1) = [0] := by decide +kernel

/-- Descriptor 4, an all-gather of FP32 that starts at cycle 7 of program 0 in a group of two with this rank. -/
def collective : State :=
  let s := (ranked.setReg (COL_DESC 4 0) 0x800000E3).setReg (COL_DESC 4 1) 7
  ((s.setReg (COL_DESC 4 2) 0x00020005).setReg (COL_DESC 4 3) 1).setReg (FRM_PROG_CFG 0) 0x80020000
theorem witness_CollectivesRun_start : collective.colReady 4 7 = true ∧ collective.colReady 4 8 = false := by decide +kernel
/-- A running all-gather of one element to each of two members at the start of HBM. -/
def colRun (words : List (BitVec 32)) : ColRun := ⟨words, 0, [], [], false, [], [], [], [], none⟩
def gather : List (BitVec 32) := [0xE3, 7, 0x00020005, 1, 2, 0, 0, 0, 0, 0xFFF88000]
def colRunning (r : ColRun) : State := { ranked with colls := [(4, r)] }
theorem witness_CollectivesRun_chunk : mapFind (colRunning (colRun gather)).colls (⟨4, 2, 1⟩ : ColStep).desc = some (colRun gather)
    ∧ 1 < colSize gather ∧ colOp gather = 3 ∧ addrSpace (colAddr gather 8 + 1 * colChunk gather * colBytes (colDtype gather)) = 1
    ∧ ranked.rankLocal (addrRank (colAddr gather 8 + 1 * colChunk gather * colBytes (colDtype gather))) = true := by decide +kernel
/-- A reduce-scatter of three members. -/
def reduce : List (BitVec 32) := [0xE2, 7, 0x00030005, 1, 3]
theorem witness_CollectivesRun_part : mapFind (colRunning (colRun reduce)).colls 4 = some (colRun reduce) ∧ 1 < colSize reduce
    ∧ colOp reduce ≤ 2 ∧ 0 + 1 + 0 < colSize reduce := by decide +kernel
theorem witness_CollectivesRun_end : let r := { colRun gather with got := [(0, 1), (1, 1)] }
    mapFind (colRunning r).colls (4 : Fin 64) = some r ∧ colDone r = true ∧ colDone (colRun gather) = false := by decide +kernel
theorem test_collectives : (after (.collectiveStart 4 7) collective).colStarted = [4]
    ∧ (after (.colContribution ⟨4, 2, 1⟩ 1 [1, 2, 3, 4] [.none] false) (colRunning (colRun gather))).hbm = [(4, 1), (5, 2), (6, 3), (7, 4)]
    ∧ (after (.collectiveComplete 4) (colRunning { colRun gather with got := [(0, 1), (1, 1)] })).reg COL_DONE_COUNT = 1 := by decide +kernel

/-! ### Clocks -/

theorem witness_ClocksAndTemperature : run.regionOn 61 = true ∧ run.regionOn 0 = true ∧ run.regionOn 4 = false ∧ run.regionOn 48 = false := by
  decide +kernel
theorem test_clocks : (after (.crossingHold 61 250) run).reg (CLK_R_HOLD_PS 61) = 250
    ∧ (after (.queueFullHold 61 250) run).reg (CLK_R_HOLD_PS 61) = 250 ∧ stays (.crossingHold 48 250) run = true
    ∧ (after (.crossSlip 61 3 1000) run).reg (CLK_R_SLIP_LAST 61) = 0x3E883 ∧ (after (.clkMon 61 0 77 5) run).reg (CLK_R_MON_WORST 61) = 77 := by
  decide +kernel
/-- V(F) is 700 mV at the target of 1,600 MHz, so that a reading of 0 mV droops. -/
def drooping : State := run.setReg (CLK_VF 0) 700
theorem witness_ClocksAndTemperature_droop : 0 + fld (drooping.reg CLK_DROOP_CFG) 0 8 < drooping.vcoreFor drooping.clk.ft := by
  decide +kernel
theorem test_droop : (after (.droopStretch 61 5 0 40) drooping).reg (CLK_R_STRETCHES 61) = 1
    ∧ bit ((after (.clkDroop 61 5 0) drooping).reg (CLK_R_EVENT 61)) 5 = true := by decide +kernel
/-- HOT is at 90 degrees, 360 quarter degrees, and WARM at 80 (R360). -/
theorem test_thermal : (after (.thermalReport 0 360 0) (run.setReg CLK_THROT_CFG 0x5A50)).clk.level = 2
    ∧ (after (.thermalReport 0 359 0) (run.setReg CLK_THROT_CFG 0x5A50)).clk.level = 1 := by decide +kernel

/-! ### Frames and ticks -/

theorem witness_CommitsAndRuns_atCount : (run.reg64 FRM_TICK_LO).toNat < ((run.setReg FRM_COMMIT_AT_LO 1).reg64 FRM_COMMIT_AT_LO).toNat := by
  decide +kernel
theorem witness_CommitsAndRuns_late : (run.reg64 FRM_COMMIT_AT_LO).toNat ≤ (run.reg64 FRM_TICK_LO).toNat := by decide +kernel
/-- A module whose frames run (R60). -/
def framed : State := (run.setReg FRM_PERIOD 100000).setReg FRM_CTRL 1
theorem witness_CommitsAndRuns_busy : framed.frmState ≠ 0 ∧ framed.frmState ≠ 3 ∧ framed.frame.safe = none := by decide +kernel
theorem witness_CommitsAndRuns_now : run.frmState = 0 ∧ run.shadow = [] ∧ run.routesNext = none := by decide +kernel
theorem witness_CommitsAndRuns_run : ¬ (bit (run.reg DMC_BRING) 0 = true ∨ run.mgmt.dev = 8 ∨ bit (run.reg FRM_CTRL) 0 = true) := by
  decide +kernel
/-- The drain of an overrun, complete, under OVR_STOP where `stop` says so. -/
def drainedAt (stop : Bool) : State :=
  (run.modFrame fun f => { f with draining := true }).setReg FRM_MODE (if stop then 2 else 0)
theorem witness_CommitsAndRuns_drain : ∀ stop, (drainedAt stop).frame.draining = true ∧ drained (drainedAt stop) = true
    ∧ bit ((drainedAt stop).reg FRM_MODE) 1 = stop ∧ (drainedAt stop).frame.safe = none := by decide +kernel
theorem witness_CommitsAndRuns_safe : ({ run with frame := { run.frame with safe := some 3 } }).frame.safe.isSome = true := by decide +kernel
/-- An SH value written for the next commit, with a sequence of idle ticks (R51, R62). -/
def shadowed (s : State) : State := { (s.setReg (FRM_SEQ 0) 0x01000100).setReg FRM_PERIOD 100000 with shadow := [(FRM_HOLDOVER_LIMIT, 9)] }
theorem test_commits : fld ((after .now framed).reg FRM_COMMIT_STATUS) 0 8 = 3 ∧ fld ((after .now (shadowed run)).reg FRM_COMMIT_STATUS) 0 8 = 0
    ∧ fld ((after .atCount run).reg FRM_COMMIT_STATUS) 0 8 = 4
    ∧ (after .now (shadowed run)).reg FRM_HOLDOVER_LIMIT = 9 ∧ fld ((after .now { run with shadow := [(FRM_HOLDOVER_LIMIT, 9)] }).reg FRM_COMMIT_STATUS) 0 8 = 2 := by decide +kernel
theorem test_run_and_stop : bit ((after .runStart run).reg FRM_CTRL) 0 = true ∧ (after .runStart (run.setReg FRM_START_TICK_LO 9)).frame.startAt = some 9
    ∧ (after .drainComplete (drainedAt true)).frame.safe = some 1 ∧ (after .drainComplete (drainedAt false)).frame.safe = none := by
  decide +kernel

/-- A module whose tick is due, while frames do not run. -/
def ticking : State := State.modFrame (run.setReg FRM_PERIOD 100000) fun f => { f with tickDue := some (some 100000), armed := none }
theorem witness_TickAdvances : tickReady ticking = true ∧ ticking.frame.commitReq = none ∧ bit (ticking.reg FRM_CTRL) 0 = false
    ∧ tickReady run = false := by decide +kernel
theorem witness_TickAdvances_commit : let s := ticking.modFrame fun f => { f with commitReq := some .atNextTick, safe := some 2 }
    tickReady s = true ∧ s.frame.commitReq = some .atNextTick ∧ s.rstJob ≠ 1 ∧ s.frame.safe.isSome = true := by decide +kernel
/-- The count rises by 1, also from the last value of its lower word. -/
theorem test_tick : (after (.tick []) ticking).reg64 FRM_TICK_LO = 1
    ∧ (after (.tick []) (ticking.setReg FRM_TICK_LO 0xFFFFFFFF)).reg64 FRM_TICK_LO = 0x100000000
    ∧ ((after (.tick []) ((shadowed ticking).modFrame fun f => { f with commitReq := some .atNextTick })).reg FRM_HOLDOVER_LIMIT) = 9 := by decide +kernel

/-- A module that follows member 1 of flock 0 on link 3. -/
def following : State := ((up run 3).setReg (FAB_TDLY 3) 0x80000000).setReg FAB_BELL 0x80000100
def tickOf (n : BitVec 64) : TickPacket := ⟨n, 100000, 1, 0, 1, 0, 0, 0⟩
theorem witness_TickPacketsAndHoldover_packet : following.power.mainGood = true ∧ following.linkCarries 3 = true
    ∧ bit (following.reg (FAB_TDLY 3)) 31 = true ∧ fromBell following (tickOf 1) = true ∧ following.bellwether = false
    ∧ following.frame.acquired = true ∧ following.frame.tickDue ≠ some none ∧ (tickOf 1).tick = following.reg64 FRM_TICK_LO + 1
    ∧ (tickOf 2).tick ≠ following.reg64 FRM_TICK_LO + 1 := by decide +kernel
theorem witness_TickPacketsAndHoldover_window : (400 : BitVec 16).toInt ≤ 400 ∧ 400 < (401 : BitVec 16).toInt
    ∧ -400 ≤ (0xFE70 : BitVec 16).toInt ∧ (0xFE6F : BitVec 16).toInt < -400 := by decide +kernel
/-- A module without a tick in its window, after `h` ticks of holdover. -/
def holding (h : Option Nat) : State := (run.setReg FRM_PERIOD 100000).modFrame fun f => { f with holdover := h }
theorem witness_TickPacketsAndHoldover_holdover : ∀ h, h = none ∨ h = some 1 → (holding h).power.mainGood = true ∧ (holding h).period ≠ 0
    ∧ (holding h).frame.acquired = true ∧ (holding h).bellwether = false ∧ (holding h).frame.tickDue = none := by
  rintro h (rfl | rfl) <;> decide +kernel
theorem witness_TickPacketsAndHoldover_lost : let s := (holding (some 2)).setReg FRM_HOLDOVER_LIMIT 2
    (s.reg FRM_HOLDOVER_LIMIT).toNat ≤ 2 ∧ s.frame.holdover = some 2 ∧ s.frame.tickDue = none ∧ s.frame.safe = none := by decide +kernel
theorem test_tick_packets : (after (.tickPacket 3 (tickOf 1) 400) following).frame.tickDue = some (some 100000)
    ∧ stays (.tickPacket 3 (tickOf 1) 401) following = true
    ∧ bit ((after (.tickPacket 3 (tickOf 2) 0) following).reg FRM_STATUS) 5 = true := by decide +kernel
theorem test_holdover : (after .holdoverTick (holding none)).frame.holdover = some 1
    ∧ (after .tickLost ((holding (some 2)).setReg FRM_HOLDOVER_LIMIT 2)).frame.safe = some 2
    ∧ stays .tickLost ((holding (some 2)).setReg FRM_HOLDOVER_LIMIT 3) = true := by decide +kernel

/-! ### The Goose -/

/-- A closed frame of program 0 with its events, which awaits the digest items of `waits`. -/
def closedWith (events : List GEvent) (waits : List (Nat × Nat)) : Closed :=
  ⟨7, 0, 0, false, none, false, 0x80010000, events, false, 0, 0, 0, 0, 0, waits, []⟩
def judging (events : List GEvent) : State := { run with closed := some (closedWith events []) }
def poisonEvent : GEvent := ⟨.poison, 0, 0, 5, 0⟩
def checkEvent : GEvent := ⟨.check, 0, 0, 5, 0⟩
def correctedEvent : GEvent := ⟨.eccCorr, 0, 0, 5, 0⟩
theorem witness_VerdictsAndDigests_verdict : (judging []).closed = some (closedWith [] []) ∧ (closedWith [] []).waits = []
    ∧ bit (closedWith [] []).cfg 16 = true ∧ (judging []).frame.safe = none := by decide +kernel
/-- Clean, corrected and failed frames (R373, R374); an overrun fails a frame without events. -/
theorem test_verdicts : let v := fun (events : List GEvent) => fld ((after .verdictFormed (judging events)).reg GOS_VERDICT) 0 2
    v [] = 0 ∧ v [correctedEvent] = 1 ∧ v [correctedEvent, ⟨.overrun, 61, 0, 0, 0⟩] = 3
    ∧ fld ((after .verdictFormed { run with closed := some { closedWith [] [] with overrun := true } }).reg GOS_VERDICT) 0 3 = 7 := by
  decide +kernel
theorem test_verdict_stops : (after .verdictFormed ((judging [⟨.overrun, 61, 0, 0, 0⟩]).setReg GOS_CFG 1)).frame.safe = some 4
    ∧ (after .verdictFormed ((judging [correctedEvent]).setReg GOS_CFG 3)).frame.safe = none := by decide +kernel
/-- Tile 5 awaits, for its tap 1, the item of tap 2 of tile 9 of rank 77; its own digest is all zeros. -/
def paired : State := { run.setReg (GOS_TAP 5 1 2) 0x004D0809 with closed := some (closedWith [] [(5, 1)]) }
def item (tick : BitVec 64) (digest : BitVec 128) : DigestItem := ⟨77, 9, 2, 0, tick, digest, false⟩
theorem witness_VerdictsAndDigests_waits : paired.closed = some (closedWith [] [(5, 1)]) ∧ 5 < paired.tileCount
    ∧ (5, (1 : Fin 4).val) ∈ (closedWith [] [(5, 1)]).waits
    ∧ ((closedWith [] [(5, 1)]).waits.find? fun x => paired.tapPartner x.1 x.2 == ((item 7 0).tile, (item 7 0).tap, (item 7 0).rank))
        = some (5, 1) := by decide +kernel
theorem witness_VerdictsAndDigests_digest : (∀ w, w < 4 → paired.reg (GOS_TAP_DIG 5 1 w) = (item 7 0).digest.extractLsb' (32 * w) 32)
    ∧ paired.reg (GOS_TAP_DIG 5 1 0) ≠ (item 7 1).digest.extractLsb' 0 32 ∧ (item 7 0).rank ≠ 0x1FFF := by decide +kernel
theorem test_digests : let kinds := fun (d : DigestItem) => (after (.digestItem d) paired).closed.map fun c => c.events.map (·.kind)
    kinds (item 7 0) = some [] ∧ kinds (item 7 1) = some [.pairMismatch] ∧ kinds (item 8 0) = some [.pairMissing]
    ∧ (after (.digestItem (item 7 1)) paired).reg GOS_MISMATCH_LAST = 0x804D0405 := by decide +kernel

theorem witness_GooseStops_watch : framed.period ≠ 0 ∧ framed.power.mainGood = true ∧ framed.frame.safe = none := by decide +kernel
theorem witness_GooseStops_selftest : run.frmState = 0 ∧ framed.frmState ≠ 0 ∧ framed.frmState ≠ 3 ∧ bit (framed.reg GOS_STATUS) 1 = false := by
  decide +kernel
/-- The tolerance is 1 µs and 1/2000 of the period (R385): 1,050,000 ps at a period of 100 µs. -/
theorem test_goose_stops : stays (.tickWatch (some 101050000)) framed = true
    ∧ (after (.tickWatch (some 101050001)) framed).frame.safe = some 5 ∧ (after (.tickWatch none) framed).frame.safe = some 5
    ∧ (after (.selftest (some 61)) run).reg GOS_REC_SAFE = 7 ∧ (after (.selftest none) run).reg GOS_STATUS = 8
    ∧ (after .gooseStop run).frame.safe = some 6 := by decide +kernel

/-! ### Weight pairs and the shadow restore -/

theorem witness_WeightPairsAndRestore_switch : ((run.reg64 (FRM_WPAIR_FROM_LO 3)).toNat ≤ (run.reg64 FRM_WBATCH_COUNT_LO).toNat)
    ∧ ¬ (((run.setReg (FRM_WPAIR_FROM_LO 3) 1).reg64 (FRM_WPAIR_FROM_LO 3)).toNat ≤ (run.reg64 FRM_WBATCH_COUNT_LO).toNat) := by
  decide +kernel
def releasing : State := { run with wpairs := [(3, ⟨1, some true⟩)] }
theorem witness_WeightPairsAndRestore_release : (releasing.wpair 3).old = some true ∧ releasing.copyInUse 3 true = false
    ∧ ((releasing.setReg (FRM_WPAIR_SIZE 3) 64).setReg (FRM_WPAIR_STATUS 3) 1).copyInUse 3 true = true := by decide +kernel
/-- A restore of rank 5 from two ranks into its HBM. -/
def restoring : State :=
  let s := ((ranked.setReg (DMC_SHR_SRC0_LO + 4) 0x00310000).setReg (DMC_SHR_SRC1_LO + 4) 0x00390000)
  (s.setReg (DMC_SHR_DST_LO + 4) 0xFFF88000).setReg DMC_SHR_MAXLEN 4096
/-- A source that is refused (R407). -/
abbrev badSrc (lo : Nat) : Prop :=
  let a := (restoring.reg64 lo).toNat
  restoring.rankLocal (addrRank a) = true ∨ addrSpace a ≠ 2 ∨ a % 64 ≠ 0
theorem witness_WeightPairsAndRestore_start : let dst := (restoring.reg64 DMC_SHR_DST_LO).toNat
    ¬ (restoring.shrState ≠ 0 ∨ restoring.ctxState ≠ 0 ∨ restoring.loadState ≠ 0) ∧ restoring.ownRank ≠ selfRank
    ∧ ¬ badSrc DMC_SHR_SRC0_LO ∧ ¬ badSrc DMC_SHR_SRC1_LO ∧ restoring.rankLocal (addrRank dst) = true ∧ addrSpace dst < 3
    ∧ dst % 64 = 0 ∧ restoring.reg DMC_SHR_MAXLEN ≠ 0 := by decide +kernel
theorem witness_WeightPairsAndRestore_end : ({ run with shr := some 0 }).shr = some 0 ∧ (⟨false, [], false⟩ : ShrLine).ok = false := by
  decide +kernel
theorem test_weight_pairs : (after (.frmWpairSwitch 3 0x80000001) run).reg (FRM_WPAIR_STATUS 3) = 0x200
    ∧ (after (.frmWpairSwitch 3 0x80000001) (run.setReg (FRM_WPAIR_FROM_LO 3) 1)).reg (FRM_WPAIR_STATUS 3) = 0x102
    ∧ (after (.copyReleased 3) releasing).reg FRM_WEVENT = 8 := by decide +kernel
theorem test_shadow_restore : (after (.shrStart 2) restoring).shrState = 1 ∧ fld ((after (.shrStart 3) restoring).reg DMC_SHR_STATUS) 0 8 = 3
    ∧ (after (.shadowRestoreEnd ⟨true, [], false⟩ ⟨false, [], false⟩ []) { run with shr := some 0 }).reg DMC_SHR_DETAIL = 0x80000000 := by
  decide +kernel

/-! ### The register space -/

theorem witness_RegisterAccesses_missing : (regGroupOf 0xC).isSome = true ∧ run.tileCount ≤ offTile (tileBase 64)
    ∧ 0x40000000 ≤ tileBase 64 ∧ ¬ run.tileCount ≤ offTile (tileBase 63) := by decide +kernel
theorem witness_RegisterAccesses_rights : run.mayAccess (.host 0) true FRM_PERIOD = false ∧ run.mayAccess (.host 0) true HLK_CLAIM = true
    ∧ run.mayAccess (.host 0) false HLK_OWN = true ∧ run.owns 0 = false := by decide +kernel
/-- Port 0 owns the module, and is UP. -/
def owned : State := { (up run 32).setReg HLK_OWN 0x00030001 with hlk := { run.hlk with downAt := [] } }
theorem witness_RegisterAccesses_owner : owned.owns 0 = true ∧ owned.mayAccess (.host 0) false SEC_STATUS = false
    ∧ owned.mayAccess (.host 0) true MMC_STATE = false ∧ owned.mayAccess (.host 0) false MMC_STATE = true := by decide +kernel
theorem witness_RegisterAccesses_off : State.reset.mayAccess .dmc true FRM_MODE = true ∧ State.reset.targetOff .dmc FRM_MODE = true
    ∧ FRM_MODE < 0x40000000 := by decide +kernel
/-- A register of each access code. -/
theorem witness_RegisterAccesses_write : ∀ x ∈ [(HLK_TAKEOVER_US, Access.rw), (HLK_EVENT, .w1c), (FRM_PERIOD, .sh), (FRM_TICK_LO, .ro)],
    (regGroupOf x.1).map (·.access) = some x.2 ∧ run.accessStatus .dmc true x.1 = stDone ∧ x.1 ≠ DBG_PT_DATA ∧ x.1 ≠ HLK_CLAIM
      ∧ inWindow16 x.1 0xD 0xE = false ∧ (moduleWrite run .dmc x.1 1).isNone = true := by decide +kernel
theorem witness_RegisterAccesses_read : (regGroupOf FRM_TICK_LO).map (·.lo) = some true ∧ run.accessStatus .dmc false FRM_TICK_LO = stDone
    ∧ mapFind (after (.loReadLatch .dmc (BitVec.ofNat 32 FRM_TICK_LO)) run).hiLatch (masterKey .dmc * 2 ^ 32 + FRM_TICK_LO + 4) = some 0
    ∧ isMeasured FRM_TICK_LO = false ∧ typedView run FRM_TICK_LO = none := by decide +kernel
/-- Tile 0, which program 0 does not use, behind the port of DBG_PT (R201). -/
def debugged (target : BitVec 32) : State := (run.modFrame fun f => { f with armed := none }).setReg DBG_PT_SEL (target <<< 16)
theorem witness_RegisterAccesses_port : let s := debugged 1
    s.accessStatus .dmc false DBG_PT_DATA = stDone ∧ s.accessStatus .dmc true DBG_PT_DATA = stDone ∧ ptInc s = false
    ∧ ptTarget s = 1 ∧ ptStatus s .dmc false = stDone ∧ ptStatus s .dmc true = stDone ∧ ptInvalid (debugged 3) = true := by decide +kernel
theorem test_registers : (after (.registerWrite .dmc (BitVec.ofNat 32 HLK_TAKEOVER_US) 9) run).regAnswer = (0, 0)
    ∧ (after (.registerWrite .dmc (BitVec.ofNat 32 HLK_EVENT) 2) (run.setReg HLK_EVENT 7)).reg HLK_EVENT = 5
    ∧ (after (.registerWrite .dmc (BitVec.ofNat 32 FRM_PERIOD) 9) run).shReg FRM_PERIOD = 9
    ∧ (after (.registerWrite .dmc (BitVec.ofNat 32 FRM_PERIOD) 9) run).reg FRM_PERIOD = 0
    ∧ (after (.rcRead (.host 1) (BitVec.ofNat 32 FRM_PERIOD)) run).regAnswer = (2, 0)
    ∧ (after (.rcRead .dmc 0x44000000) run).regAnswer = (1, 0) := by decide +kernel
theorem test_latch : let s := after (.loReadLatch .dmc (BitVec.ofNat 32 FRM_TICK_LO)) (run.setReg64 FRM_TICK_LO 0x500000006)
    s.regAnswer = (0, 6) ∧ (after (.rcRead .dmc (BitVec.ofNat 32 (FRM_TICK_LO + 4))) (s.setReg64 FRM_TICK_LO 0)).regAnswer = (0, 5) := by
  decide +kernel
theorem test_debug_port : ((after (.ptDataWrite .dmc 0x77) (debugged 1)).vec 0).treg = [(0, ⟨0x77, .none⟩)]
    ∧ (after (.ptDataRead .dmc) (debugged 3)).regAnswer = (1, 0) := by decide +kernel

/-! ### The host link -/

def hostPkt (kind : Nat) (space off want : Nat) (data : List (BitVec 8)) : HostPacket :=
  ⟨kind, 5, false, false, BitVec.ofNat 64 (fabAddr selfRank space off), want, data, []⟩
theorem witness_HostPackets_port : owned.portUp 0 = true ∧ run.portUp 0 = false ∧ (up run 32).owns 0 = false := by decide +kernel
theorem witness_HostPackets_bad : (hostPkt 1 0 0 4 []).kind ≠ 0 ∧ 3 < addrSpace (hostPkt 0 4 0 0 [1, 2, 3, 4]).addr.toNat
    ∧ addrOff (hostPkt 0 3 2 0 []).addr.toNat % 4 ≠ 0 := by decide +kernel
theorem witness_HostPackets_memory : let pkt := hostPkt 0 1 64 0 [1, 2, 3, 4]
    let a := pkt.addr.toNat
    pkt.bad = false ∧ owned.rankLocal (addrRank a) = true ∧ addrSpace a = 1 ∧ ¬ owned.spaceEnd 1 < addrOff a + 4
    ∧ owned.hbmPoison = [] ∧ (∀ m ∈ pkt.marks, m = .none) ∧ owned.owns 0 = true := by decide +kernel
theorem witness_HostPackets_register : let a := (hostPkt 0 3 FRM_MODE 0 [1, 0, 0, 0]).addr.toNat
    addrSpace a = 3 ∧ a % 4 = 0 ∧ addrOff a = FRM_MODE ∧ owned.rankLocal (addrRank a) = true := by decide +kernel
/-- Port, TYPE, TAG and the first bytes of what the hosts are sent. -/
def codes (i : Instr) (s : State) : List Nat :=
  (after i s).hlk.sent.flatMap fun x => x.1 :: x.2.kind :: x.2.tag :: (x.2.data.take 4).map (·.toNat)
theorem test_host_packets : codes (.hostWrite 0 (hostPkt 0 1 64 0 [1, 2, 3, 4]) false) owned = [0, 4, 5, 0, 0, 0, 0]
    ∧ codes (.hostRead 0 (hostPkt 1 1 64 4 []) false) { owned with hbm := [(65, 9)] } = [0, 3, 5, 0, 9, 0, 0]
    ∧ codes (.hostRead 0 (hostPkt 1 1 64 4 []) false) (up run 32) = [0, 4, 5, 2, 0, 0, 0]
    ∧ codes (.hostRead 0 (hostPkt 1 1 64 4 []) true) owned = [0, 4, 5, 1, 0, 0, 0]
    ∧ codes (.hostRead 0 (hostPkt 1 3 HLK_OWN 4 []) false) owned = [0, 3, 5, 1, 0, 3, 0] := by decide +kernel

/-- The lease of port 0's token has run for `n` µs of 1,000. -/
def leased (n : Nat) : State := { owned.setReg HLK_LEASE_US 1000 with us := n }
theorem witness_TokenAndRings_claim : run.ownState = 0 ∧ owned.ownState = (0 : Fin 2).val + 1
    ∧ (0 < fld ((leased 1000).reg HLK_LEASE_US) 0 20 ∧ (leased 1000).hlk.renewAt + 1000 ≤ (leased 1000).us)
    ∧ ¬ (leased 999).hlk.renewAt + 1000 ≤ (leased 999).us
    ∧ ((mapFind ({ owned with us := 500, hlk := { owned.hlk with downAt := [(0, 0)] } }).hlk.downAt (owned.ownState - 1)).any fun t =>
        decide (t + fld (owned.reg HLK_TAKEOVER_US) 0 16 ≤ 500)) = decide (fld (owned.reg HLK_TAKEOVER_US) 0 16 ≤ 500) := by decide +kernel
theorem test_claims : (after (.claim 1) (leased 1000)).reg HLK_OWN = 0x00040002 ∧ (after (.claim 1) (leased 1000)).reg HLK_OWN_LAST = 0x31
    ∧ (after (.claim 1) (leased 999)).reg HLK_EVENT = 1 ∧ (after (.claim 0) (leased 5)).reg HLK_OWN_LAST = 0x41
    ∧ (after (.claim 1) run).reg HLK_OWN_LAST = 0x10 ∧ (after (.release 0) owned).reg HLK_OWN = 0x00030000
    ∧ stays (.release 1) owned = true ∧ (after (.renew 0) (leased 7)).hlk.renewAt = 7 := by decide +kernel
/-- A command ring of 4 descriptors at the start of HBM, PROD 2 in its header. -/
def ringed : State :=
  let s := (owned.setReg (HLK_RING_BASE_LO + 4) 0xFFF88000).setReg HLK_RING_SIZE 4
  { s with hbm := [(0, 2)] }
theorem witness_TokenAndRings_ring : let a := (ringed.reg64 HLK_RING_BASE_LO).toNat
    fld (ringed.reg HLK_RING_SIZE) 0 16 = 4 ∧ ringBad ringed a 4 = false ∧ addrSpace a = 1 ∧ ringed.hbmPoison = []
    ∧ ringBad (ringed.setReg HLK_RING_BASE_LO 32) (a + 32) 4 = true ∧ fld (run.reg HLK_RING_SIZE) 0 16 = 0 := by decide +kernel
/-- The ring as enabled, with PROD at `prod` and CONS at 0, and idle frames. -/
def sampled (prod : BitVec 8) : State :=
  let s := (ringed.setReg HLK_RING_STATUS 0x11).setReg FRM_SUBTICK 1000
  { s.modFrame (fun f => { f with armed := none }) with
    hbm := if prod = 0 then [] else [(0, prod)]
    hlk := { s.hlk with base := fabAddr selfRank 1 0, size := 4 } }
theorem witness_TokenAndRings_sample : ∀ n : BitVec 8, n = 4 ∨ n = 5 → fld ((sampled n).reg FRM_SUBTICK) 0 24 ≠ 0
    ∧ (sampled n).frame.armed = none ∧ bit ((sampled n).reg HLK_RING_STATUS) 0 = true ∧ (sampled n).hlk.exec = none := by
  rintro n (rfl | rfl) <;> decide +kernel
theorem witness_TokenAndRings_cpl : let s := owned.setReg HLK_CPL_SIZE 8
    (s.reg64 HLK_CPL_BASE_LO).toNat % 64 = 0 ∧ fld (s.reg HLK_CPL_SIZE) 0 16 ≠ 0 ∧ fld (owned.reg HLK_CPL_SIZE) 0 16 = 0
    ∧ ((s.setReg HLK_CPL_BASE_LO 32).reg64 HLK_CPL_BASE_LO).toNat % 64 ≠ 0 := by decide +kernel
theorem test_rings : (after .ringEnable ringed).reg HLK_RING_CONS = 2 ∧ (after .ringEnable ringed).hbm = [(0, 2), (8, 2)]
    ∧ (after .ringEnable (ringed.setReg HLK_RING_BASE_LO 32)).reg HLK_RING_STATUS = 0x20
    ∧ (after .subtickSample (sampled 4)).hlk.queue = [0, 1, 2, 3] ∧ fld ((after .subtickSample (sampled 5)).reg HLK_RING_STATUS) 0 8 = 0x30
    ∧ (after .cplEnable (owned.setReg HLK_CPL_SIZE 8)).hlk.sent.map (fun x => x.2.data.head?) = [some 3, some 0]
    ∧ (after (.portRetrain 0) (run.setReg (HLK_PORT_CFG 0) 1)).linkState 32 = lkTraining := by decide +kernel

/-- The ring with one descriptor queued: its number 1, its bytes `d`. -/
def queuedCmd (d : List (Nat × BitVec 8)) : State :=
  let s := sampled 2
  { s.setReg HLK_RING_CONS 1 with
    hbm := (0, 2) :: d.map (fun x => (128 + x.1, x.2))
    hlk := { s.hlk with queue := [1] } }
/-- GEN 3 of the present owner, at byte 2 (R437). -/
def descOf (op : BitVec 8) (rest : List (Nat × BitVec 8)) : State := queuedCmd ((0, op) :: (2, 3) :: rest)
/-- A WAIT_TICK for count 5, a LOAD of 64 bytes, and a REGW of one pair that writes FRM_MODE. -/
def loadDesc : State := descOf 2 [(0x15, 0x80), (0x16, 0xF8), (0x17, 0xFF), (0x18, 64)]
def regwDesc : State := descOf 1 [(4, 1), (0x10, BitVec.ofNat 8 FRM_MODE), (0x14, 1)]
def loadedDesc (s : State) : List (BitVec 8) := (s.spaceRead 1 128 64).2.1
theorem witness_Descriptors_front : (descOf 4 []).hlk.exec = none ∧ (descOf 4 []).hlk.queue = 1 :: [] ∧ descCommand .mark = some 4
    ∧ (descOf 4 []).ownGen = 3 ∧ descNat (loadedDesc (descOf 4 [])) 2 2 = 3 ∧ cmdOp (loadedDesc (descOf 4 [])) = 4
    ∧ (∀ x ∈ ((descOf 4 []).spaceRead 1 128 64).2.2, x = .none) := by decide +kernel
theorem witness_Descriptors_error : ∃ x ∈ (({ descOf 4 [] with hbmPoison := [(2, true)] }).spaceRead 1 128 64).2.2, x ≠ .none := by
  decide +kernel
theorem witness_Descriptors_ops : ∀ x ∈ [(0, queuedCmd [(2, 3), (1, 1)]), (1, regwDesc), (2, loadDesc), (3, descOf 3 [(0x10, 5)]),
      (5, descOf 5 [])], cmdOp (loadedDesc x.2) = x.1 ∧ descNat (loadedDesc x.2) 2 2 = x.2.ownGen ∧ x.2.hlk.exec = none
        ∧ x.2.hlk.queue = [1] := by decide +kernel
theorem witness_Descriptors_load : loadDesc.loadState = 0 ∧ loadDesc.load = none
    ∧ loadRequestBad loadDesc (descNat (loadedDesc loadDesc) 0x10 8) (descNat (loadedDesc loadDesc) 0x18 4) (descNat (loadedDesc loadDesc) 0x1C 1)
        = false
    ∧ loadRequestBad (descOf 2 []) (descNat (loadedDesc (descOf 2 [])) 0x10 8) 0 0 = true := by decide +kernel
theorem witness_Descriptors_wait : (descOf 3 []).reg64 FRM_TICK_LO = 0 ∧ descNat (loadedDesc (descOf 3 [(0x10, 5)])) 0x10 8 = 5
    ∧ descNat (loadedDesc (descOf 3 [])) 0x10 8 = 0 := by decide +kernel
theorem test_descriptors : (after .regw regwDesc).shReg FRM_MODE = 1 ∧ (after .regw regwDesc).reg HLK_RING_CONS = 2
    ∧ (after .waitTick (descOf 3 [(0x10, 5)])).hlk.exec.map (fun e => e.wait) = some (.tick 5)
    ∧ (after .load loadDesc).load.map (fun l => l.len) = some 64 ∧ (after .mark (descOf 4 [])).reg HLK_CPL_SEQ = 1
    ∧ (after .nop (queuedCmd [(2, 3)])).reg HLK_CPL_SEQ = 0 ∧ (after .nop (queuedCmd [(2, 4)])).reg HLK_CPL_SEQ = 1
    ∧ stays .mark regwDesc = true := by decide +kernel

/-! ### The side-band port -/

theorem witness_SideBandPort_up : run.sbUp = true ∧ State.reset.sbUp = false ∧ run.mmcRuns = true ∧ State.reset.mmcRuns = false
    ∧ bit (run.reg MMC_SB) 7 = false ∧ bit ((run.setReg MMC_SB 0x80).reg MMC_SB) 7 = true := by decide +kernel
theorem witness_SideBandPort_endpoint : (1 : BitVec 2).toNat ≤ 1 ∧ (0xFE : BitVec 8) ≠ 0 ∧ (0xFE : BitVec 8) ≠ 0xFF ∧ 1 < (2 : BitVec 2).toNat := by
  decide +kernel
theorem witness_SideBandPort_registers : 0 < 12 ∧ 12 ≤ 12 ∧ (regWrite run .sideBand FRM_MODE 1).2 ≠ 0 ∧ [(0 : BitVec 32)].length ≤ 11 := by
  decide +kernel
theorem witness_SideBandPort_keys : mapFind run.mgmt.keys 2 = none ∧ mapFind run.mgmt.keys 3 = none
    ∧ mapFind (after (.keyEnroll 2 [1] [2]) run).mgmt.keys 2 ≠ none := by decide +kernel
theorem witness_SideBandPort_sensors : run.sensorOn 1 = true ∧ run.sensorOn 10 = true ∧ run.sensorOn 6 = false
    ∧ mapGet 0 run.mgmt.sensors 8 = run.sensor 8 0 ∧ mapGet 0 run.mgmt.sensors 9 ≠ (run.setReg GOS_STATUS 0x600).sensor 9 0 := by decide +kernel
theorem witness_SideBandPort_tap : run.power.p12 = true ∧ State.reset.power.p12 = false ∧ run.power.seq = .on ∧ State.reset.power.seq = .off := by
  decide +kernel
theorem test_addresses : (after (.entdaa 0x31) run).reg MMC_SB &&& 0xFF = 0xB1 ∧ stays (.setdasa 0x4D 0x31) run = true
    ∧ (after (.setdasa 0x4C 0x31) run).reg MMC_SB &&& 0xFF = 0xB1 ∧ stays (.entdaa 0x32) (after (.entdaa 0x31) run) = true
    ∧ (after (.setEndpointId 0 0x1D) run).mgmt.sent = [.mctp 0 [0, 0x1D, 0]] ∧ (after (.setEndpointId 0 0xFF) run).mgmt.sent = [.mctp 2 []]
    ∧ (after .getEndpointId (after (.setEndpointId 1 7) run)).mgmt.sent = [.mctp 0 [0, 7, 0], .mctp 0 [7, 0, 0]] := by decide +kernel
theorem test_side_band_registers : (after (.regRead (BitVec.ofNat 32 DMC_IDENT) 1) run).mgmt.sent = [.regs 0 [0x00404002]]
    ∧ (after (.regWrite (BitVec.ofNat 32 FRM_MODE) [1]) run).mgmt.sent = [.done 2]
    ∧ (after (.regRead (BitVec.ofNat 32 DMC_IDENT) 13) run).mgmt.sent = [.regs 1 []]
    ∧ (after (.keyEnroll 1 [] []) run).mgmt.sent = [.done 2] ∧ (after (.keyEnroll 3 [1] [2]) run).mgmt.keys = [(3, [1], [2])] := by
  decide +kernel
theorem test_platform_events : (after (.platformEventMessage 1 48000) run).mgmt.sent = [.event 1 48000 false]
    ∧ (after (.platformEventMessage 1 60000) (after (.platformEventMessage 1 48000) run)).mgmt.sent.length = 2
    ∧ (after (.platformEventMessage 1 59999) (after (.platformEventMessage 1 48000) run)).mgmt.sent.length = 1
    ∧ (after (.platformEventMessage 9 0) (run.setReg GOS_STATUS 0x600)).mgmt.sent = [.event 9 6 false] := by decide +kernel
theorem test_tap : (after .bypass run).tap.data = [false] ∧ (after .idcode run).tap.data.take 8 = [true, true, true, true, false, false, true, false]
    ∧ (after (.extest [true]) (after (.samplePreload [false] [true, false]) { run with power := { run.power with seq := .off } })).tap
        = ⟨.extest, [true], [true, false], some [true, false]⟩
    ∧ (after (.extest [true]) run).tap.instr = .bypass := by decide +kernel

/-! ### Attestation -/

/-- An SPDM connection as far as `st`, on a module with its PUF key. -/
def spdm (st : Nat) : State :=
  let s := run.setReg SEC_STATUS 2
  { s with mgmt := { s.mgmt with spdm := ⟨st, [], none, []⟩ } }
theorem witness_SpdmRequests : (spdm 3).mmcRuns = true ∧ (spdm 3).mgmt.dev = 7 ∧ (spdm 3).power.mainGood = true ∧ (spdm 1).mgmt.spdm.state = 1
    ∧ (spdm 0).mgmt.spdm.state = 0 ∧ (spdm 2).mgmt.spdm.state = 2 ∧ ({ run with power := { run.power with mainGood := false } }).mmcRuns = true := by
  decide +kernel
theorem test_spdm : (after (.getCapabilities []) (spdm 0)).mgmt.sent = [.spdm (.error .unexpectedRequest)]
    ∧ (after (.getDigests []) (spdm 1)).mgmt.sent = [.spdm (.error .unexpectedRequest)]
    ∧ (after (.getDigests []) { spdm 3 with power := Power.reset }).mgmt.sent = []
    ∧ (after (.negotiateAlgorithms true false []) (spdm 2)).mgmt.sent = [.spdm (.error .invalidRequest)] := by decide +kernel

theorem witness_SignedAnswers : (spdm 3).mgmt.spdm.signedAt = [] ∧ ¬ (2 ^ 30 ≤ (spdm 3).mgmt.lmsNext ∨ bit ((spdm 3).reg SEC_STATUS) 1 = false)
    ∧ ¬ (spdm 3).mgmt.lmsBuilt < (spdm 3).mgmt.lmsNext / 2 ^ 20 := by decide +kernel
/-- The next leaf is `q`, with the state of lower trees 0 to `built` complete. -/
def leaf (q built : Nat) : State := { spdm 3 with mgmt := { (spdm 3).mgmt with lmsNext := q, lmsBuilt := built } }
theorem witness_SignedAnswers_refusals : 2 ^ 30 ≤ (leaf (2 ^ 30) 1023).mgmt.lmsNext ∧ (leaf (2 ^ 20) 0).mgmt.lmsBuilt < (leaf (2 ^ 20) 0).mgmt.lmsNext / 2 ^ 20
    ∧ 10 ≤ ((List.replicate 10 0).filter fun t => decide ((999999 : Nat) < t + 1000000)).length
    ∧ ((List.replicate 10 0).filter fun t => decide ((1000000 : Nat) < t + 1000000)).length < 10 := by decide +kernel
theorem witness_SignedAnswers_build : (leaf (2 ^ 19) 0).mgmt.lmsBuilt * 2 ^ 20 + 2 ^ 19 ≤ (leaf (2 ^ 19) 0).mgmt.lmsNext
    ∧ (leaf (2 ^ 19 - 1) 0).mgmt.lmsNext < (leaf (2 ^ 19 - 1) 0).mgmt.lmsBuilt * 2 ^ 20 + 2 ^ 19 ∧ bit ((leaf 0 0).reg SEC_STATUS) 2 = false
    ∧ bit (((leaf 0 0).setReg SEC_STATUS 4).reg SEC_STATUS) 2 = true := by decide +kernel
theorem test_signed : (after (.challenge 0 []) (leaf (2 ^ 30) 1023)).mgmt.sent = [.spdm (.error .unspecified)]
    ∧ (after (.challenge 0 []) (leaf (2 ^ 20) 0)).mgmt.sent = [.spdm (.error .busy)]
    ∧ (after (.vendorDefinedRequest 2) (spdm 3)).mgmt.sent = [.spdm (.error .unsupportedRequest)]
    ∧ (after (.lmsFail true) (leaf 5 0)).mgmt.lmsNext = 6 ∧ (after .lmsBuild (leaf (2 ^ 19) 0)).reg SEC_STATUS = 6 := by decide +kernel

/-! ### Images and the boot -/

/-- The 64 header bytes of an image of TYPE `typ` with SVN `svn`, and nothing after them. -/
def header (typ svn : BitVec 8) : List (BitVec 8) :=
  [0x4E, 0x5A, 0x53, 0x49, 1, 0, typ, 0, svn, 0, 0, 0] ++ List.replicate 52 0
/-- The same with an empty body and bytes for the two signatures. -/
def image (typ svn : BitVec 8) : List (BitVec 8) := header typ svn ++ List.replicate 3700 0
theorem witness_ImagesAndController : run.power.p12 = true ∧ run.mgmt.down = false ∧ imgType (image 1 9) = 1 ∧ imgType (image 4 9) = 4
    ∧ run.mmcRuns = true ∧ run.running 1 = some [] ∧ run.power.mainGood = true ∧ run.frame.safe = none := by decide +kernel
theorem test_image_fields : imgForm (image 1 9) = true ∧ imgSvn (image 1 9) = 9 ∧ imgForm (header 1 9) = false ∧ imgForm (image 5 9) = false := by
  decide +kernel
theorem test_updates : ((after (.firmwareUpdate (header 1 9)) { run with mgmt := { run.mgmt with selected := [(1, 0)] } }).flashImage 1 1).length = 64
    ∧ (after (.recordCommit true) run).reg MMC_CFG_STATUS = 0x103
    ∧ (after .svnCommit { run with mgmt := { run.mgmt with inForce := [(1, header 1 9)] } }).svnCounter 1 = 9
    ∧ (after .watchdogReset run).reg MMC_WDT_RESETS = 1 ∧ (after .mmcSafeReq run).frame.safe = some 6
    ∧ (after .ownRelease owned).reg HLK_OWN_LAST = 0x61 := by decide +kernel

theorem witness_BootStages_standby : State.reset.power.p12 = false ∧ run.power.p12 = true := by decide +kernel
/-- The controller in stage `st`, the device management core in stage `dv`. -/
def booting (st dv : Nat) : State := { run with mgmt := { run.mgmt with stage := st, dev := dv } }
theorem witness_BootStages_stages : (booting 1 0).mgmt.stage = 1 ∧ (booting 1 0).fwSelect 1 = none ∧ (booting 2 0).mgmt.stage = 2
    ∧ (selectRecords (booting 2 0)).2 = false ∧ (booting 3 4).power.mainGood = true ∧ (booting 3 5).mgmt.dev = 5
    ∧ (booting 3 6).mgmt.dev = 6 ∧ mapSorted (booting 3 6).regs = true
    ∧ ((4 : Fin 7).val ≠ (booting 1 0).mgmt.stage ∨ 2 < (4 : Fin 7).val) ∧ (4 : Fin 7).val ≠ (booting 1 0).mgmt.dev := by decide +kernel
/-- Whether a signature verifies stands in no rule of the specification (Config); where each does, an image of the right form is selected. -/
theorem witness_BootStages_select (e : ∀ k h g, Config.ecdsaOk k h g = true) (h : ∀ k m g, Config.hssOk k m g = true) :
    ({ run with mgmt := { run.mgmt with flash := [(2, image 1 9)] } }).slotVerifies 1 0 = true := by
  simp only [State.slotVerifies, State.imageOk, State.signaturesOk, State.slotKeys, e, h]
  decide +kernel
def found : BringUp := ⟨0, 0xFF, [], [], true, true⟩
theorem test_boot : (after (.standbyPowerGood 3 4 true) State.reset).mgmt.slotOk = true ∧ (after (.standbyPowerGood 3 4 false) State.reset).mgmt.slotOk = false
    ∧ (after (.standbyPowerGood 3 17 false) State.reset).mgmt.slotOk = false
    ∧ (after (.bootStageComplete 1 found) (booting 1 0)).mgmt.stage = 4 ∧ (after (.bootStageComplete 2 { found with seOk := false }) (booting 2 0)).mmcState = 5
    ∧ (after (.bootStageComplete 5 found) (booting 3 5)).mgmt.dev = 6 := by decide +kernel

/-! ### Main power -/

/-- Main power in a step of its sequence. -/
def powered (q : PowerSeq) : State := { run with power := { run.power with seq := q, mainGood := decide (q = .on) } }
theorem witness_PowerRequests_on : (powered .off).mmcRuns = true ∧ (powered .off).power.seq = .off
    ∧ ¬ ((powered .off).power.trip.isSome = true ∧ (powered .off).us < (powered .off).power.tripAt + 1000000) := by decide +kernel
/-- The stagger delay of member 3 of flock 2 has run for `n` µs. -/
def staggered (n : Nat) : State :=
  let s := powered .off
  { s with power := { s.power with stagger := false }, mgmt := { s.mgmt with member := 3, flock := 2 }, us := n }
theorem witness_PowerRequests_stagger : ∀ n, n = 64000 → (staggered n).power.onReq = true ∧ (staggered n).power.stagger = false
    ∧ (staggered n).power.onAt + (20000 * (staggered n).mgmt.member.toNat + 2000 * ((staggered n).mgmt.flock.toNat % 8)) ≤ (staggered n).us
    ∧ (staggered n).mgmt.slotOk = true ∧ (staggered n).mgmt.stage = 3 ∧ (staggered n).power.enLow = true
    ∧ (staggered n).power.trip = none ∧ (staggered n).power.p52 = true := by
  rintro n rfl
  decide +kernel
theorem witness_PowerRequests_waiting : (powered .waiting).power.seq = .waiting ∧ (powered .waiting).power.stagger = true
    ∧ (powered .waiting).power.trip = none := by decide +kernel
theorem test_power_requests : (after .staggerExpiry (staggered 64000)).power.seq = .rising 1 ∧ stays .staggerExpiry (staggered 63999) = true
    ∧ (after .staggerExpiry { staggered 64000 with power := { (staggered 64000).power with p52 := false } }).power.seq = .waiting
    ∧ (after .mainOff run).power.seq = .falling 5 ∧ (after .mainOff (powered (.rising 3))).power.seq = .falling 3
    ∧ (after .mainEnNHigh run).frame.safe = some 6 ∧ (after .mainOff (powered .waiting)).power.seq = .off := by decide +kernel

theorem witness_RailsAndTrips : (powered (.rising 5)).power.seq = .rising 5 ∧ (powered (.falling 1)).power.seq = .falling 1
    ∧ run.power.trip = none ∧ run.power.p12 = true ∧ ([3, 1].filter run.tripPossible).min? = some 1
    ∧ ([0x0D].filter run.tripPossible).min? = some 0x0D ∧ (powered .settled).power.seq = .settled
    ∧ ({ powered .waiting with us := 1000000 }).power.waitAt + 1000000 ≤ 1000000 := by decide +kernel
theorem test_rails : (after .railStep (powered (.rising 4))).power.seq = .rising 5 ∧ (after .railStep (powered (.rising 5))).power.seq = .settled
    ∧ (after .mainPowerGood (powered .settled)).mgmt.dev = 4 ∧ (after .powerDownStep (powered (.falling 2))).power.seq = .falling 1
    ∧ (after .powerDownStep { powered (.falling 1) with hbm := [(0, 1)] }).hbm = [] := by decide +kernel
theorem test_trips : (after .seqFail (powered (.rising 2))).reg GOS_REC_PWR = 0x0B ∧ (after (.protectionTrip [3, 1]) run).power.trip = some 1
    ∧ (after (.protectionTrip [0x0D]) run).power.p12 = false ∧ stays (.protectionTrip [0x0B]) run = true
    ∧ (after (.inputWaitExpiry false) { powered .waiting with us := 1000000 }).reg GOS_REC_PWR = 2
    ∧ stays (.inputWaitExpiry false) { powered .waiting with us := 999999 } = true
    ∧ (after (.coldPowerOn true) run).mgmt.stage = 0 := by decide +kernel

/-! ### The hall -/

theorem witness_HallElects_exchange : let s := { up run 0 with cands := [run.ownCand] }
    s.power.mainGood = true ∧ s.linkCarries 0 = true ∧ s.cands = [s.ownCand] ∧ (⟨0, 2, 7, 9⟩ : Cand) ≠ s.ownCand
    ∧ (⟨0, 2, 7, 9⟩ : Cand).rank ≠ s.ownCand.rank ∧ run.linkCarries 0 = false := by decide +kernel
/-- A settled view in stage 3 of the hall. -/
def viewed (cs : List Cand) : State := { run.setReg FAB_HALL_STATUS 3 with cands := cs, us := 10000, viewAt := 0 }
theorem witness_HallElects_settle : let s := viewed [run.ownCand]
    s.viewAt + 10000 ≤ s.us ∧ s.hallStage = 3 ∧ s.cands = s.ownCand :: [] ∧ s.ownCand ∈ s.cands ∧ s.cands.length ≤ 2
    ∧ lowerCand s.ownCand.rank s.ownCand.rank = false ∧ ({ s with us := 9999 }).us < s.viewAt + 10000 := by decide +kernel
theorem witness_HallElects_elect : run.bellwether = false ∧ (run.setReg FAB_HALL_STATUS 0x14).bellwether = true := by decide +kernel
/-- A deputy that has missed `n` ticks. -/
def deputy (n : Nat) : State := (run.setReg FAB_HALL_STATUS 0x24).modFrame fun f => { f with holdover := some n }
theorem witness_HallElects_takeover : fld ((deputy 2).reg FAB_HALL_STATUS) 4 2 = 2 ∧ 2 ≤ (deputy 2).frame.holdover.getD 0
    ∧ (deputy 1).frame.holdover.getD 0 < 2 ∧ (deputy 2).frame.safe = none := by decide +kernel
/-- An election whose winner takes over at count 5, at count `n`. -/
def handing (n : BitVec 64) : State :=
  State.modFrame { run.setReg64 FRM_TICK_LO n with cands := [⟨0, 0, 0, 0⟩] } fun f => { f with handover := 5 }
theorem witness_HallElects_handover : (handing 5).frame.handover ≠ 0 ∧ (handing 5).frame.handover.toNat ≤ ((handing 5).reg64 FRM_TICK_LO).toNat
    ∧ ((handing 4).reg64 FRM_TICK_LO).toNat < (handing 4).frame.handover.toNat ∧ (handing 5).cands ≠ [] := by decide +kernel
theorem test_hall : (after (.candidateExchange 0 [⟨0, 2, 7, 9⟩]) { up (run.setReg MMC_SITE 8) 0 with cands := [] }).cands.map (·.prio) = [7, 8]
    ∧ (after .electionSettle (viewed [run.ownCand])).bellwether = true ∧ (after .takeover (deputy 2)).reg FAB_HALL_STATUS = 0x14
    ∧ stays .takeover (deputy 1) = true ∧ (after .handover (handing 5)).frame.handover = 0 ∧ stays .handover (handing 4) = true := by
  decide +kernel

/-! ### Resets -/

theorem witness_Resets_requests : ¬ (run.rstWarm = true ∨ run.rstJob ≠ 0 ∨ run.rstRows ≠ 0 ∨ run.reg DMC_ROWRST_STATUS ≠ 0)
    ∧ (3 : BitVec 32).toNat % 2 ^ (run.tileCount / 32) = 3 ∧ (4 : BitVec 32).toNat % 2 ^ (run.tileCount / 32) = 0 := by decide +kernel
theorem witness_Resets_warm : run.power.mainGood = true ∧ run.mmcRuns = true ∧ run.rstWarm = false ∧ run.loadState = 0 ∧ run.shr = none
    ∧ run.colls = [] := by decide +kernel
def resetting : State := { run with rstJob := 2 }
theorem witness_Resets_job : resetting.rstJob = 2 ∧ resetting.rstWarm = false ∧ resetting.loadState = 0 ∧ resetting.frame.safe ≠ some 5 := by
  decide +kernel
theorem witness_Resets_rows : (run.setReg DMC_ROWRST_STATUS 1).reg DMC_ROWRST_STATUS ≠ 0 ∧ run.reg DMC_ROWRST_STATUS = 0 := by decide +kernel
theorem test_reset_requests : (after .job run).rstJob = 1 ∧ (after .job resetting).reg DMC_RESET_STATUS = 8 ∧ (after (.dmcRowrst 7) run).rstRows = 3
    ∧ stays (.dmcRowrst 4) run = true := by decide +kernel
theorem test_warm : let s := after .warm { owned with hbm := [(0, 1)] }
    s.mgmt.dev = 4 ∧ s.hbm = [(0, 1)] ∧ s.reg HLK_OWN = 0 ∧ s.reg FAB_CTRL = 0 := by decide +kernel
theorem test_job : (after .jobResetRun (resetting.setReg (MSG_EPOCH 63) 255)).reg (MSG_EPOCH 63) = 1
    ∧ fld ((after .jobResetRun resetting).reg DMC_RESET_STATUS) 1 2 = 2 := by decide +kernel
theorem test_rows : let s := (run.modTile 31 fun x => { x with inReset := true }).setReg DMC_ROWRST_STATUS 1
    ((after .rowResetEnd s).tile 31).inReset = false ∧ (after .rowResetEnd s).reg DMC_RESET_STATUS &&& 6 = 6 := by decide +kernel

end Sys2Proof.Tests
end

/-! PROOFS. Accesses to the register space (O47): rights and statuses, plain writes, reads and their latches, and the
port to a physical tile. -/

namespace Sys2Proof.Machine

/-! ### The commands that access registers -/

theorem exec_registerWrite (m : Master) (off v : BitVec 32) (s : State) :
    exec (.registerWrite m off v) s = .next (writeAnswered s m off.toNat v) := rfl

theorem exec_ptDataRead (m : Master) (s : State) : exec (.ptDataRead m) s = .next (readAnswered s m DBG_PT_DATA) := rfl

theorem exec_ptDataWrite (m : Master) (v : BitVec 32) (s : State) :
    exec (.ptDataWrite m v) s = .next (writeAnswered s m DBG_PT_DATA v) := rfl

/-- The two read commands perform the same read; which effects it has depends on the register alone (R14, R34). -/
theorem exec_readCommand {c : Instr} {m : Master} {off : BitVec 32} (hc : c = .rcRead m off ∨ c = .loReadLatch m off)
    (s : State) : exec c s = .next (readAnswered s m off.toNat) := by
  rcases hc with rfl | rfl <;> rfl

@[simp] theorem State.answered_regAnswer (s : State) (st : Nat) (v : BitVec 32) :
    (s.answered st v).regAnswer = (st, v) := rfl
@[simp] theorem State.answered_regs (s : State) (st : Nat) (v : BitVec 32) : (s.answered st v).regs = s.regs := rfl
@[simp] theorem State.reg_answered (s : State) (st : Nat) (v : BitVec 32) (o : Nat) :
    (s.answered st v).reg o = s.reg o := rfl
@[simp] theorem State.vec_answered (s : State) (st : Nat) (v : BitVec 32) (t : Nat) :
    (s.answered st v).vec t = s.vec t := rfl

theorem sameRegsBut_answered {s s' : State} {offs : List Nat} (st : Nat) (v : BitVec 32) (h : sameRegsBut s s' offs) :
    sameRegsBut s (s'.answered st v) offs := h

theorem sameTilesBut_answered {s s' : State} {ts : List Nat} (st : Nat) (v : BitVec 32) (h : sameTilesBut s s' ts) :
    sameTilesBut s (s'.answered st v) ts := h

theorem sameMemory_answered {s s' : State} (st : Nat) (v : BitVec 32) (h : sameMemory s s') :
    sameMemory s (s'.answered st v) := h

/-- Memory reads the same where the three spaces are the same data. -/
theorem sameMemory_of_eq {s s' : State} (hspad : s'.spad = s.spad) (hhbm : s'.hbm = s.hbm) (hddr : s'.ddr = s.ddr) :
    sameMemory s s' := by
  intro a
  rw [hspad, hhbm, hddr]
  exact ⟨rfl, rfl, rfl⟩

theorem sameRegsBut_setReg (s : State) (o : Nat) (v : BitVec 32) : sameRegsBut s (s.setReg o v) [o] := by
  intro o' ho'
  exact State.reg_setReg_ne _ _ (by simpa using ho')

theorem sameRegsBut_of_regs {s s' : State} (h : s'.regs = s.regs) (offs : List Nat) : sameRegsBut s s' offs :=
  fun o _ => State.reg_of_regs h o

/-! ### The order of the failing statuses (R37) -/

section

variable {s : State} {m : Master} {w : Bool} {o : Nat}

theorem State.accessStatus_of_missing
    (hmiss : (regGroupOf o).isNone = true ∨ (0x40000000 ≤ o ∧ s.tileCount ≤ offTile o)) :
    s.accessStatus m w o = stAddrInvalid := if_pos hmiss

theorem State.accessStatus_of_denied
    (hmiss : ¬ ((regGroupOf o).isNone = true ∨ (0x40000000 ≤ o ∧ s.tileCount ≤ offTile o)))
    (hmay : s.mayAccess m w o = false) : s.accessStatus m w o = stAccessDenied := by
  rw [State.accessStatus, if_neg hmiss, hmay]
  rfl

theorem State.accessStatus_of_off
    (hmiss : ¬ ((regGroupOf o).isNone = true ∨ (0x40000000 ≤ o ∧ s.tileCount ≤ offTile o)))
    (hmay : s.mayAccess m w o = true) (hoff : s.targetOff m o = true) : s.accessStatus m w o = stTargetOff := by
  rw [State.accessStatus, if_neg hmiss, hmay, hoff]
  rfl

end

theorem readAnswered_of_fail {s : State} {m : Master} {o st : Nat} (h : s.accessStatus m false o = st)
    (hst : st ≠ stDone) : readAnswered s m o = s.answered st 0 := by
  have hread : regRead s m o = (s, st, 0) := by simp [regRead, h, hst]
  rw [readAnswered, hread]

/-- A failed write changes nothing, but for the count of signals dropped by a tile in tile-row reset (R272). -/
theorem writeAnswered_of_fail {s : State} {m : Master} {o st : Nat} (v : BitVec 32) (h : s.accessStatus m true o = st)
    (hst : st ≠ stDone) (hsig : st = stTargetOff → o < 0x40000000 ∨ o % 0x100000 ≠ 0xA090) :
    writeAnswered s m o v = s.answered st 0 := by
  have hwrite : regWrite s m o v = (s, st) := by
    by_cases hoff : st = stTargetOff
    · rcases hsig hoff with hlow | hport
      · simp [regWrite, h, hst, Nat.not_le.2 hlow]
      · simp [regWrite, h, hst, hport]
    · simp [regWrite, h, hst, hoff]
  rw [writeAnswered, hwrite]

/-- `c` is the access of master `m` to offset `off`: a write of `v` where `w` holds, else a read. -/
def isRegAccess (c : Instr) (m : Master) (off v : BitVec 32) (w : Bool) : Prop :=
  c = .registerWrite m off v ∧ w = true ∨ (c = .rcRead m off ∨ c = .loReadLatch m off) ∧ w = false

/-- A failed access answers its status and 0 and changes nothing more (R37). -/
theorem exec_of_failedAccess {s : State} {c : Instr} {m : Master} {off v : BitVec 32} {w : Bool} {st : Nat}
    (hc : isRegAccess c m off v w) (h : s.accessStatus m w off.toNat = st) (hst : st ≠ stDone)
    (hsig : w = true → st = stTargetOff → off.toNat < 0x40000000 ∨ off.toNat % 0x100000 ≠ 0xA090) :
    exec c s = .next (s.answered st 0) := by
  rcases hc with ⟨rfl, rfl⟩ | ⟨hread, rfl⟩
  · rw [exec_registerWrite, writeAnswered_of_fail v h hst (hsig rfl)]
  · rw [exec_readCommand hread, readAnswered_of_fail h hst]

/-! ### The rights of a port of the host link (R36) -/

/-- A port without the token may write HLK_CLAIM only and read the HLK window only. -/
theorem State.mayAccess_host_of_not_owns {s : State} {p : Nat} {w : Bool} {o : Nat} (howns : s.owns p = false)
    (hwrite : w = true → o ≠ HLK_CLAIM) (hread : w = false → inHlk o = false) :
    s.mayAccess (.host p) w o = false := by
  cases w with
  | true => simpa [State.mayAccess, howns] using hwrite rfl
  | false => simpa [State.mayAccess, howns] using hread rfl

/-- The owner neither reads nor writes SEC, and does not write the MMC window. -/
theorem State.mayAccess_host_of_owns {s : State} {p : Nat} (w : Bool) (o : Nat) (howns : s.owns p = true) :
    inSec o = true ∨ (w = true ∧ inMmc o = true) ↔ s.mayAccess (.host p) w o = false := by
  simp only [State.mayAccess, howns, if_true, Bool.and_eq_false_iff, Bool.not_eq_false', Bool.and_eq_true]

/-! ### Writes by access code (R14, R15) -/

section

variable (s : State) (o : Nat) {g : RegGroup} (v : BitVec 32)

theorem plainWrite_rw (h : g.access = .rw) :
    plainWrite s o g v = s.setReg o ((s.reg o &&& ~~~ g.mask) ||| (v &&& g.mask)) := by simp [plainWrite, h]

theorem plainWrite_w1c (h : g.access = .w1c) :
    plainWrite s o g v = s.setReg o (s.reg o &&& ~~~ (v &&& g.mask)) := by simp [plainWrite, h]

theorem plainWrite_sh (h : g.access = .sh) : plainWrite s o g v = { s with shadow := mapPut s.shadow o v } := by
  simp [plainWrite, h]

theorem plainWrite_readOnly (h : g.access = .ro ∨ g.access = .rc) : plainWrite s o g v = s := by
  rcases h with h | h <;> simp [plainWrite, h]

/-- A plain write sets the register, or its shadow, or does nothing. -/
theorem plainWrite_cases (g : RegGroup) :
    (∃ x, plainWrite s o g v = s.setReg o x) ∨ plainWrite s o g v = { s with shadow := mapPut s.shadow o v }
      ∨ plainWrite s o g v = s := by
  cases h : g.access with
  | rw => exact .inl ⟨_, plainWrite_rw s o v h⟩
  | w1c => exact .inl ⟨_, plainWrite_w1c s o v h⟩
  | sh => exact .inr (.inl (plainWrite_sh s o v h))
  | ro => exact .inr (.inr (plainWrite_readOnly s o v (.inl h)))
  | rc => exact .inr (.inr (plainWrite_readOnly s o v (.inr h)))
  | wo => exact .inr (.inr (by simp [plainWrite, h]))

theorem plainWrite_frame (g : RegGroup) :
    (plainWrite s o g v).tiles = s.tiles ∧ sameMemory s (plainWrite s o g v)
      ∧ sameRegsBut s (plainWrite s o g v) [o] := by
  obtain ⟨x, h⟩ | h | h := plainWrite_cases s o v g <;> rw [h]
  · exact ⟨rfl, sameMemory_of_eq rfl rfl rfl, sameRegsBut_setReg _ _ _⟩
  · exact ⟨rfl, sameMemory_of_eq rfl rfl rfl, sameRegsBut_of_regs rfl _⟩
  · exact ⟨rfl, sameMemory_of_eq rfl rfl rfl, sameRegsBut_of_regs rfl _⟩

/-- What software reads of an SH register is the value last written (R14). -/
theorem shReg_plainWrite_sh (h : g.access = .sh) : (plainWrite s o g v).shReg o = v := by
  rw [plainWrite_sh s o v h]
  simp [State.shReg, mapFind_mapPut]

end

/-- A write that the access lets through to a register with no effect of its own goes by the access code. -/
theorem writeAnswered_plain {s : State} {m : Master} {o : Nat} {g : RegGroup} (v : BitVec 32)
    (hg : regGroupOf o = some g) (hlow : o < 0x40000000) (hst : s.accessStatus m true o = stDone)
    (hdata : o ≠ DBG_PT_DATA) (hclaim : o ≠ HLK_CLAIM) (hagp : inWindow16 o 0xD 0xE = false)
    (hplain : moduleWrite s m o v = none) : writeAnswered s m o v = (plainWrite s o g v).answered stDone 0 := by
  have hwrite : regWrite s m o v = (plainWrite s o g v, stDone) := by
    simp [regWrite, hst, Nat.not_le.2 hlow, hdata, hclaim, hg, hagp, hplain]
  rw [writeAnswered, hwrite]

/-! ### Reads: what is shown, the latched half and the RC registers (R14, R34) -/

section

variable (s : State) (m : Master) (o : Nat) {g : RegGroup} (v hi : BitVec 32)

/-- A read of a _LO register latches the upper half. -/
theorem regReadEffect_lo (hlo : g.lo = true) :
    regReadEffect s m o g v hi
      = ({ s with hiLatch := mapPut s.hiLatch (masterKey m * 2 ^ 32 + o + 4) hi }, v) := by
  simp [regReadEffect, hlo]

/-- A half that is latched for the master is answered once. -/
theorem regReadEffect_latched (hlo : g.lo = false) {h : BitVec 32}
    (hl : mapFind s.hiLatch (masterKey m * 2 ^ 32 + o) = some h) :
    regReadEffect s m o g v hi = ({ s with hiLatch := mapDel s.hiLatch (masterKey m * 2 ^ 32 + o) }, h) := by
  simp only [regReadEffect, hlo, hl, Bool.false_eq_true, if_false]

/-- An RC register returns to its reset value. -/
theorem regReadEffect_rc (hlo : g.lo = false) (hl : mapFind s.hiLatch (masterKey m * 2 ^ 32 + o) = none)
    (hrc : g.access = .rc) : regReadEffect s m o g v hi = (s.setReg o g.reset, v) := by
  simp only [regReadEffect, hlo, hl, hrc, Bool.false_eq_true, if_false, if_true]

theorem regReadEffect_pure (hlo : g.lo = false) (hl : mapFind s.hiLatch (masterKey m * 2 ^ 32 + o) = none)
    (hrc : g.access ≠ .rc) : regReadEffect s m o g v hi = (s, v) := by
  simp only [regReadEffect, hlo, hl, hrc, Bool.false_eq_true, if_false]

/-- A read changes latches and registers only. -/
theorem regReadEffect_frame (g : RegGroup) :
    { (regReadEffect s m o g v hi).1 with regs := s.regs, hiLatch := s.hiLatch } = s := by
  cases hlo : g.lo with
  | true => rw [regReadEffect_lo s m o v hi hlo]
  | false =>
    cases hl : mapFind s.hiLatch (masterKey m * 2 ^ 32 + o) with
    | some h => rw [regReadEffect_latched s m o v hi hlo hl]
    | none =>
      by_cases hrc : g.access = .rc
      · rw [regReadEffect_rc s m o v hi hlo hl hrc]; rfl
      · rw [regReadEffect_pure s m o v hi hlo hl hrc]

/-- What an RC register with a typed home loses lies in the clocks or in the count of free values. -/
theorem rcTyped_frame : { rcTyped s o with clk := s.clk, regions := s.regions, freeCount := s.freeCount } = s := by
  unfold rcTyped
  split_ifs <;> rfl

@[simp] theorem rcTyped_regs : (rcTyped s o).regs = s.regs := by simpa using congrArg State.regs (rcTyped_frame s o)

@[simp] theorem rcTyped_hiLatch : (rcTyped s o).hiLatch = s.hiLatch := by
  simpa using congrArg State.hiLatch (rcTyped_frame s o)

@[simp] theorem rcTyped_tiles : (rcTyped s o).tiles = s.tiles := by simpa using congrArg State.tiles (rcTyped_frame s o)

theorem rcTyped_sameMemory : sameMemory s (rcTyped s o) :=
  sameMemory_of_eq (by simpa using congrArg State.spad (rcTyped_frame s o))
    (by simpa using congrArg State.hbm (rcTyped_frame s o)) (by simpa using congrArg State.ddr (rcTyped_frame s o))

@[simp] theorem State.reg_rcTyped (o' : Nat) : (rcTyped s o).reg o' = s.reg o' := State.reg_of_regs (rcTyped_regs s o) o'

end

/-- A read of a register without a typed home shows the register by its access code (R14). -/
theorem regView_of_untyped {s : State} {o : Nat} {g : RegGroup} (hg : regGroupOf o = some g) (hlow : o < 0x40000000)
    (hmeas : isMeasured o = false) (htyped : typedView s o = none) : regView s o = plainView s o g := by
  simp [regView, hg, Nat.not_le.2 hlow, hmeas, htyped]

theorem plainView_wo (s : State) (o : Nat) {g : RegGroup} (h : g.access = .wo) : plainView s o g = 0 := by
  simp [plainView, h]

theorem plainView_sh (s : State) (o : Nat) {g : RegGroup} (h : g.access = .sh) : plainView s o g = s.shReg o := by
  simp [plainView, h]

theorem plainView_committed (s : State) (o : Nat) {g : RegGroup} (hwo : g.access ≠ .wo) (hsh : g.access ≠ .sh) :
    plainView s o g = s.reg o := by
  cases h : g.access <;> simp_all [plainView]

/-- The state after a read that the access lets through. -/
def readState (s : State) (m : Master) (o : Nat) (g : RegGroup) : State :=
  rcTyped (regReadEffect s m o g (regView s o) (regView s (o + 4))).1 o

/-- The value that a read which the access lets through answers. -/
def readValue (s : State) (m : Master) (o : Nat) (g : RegGroup) : BitVec 32 :=
  (regReadEffect s m o g (regView s o) (regView s (o + 4))).2

theorem readAnswered_of_group {s : State} {m : Master} {o : Nat} {g : RegGroup} (hg : regGroupOf o = some g)
    (hst : s.accessStatus m false o = stDone) (hdata : o ≠ DBG_PT_DATA) :
    readAnswered s m o = (readState s m o g).answered stDone (readValue s m o g) := by
  have hread : regRead s m o = (readState s m o g, stDone, readValue s m o g) := by
    simp [regRead, hst, hdata, hg, readState, readValue]
  rw [readAnswered, hread]

theorem readState_tiles (s : State) (m : Master) (o : Nat) (g : RegGroup) : (readState s m o g).tiles = s.tiles := by
  have h := congrArg State.tiles (regReadEffect_frame s m o (regView s o) (regView s (o + 4)) g)
  simpa [readState] using h

theorem readState_sameMemory (s : State) (m : Master) (o : Nat) (g : RegGroup) : sameMemory s (readState s m o g) := by
  have h := regReadEffect_frame s m o (regView s o) (regView s (o + 4)) g
  have heffect : sameMemory s (regReadEffect s m o g (regView s o) (regView s (o + 4))).1 :=
    sameMemory_of_eq (by simpa using congrArg State.spad h) (by simpa using congrArg State.hbm h)
      (by simpa using congrArg State.ddr h)
  intro a
  obtain ⟨hspad, hhbm, hddr⟩ := heffect a
  obtain ⟨hspad', hhbm', hddr'⟩ := rcTyped_sameMemory (regReadEffect s m o g (regView s o) (regView s (o + 4))).1 o a
  exact ⟨hspad'.trans hspad, hhbm'.trans hhbm, hddr'.trans hddr⟩

/-! ### The port to a physical tile (R201, R202) -/

/-- Recording an outcome writes DBG_PT_STATUS and nothing else; its value is the subject of `ptRecord_status`. -/
theorem ptRecord_eq_setReg (s : State) (code : Nat) (poison : Bool) :
    ∃ x, ptRecord s code poison = s.setReg DBG_PT_STATUS x := ⟨_, rfl⟩

theorem ptRecord_onlyRegs (s : State) (code : Nat) (poison : Bool) : onlyRegs s (ptRecord s code poison) := by
  obtain ⟨x, hx⟩ := ptRecord_eq_setReg s code poison
  rw [hx]
  exact onlyRegs_setReg _ _ _

@[simp] theorem ptRecord_tiles (s : State) (code : Nat) (poison : Bool) : (ptRecord s code poison).tiles = s.tiles := by
  simpa using congrArg State.tiles (ptRecord_onlyRegs s code poison)

theorem ptRecord_sameMemory (s : State) (code : Nat) (poison : Bool) : sameMemory s (ptRecord s code poison) := by
  have h := ptRecord_onlyRegs s code poison
  exact sameMemory_of_eq (by simpa using congrArg State.spad h) (by simpa using congrArg State.hbm h)
    (by simpa using congrArg State.ddr h)

theorem ptRecord_sameRegsBut (s : State) (code : Nat) (poison : Bool) :
    sameRegsBut s (ptRecord s code poison) [DBG_PT_STATUS] := by
  obtain ⟨x, hx⟩ := ptRecord_eq_setReg s code poison
  rw [hx]
  exact sameRegsBut_setReg _ _ _

theorem ptInc_ptRecord (s : State) (code : Nat) (poison : Bool) : ptInc (ptRecord s code poison) = ptInc s := by
  have h : (ptRecord s code poison).reg DBG_PT_SEL = s.reg DBG_PT_SEL := ptRecord_sameRegsBut s code poison _ (by decide)
  rw [ptInc, ptInc, h]

/-- Without INC an access records its outcome and DBG_PT_ADDR stays. -/
theorem ptAdvance_ptRecord {s : State} (hinc : ptInc s = false) (code : Nat) (poison : Bool) :
    ptAdvance (ptRecord s code poison) = ptRecord s code poison := by
  simp [ptAdvance, ptInc_ptRecord, hinc]

theorem fld_ofNat {n : Nat} (hn : n < 2 ^ 32) (lo w : Nat) : fld (BitVec.ofNat 32 n) lo w = n / 2 ^ lo % 2 ^ w := by
  rw [fld, BitVec.toNat_ofNat, Nat.mod_eq_of_lt hn]

/-- What DBG_PT_STATUS shows above its code: the poison flag and the position of a used row. -/
theorem ptRecord_status (s : State) (code : Nat) (poison : Bool) :
    ∃ pos, pos < 2 ^ 12 ∧ (ptRecord s code poison).reg DBG_PT_STATUS
      = BitVec.ofNat 32 (code + (if poison then 2 ^ 8 else 0) + pos * 2 ^ 20) := by
  rw [ptRecord, State.reg_setReg_same]
  by_cases hused : (ptUsed s && decide (ptRow s ≤ 35)) = true
  · exact ⟨ptLrow s % 64 + 2 ^ 11, by omega, congrArg (BitVec.ofNat 32) (by rw [if_pos hused]; omega)⟩
  · exact ⟨0, by omega, congrArg (BitVec.ofNat 32) (by rw [if_neg hused]; omega)⟩

theorem ptRecord_code {code : Nat} (hcode : code < 4) (s : State) (poison : Bool) :
    fld ((ptRecord s code poison).reg DBG_PT_STATUS) 0 2 = code := by
  obtain ⟨pos, hpos, hst⟩ := ptRecord_status s code poison
  rw [hst]
  cases poison <;> simp only [Bool.false_eq_true, if_true, if_false] <;> rw [fld_ofNat (by omega)] <;> omega

theorem ptRecord_poison {code : Nat} (hcode : code < 4) (s : State) (poison : Bool) :
    bit ((ptRecord s code poison).reg DBG_PT_STATUS) 8 = poison := by
  obtain ⟨pos, hpos, hst⟩ := ptRecord_status s code poison
  have hfld : fld ((ptRecord s code poison).reg DBG_PT_STATUS) 8 1 = if poison then 1 else 0 := by
    rw [hst]
    cases poison <;> simp only [Bool.false_eq_true, if_true, if_false] <;> rw [fld_ofNat (by omega)] <;> omega
  rw [bit, hfld]
  cases poison <;> rfl

theorem ptStatus_of_invalid {s : State} (h : ptInvalid s = true) (m : Master) (w : Bool) :
    ptStatus s m w = stAddrInvalid := if_pos h

/-- A read of DBG_PT_DATA is the access through the port. -/
theorem readAnswered_ptData {s s' : State} {m : Master} {st : Nat} {v : BitVec 32}
    (hst : s.accessStatus m false DBG_PT_DATA = stDone) (hport : ptRead s m = (s', st, v)) :
    readAnswered s m DBG_PT_DATA = s'.answered st v := by
  have hread : regRead s m DBG_PT_DATA = (s', st, v) := by simp [regRead, hst, hport]
  rw [readAnswered, hread]

/-- A write of DBG_PT_DATA is the access through the port. -/
theorem writeAnswered_ptData {s s' : State} {m : Master} {st : Nat} {v : BitVec 32}
    (hst : s.accessStatus m true DBG_PT_DATA = stDone) (hport : ptWrite s m v = (s', st)) :
    writeAnswered s m DBG_PT_DATA v = s'.answered st 0 := by
  have hlow : ¬ 0x40000000 ≤ DBG_PT_DATA := by decide
  have hwrite : regWrite s m DBG_PT_DATA v = (s', st) := by simp [regWrite, hst, hlow, hport]
  rw [writeAnswered, hwrite]

section

variable {s : State} (hinc : ptInc s = false)
include hinc

theorem ptRead_of_invalid (h : ptInvalid s = true) (m : Master) :
    ptRead s m = (ptRecord s stAddrInvalid false, stAddrInvalid, 0) := by
  simp [ptRead, ptStatus_of_invalid h, ptAdvance_ptRecord hinc, stAddrInvalid, stDone]

theorem ptWrite_of_invalid (h : ptInvalid s = true) (m : Master) (v : BitVec 32) :
    ptWrite s m v = (ptRecord s stAddrInvalid false, stAddrInvalid) := by
  simp [ptWrite, ptStatus_of_invalid h, ptAdvance_ptRecord hinc, stAddrInvalid, stDone]

/-- Target 1 reads an element of a tile register. -/
theorem ptRead_element {m : Master} (htgt : ptTarget s = 1) (hst : ptStatus s m false = stDone) :
    ptRead s m = (ptRecord s stDone ((mapGet elemReset (s.vec (ptTile s)).treg (ptElem s)).cause != .none), stDone,
      (mapGet elemReset (s.vec (ptTile s)).treg (ptElem s)).bits) := by
  simp [ptRead, htgt, hst, ptAdvance_ptRecord hinc]

end

/-- A tile whose register element `k` holds `v`, the error of its word gone. -/
def putElement (x : Tile) (k : Nat) (v : BitVec 32) : Tile :=
  { x with vec := { x.vec with treg := mapSet elemReset x.vec.treg k ⟨v, .none⟩, tregErr := mapDel x.vec.tregErr k } }

/-- Target 1 writes an element of a tile register. -/
theorem ptWrite_element {s : State} {m : Master} (hinc : ptInc s = false) (htgt : ptTarget s = 1)
    (hst : ptStatus s m true = stDone) (v : BitVec 32) :
    ptWrite s m v
      = (ptRecord (s.modTile (ptTile s) fun x => putElement x (ptElem s) v) stDone false, stDone) := by
  have hinc' : ptInc (s.modTile (ptTile s) fun x => putElement x (ptElem s) v) = false := hinc
  simp only [ptWrite, htgt, hst, ne_eq, not_true_eq_false, if_false]
  exact congrArg (·, stDone) (ptAdvance_ptRecord hinc' stDone false)

/-! ### The clauses of the statement -/

/-- The first of the three failing statuses that applies is answered (R37). -/
theorem failedAccess_answers (s : State) (m : Master) (off v : BitVec 32) (c : Instr) (w : Bool)
    (hc : isRegAccess c m off v w) :
    let o := off.toNat
    let missing := (regGroupOf o).isNone = true ∨ (0x40000000 ≤ o ∧ s.tileCount ≤ offTile o)
    (missing → exec c s = .next (s.answered 1 0))
    ∧ (¬ missing → s.mayAccess m w o = false → exec c s = .next (s.answered 2 0))
    ∧ (¬ missing → s.mayAccess m w o = true → s.targetOff m o = true →
        (w = true → o < 0x40000000 ∨ o % 0x100000 ≠ 0xA090) →
        exec c s = .next (s.answered 3 0)) := by
  refine ⟨fun hmiss => ?_, fun hmiss hmay => ?_, fun hmiss hmay hoff hsig => ?_⟩
  · exact exec_of_failedAccess hc (State.accessStatus_of_missing hmiss) (by decide) (fun _ h => absurd h (by decide))
  · exact exec_of_failedAccess hc (State.accessStatus_of_denied hmiss hmay) (by decide) (fun _ h => absurd h (by decide))
  · exact exec_of_failedAccess hc (State.accessStatus_of_off hmiss hmay hoff) (by decide) (fun hw _ => hsig hw)

/-- A read that the access lets through answers and leaves what R14 and R34 say. -/
theorem readState_spec (s : State) (m : Master) (o : Nat) (g : RegGroup) :
    let key := masterKey m * 2 ^ 32 + o
    (g.lo = true → readValue s m o g = regView s o
        ∧ mapFind (readState s m o g).hiLatch (key + 4) = some (regView s (o + 4)) ∧ (readState s m o g).regs = s.regs)
    ∧ (g.lo = false → ∀ h, mapFind s.hiLatch key = some h → readValue s m o g = h
        ∧ mapFind (readState s m o g).hiLatch key = none ∧ (readState s m o g).regs = s.regs)
    ∧ (g.lo = false → mapFind s.hiLatch key = none → readValue s m o g = regView s o
        ∧ (readState s m o g).hiLatch = s.hiLatch
        ∧ (g.access = .rc → (readState s m o g).reg o = g.reset ∧ sameRegsBut s (readState s m o g) [o])
        ∧ (g.access ≠ .rc → (readState s m o g).regs = s.regs)) := by
  refine ⟨fun hlo => ?_, fun hlo h hl => ?_, fun hlo hl => ?_⟩
  · rw [readState, readValue, regReadEffect_lo _ _ _ _ _ hlo]
    simp [mapFind_mapPut]
  · rw [readState, readValue, regReadEffect_latched _ _ _ _ _ hlo hl]
    simp [mapFind_mapDel]
  · by_cases hrc : g.access = .rc
    · rw [readState, readValue, regReadEffect_rc _ _ _ _ _ hlo hl hrc]
      refine ⟨rfl, by simp, fun _ => ⟨by simp, fun o' ho' => ?_⟩, fun h => absurd hrc h⟩
      rw [State.reg_rcTyped]
      exact sameRegsBut_setReg s o _ o' ho'
    · rw [readState, readValue, regReadEffect_pure _ _ _ _ _ hlo hl hrc]
      exact ⟨rfl, by simp, fun h => absurd h hrc, fun _ => by simp⟩

/-- An access that only records an outcome of the port changes DBG_PT_STATUS and the answer. -/
theorem ptRecord_answered_frame (s : State) (code : Nat) (poison : Bool) (st : Nat) (v : BitVec 32) :
    { (ptRecord s code poison).answered st v with regs := s.regs, regAnswer := s.regAnswer } = s :=
  congrArg (fun x : State => { x with regAnswer := s.regAnswer }) (ptRecord_onlyRegs s code poison)

/-- The port at an address that its target does not have (R201). -/
theorem ptData_of_invalid {s : State} {m : Master} {v : BitVec 32} {c : Instr}
    (hread : s.accessStatus m false DBG_PT_DATA = stDone) (hwrite : s.accessStatus m true DBG_PT_DATA = stDone)
    (hinc : ptInc s = false) (h : ptInvalid s = true) (hc : c = .ptDataRead m ∨ c = .ptDataWrite m v) :
    exec c s = .next ((ptRecord s stAddrInvalid false).answered stAddrInvalid 0) := by
  rcases hc with rfl | rfl
  · rw [exec_ptDataRead, readAnswered_ptData hread (ptRead_of_invalid hinc h m)]
  · rw [exec_ptDataWrite, writeAnswered_ptData hwrite (ptWrite_of_invalid hinc h m v)]

/-- What a write through the port leaves: the element holds the value, every other element and tile and the memories
are as before (R201). -/
theorem ptRecord_putElement_spec (s : State) (t k : Nat) (v : BitVec 32) :
    let s' := ptRecord (s.modTile t fun x => putElement x k v) stDone false
    mapGet elemReset (s'.vec t).treg k = ⟨v, .none⟩
    ∧ (∀ j, j ≠ k → mapGet elemReset (s'.vec t).treg j = mapGet elemReset (s.vec t).treg j)
    ∧ sameRegsBut s s' [DBG_PT_STATUS] ∧ sameTilesBut s s' [t] ∧ sameMemory s s' := by
  intro s'
  have htile : ∀ u, s'.tile u = (s.modTile t fun x => putElement x k v).tile u :=
    State.tile_of_tiles (ptRecord_tiles _ _ _)
  have htreg : (s'.vec t).treg = mapSet elemReset (s.vec t).treg k ⟨v, .none⟩ := by
    rw [State.vec, htile, State.tile_modTile_same]
    rfl
  refine ⟨?_, fun j hj => ?_, fun o ho => ?_, fun u hu => ?_, ?_⟩
  · rw [htreg, mapGet_mapSet_same]
  · rw [htreg, mapGet_mapSet_ne _ _ _ hj]
  · rw [ptRecord_sameRegsBut _ _ _ o ho, State.reg_modTile]
  · rw [htile, sameTilesBut_modTile s t _ u hu]
  · exact ptRecord_sameMemory (s.modTile t fun x => putElement x k v) stDone false

/-- Settles O47: the order of the statuses, the access codes, the latches, and the port to a tile's registers. -/
theorem registerAccesses : Obligations.RegisterAccesses := by
  refine ⟨fun s m off v c w hc => ?_, fun s m off v g hg hlow hst hdata hclaim hagp hplain => ?_,
    fun s m off c g hc hg hlow hst hdata => ?_, fun s m v hread hwrite hinc => ⟨fun hinv c hc => ?_, ?_, ?_⟩⟩
  · obtain ⟨hmissing, hdenied, hoff⟩ := failedAccess_answers s m off v c w hc
    refine ⟨hmissing, hdenied, hoff, ?_, ?_⟩
    · rintro p rfl howns hw hr
      exact State.mayAccess_host_of_not_owns howns hw hr
    · rintro p rfl howns
      exact State.mayAccess_host_of_owns w _ howns
  · have hexec := writeAnswered_plain v hg hlow hst hdata hclaim hagp hplain
    obtain ⟨htiles, hmem, hregs⟩ := plainWrite_frame s off.toNat v g
    refine ⟨_, (exec_registerWrite m off v s).trans (congrArg _ hexec), rfl, htiles, hmem,
      hregs, fun h => ?_, fun h => ?_, fun h => ⟨shReg_plainWrite_sh s _ v h, ?_⟩, fun h => ?_⟩
    · rw [State.reg_answered, plainWrite_rw s _ v h, State.reg_setReg_same]
    · rw [State.reg_answered, plainWrite_w1c s _ v h, State.reg_setReg_same]
    · rw [State.answered_regs, plainWrite_sh s _ v h]
    · rw [plainWrite_readOnly s _ v h]
      rfl
  · obtain ⟨hlo, hlatched, hshown⟩ := readState_spec s m off.toNat g
    have hexec := readAnswered_of_group hg hst hdata
    refine ⟨_, (exec_readCommand hc s).trans (congrArg _ hexec), readState_tiles s m _ g,
      readState_sameMemory s m _ g, fun h => ?_, fun h hi hl => ?_, fun h hl => ?_, fun hmeas htyped => ?_⟩
    · obtain ⟨hval, hlatch, hregs⟩ := hlo h
      exact ⟨congrArg (stDone, ·) hval, hlatch, hregs⟩
    · obtain ⟨hval, hlatch, hregs⟩ := hlatched h hi hl
      exact ⟨congrArg (stDone, ·) hval, hlatch, hregs⟩
    · obtain ⟨hval, hlatch, hregs⟩ := hshown h hl
      exact ⟨congrArg (stDone, ·) hval, hlatch, hregs⟩
    · rw [regView_of_untyped hg hlow hmeas htyped]
      exact ⟨plainView_wo s _, plainView_sh s _, plainView_committed s _⟩
  · refine ⟨_, ptData_of_invalid hread hwrite hinc hinv hc, State.answered_regAnswer _ _ _, ?_,
      sameRegsBut_answered _ _ (ptRecord_sameRegsBut s _ _), ptRecord_answered_frame s _ _ _ _⟩
    rw [State.reg_answered, ptRecord_code (by decide)]
    rfl
  · intro htgt hst e
    have hexec := readAnswered_ptData hread (ptRead_element hinc htgt hst)
    refine ⟨_, (exec_ptDataRead m s).trans (congrArg _ hexec), State.answered_regAnswer _ _ _, ?_, ?_,
      sameRegsBut_answered _ _ (ptRecord_sameRegsBut s _ _), ptRecord_answered_frame s _ _ _ _⟩
    · rw [State.reg_answered, ptRecord_code (by decide)]
      rfl
    · rw [State.reg_answered, ptRecord_poison (by decide)]
      exact bne_iff_ne
  · intro htgt hst
    have hexec := writeAnswered_ptData hwrite (ptWrite_element hinc htgt hst v)
    obtain ⟨hput, hothers, hregs, htiles, hmem⟩ := ptRecord_putElement_spec s (ptTile s) (ptElem s) v
    refine ⟨_, (exec_ptDataWrite m v s).trans (congrArg _ hexec), State.answered_regAnswer _ _ _, ?_, ?_,
      sameRegsBut_answered _ _ hregs, sameTilesBut_answered _ _ htiles, sameMemory_answered _ _ hmem⟩
    · rwa [State.vec_answered]
    · rwa [State.vec_answered]

end Sys2Proof.Machine

/-! PROOFS. O3 and O4: every operation of the model keeps the three memories canonical, because it leaves them alone
or writes them with `memWrite`; and a command faults only in `State.onTile`. -/

namespace Sys2Proof.Machine

/-! ### The three memories of a state -/

/-- The contents of spaces 0, 1 and 2 (R39, R41). -/
structure Memories where
  spad : List Host.Cell
  hbm : List Host.Cell
  ddr : List Host.Cell

/-- The memories that a state holds. -/
def State.mems : State → Memories
  | { spad, hbm, ddr, .. } => ⟨spad, hbm, ddr⟩

/-- The canonical form of the memories. -/
def Memories.Wf (m : Memories) : Prop := Memory.wf m.spad = true ∧ Memory.wf m.hbm = true ∧ Memory.wf m.ddr = true

theorem memoriesWf_iff (s : State) : memoriesWf s ↔ s.mems.Wf := Iff.rfl

@[simp] theorem mems_eta (s : State) : Memories.mk s.spad s.hbm s.ddr = s.mems := rfl

/-- A state written out field by field, as an update of fields gives it, holds the memories of its three fields. -/
@[simp] theorem mems_mk : type_of% @State.mems.eq_1 := State.mems.eq_1

theorem mems_of_fields {s s' : State} (hspad : s'.spad = s.spad) (hhbm : s'.hbm = s.hbm) (hddr : s'.ddr = s.ddr) :
    s'.mems = s.mems := by
  rw [← mems_eta, ← mems_eta, hspad, hhbm, hddr]

@[simp] theorem mems_ite (c : Prop) [Decidable c] (s s' : State) :
    (if c then s else s').mems = if c then s.mems else s'.mems := apply_ite ..

@[simp] theorem mems_fst_ite {α : Type} (c : Prop) [Decidable c] (x y : State × α) :
    (if c then x else y).1.mems = if c then x.1.mems else y.1.mems := apply_ite (fun x : State × α => x.1.mems) ..

@[simp] theorem mems_snd_ite {α : Type} (c : Prop) [Decidable c] (x y : α × State) :
    (if c then x else y).2.mems = if c then x.2.mems else y.2.mems := apply_ite (fun x : α × State => x.2.mems) ..

theorem mems_fst_mk {α : Type} (s : State) (a : α) : (s, a).1.mems = s.mems := rfl

theorem mems_fst_of_eq {α : Type} {x : State × α} {s s' : State} {a : α} (hx : x = (s', a))
    (h : x.1.mems = s.mems) : s'.mems = s.mems := by
  rw [← h, hx]

theorem mems_snd_of_eq {α : Type} {x : α × State} {s s' : State} {a : α} (hx : x = (a, s'))
    (h : x.2.mems = s.mems) : s'.mems = s.mems := by
  rw [← h, hx]

@[simp] theorem mems_foldl {β : Type} {f : State → β → State} (h : ∀ s b, (f s b).mems = s.mems) (l : List β)
    (s : State) : (l.foldl f s).mems = s.mems := by
  induction l generalizing s with
  | nil => rfl
  | cons x xs ih => rw [List.foldl_cons, ih, h]

@[simp] theorem mems_foldl_fst {α β : Type} {f : State × α → β → State × α} (h : ∀ s b, (f s b).1.mems = s.1.mems)
    (l : List β) (s : State × α) : (l.foldl f s).1.mems = s.1.mems := by
  induction l generalizing s with
  | nil => rfl
  | cons x xs ih => rw [List.foldl_cons, ih, h]

/-! ## Operations that leave the memories alone

Each lemma rests on those of the operations that its function calls, in the order of the model's files. -/

section
variable (s : State)

/-! ### Shared operations -/

@[simp] theorem mems_setReg (off : Nat) (v : BitVec 32) :
    (s.setReg off v).mems = s.mems := mems_of_fields rfl rfl rfl

@[simp] theorem mems_orReg (off : Nat) (v : BitVec 32) : (s.orReg off v).mems = s.mems := by simp [State.orReg]

@[simp] theorem mems_setRegFld (off lo w x : Nat) : (s.setRegFld off lo w x).mems = s.mems := by
  simp [State.setRegFld]

@[simp] theorem mems_addReg (off n : Nat) : (s.addReg off n).mems = s.mems := mems_of_fields rfl rfl rfl

@[simp] theorem mems_incReg (off : Nat) : (s.incReg off).mems = s.mems := by simp [State.incReg]

@[simp] theorem mems_setReg64 (lo : Nat) (v : BitVec 64) :
    (s.setReg64 lo v).mems = s.mems := by simp [State.setReg64]

@[simp] theorem mems_clearRegs (p : Nat → Bool) : (s.clearRegs p).mems = s.mems := mems_of_fields rfl rfl rfl

@[simp] theorem mems_free : (s.free).2.mems = s.mems := mems_of_fields rfl rfl rfl

@[simp] theorem mems_setTile (t : Nat) (x : Tile) : (s.setTile t x).mems = s.mems := by simp [State.setTile]

@[simp] theorem mems_modTile (t : Nat) (f : Tile → Tile) : (s.modTile t f).mems = s.mems := by simp [State.modTile]

@[simp] theorem mems_recordFault (e : GEvent) : (recordFault s e).mems = s.mems := by simp [recordFault]

@[simp] theorem mems_localCount (e : GEvent) : (localCount s e).mems = s.mems := by
  unfold localCount
  split <;> simp

@[simp] theorem mems_raiseFrame (e : GEvent) : (s.raiseFrame e).mems = s.mems := by simp [State.raiseFrame]

@[simp] theorem mems_raiseClosed (e : GEvent) : (s.raiseClosed e).mems = s.mems := by simp [State.raiseClosed]

@[simp] theorem mems_raise (e : GEvent) : (s.raise e).mems = s.mems := by simp [State.raise]

@[simp] theorem mems_raiseTile (t : Nat) (k : EvKind) (detail : Nat) : (s.raiseTile t k detail).mems = s.mems := by
  simp [State.raiseTile]

@[simp] theorem mems_raiseRegion (r : Nat) (k : EvKind) (detail : Nat) :
    (s.raiseRegion r k detail).mems = s.mems := by
  simp [State.raiseRegion]

@[simp] theorem mems_raiseCause (t : Nat) (c : Cause) :
    (s.raiseCause t c).mems = s.mems := by simp [State.raiseCause]

@[simp] theorem mems_hazardReport (t : Nat) (h : Hazard) : (hazardReport s t h).mems = s.mems := by
  simp [hazardReport]

@[simp] theorem mems_hazard (t : Nat) (h : Hazard) : (s.hazard t h).mems = s.mems := by simp [State.hazard]

@[simp] theorem mems_breakPromise (t : Nat) (h : Hazard) : (s.breakPromise t h).mems = s.mems := by
  simp [State.breakPromise]

@[simp] theorem mems_produce (t v : Nat) : (s.produce t v).2.mems = s.mems := by simp [State.produce]

@[simp] theorem mems_takePort (t cyc bank : Nat) (feed : Bool) : (s.takePort t cyc bank feed).mems = s.mems := by
  simp [State.takePort]

@[simp] theorem mems_takePorts (t cyc off len : Nat) : (s.takePorts t cyc off len).mems = s.mems := by
  simp [State.takePorts]

@[simp] theorem mems_queueWriteBack (t word : Nat) : (queueWriteBack s t word).mems = s.mems := by
  simp [queueWriteBack]

@[simp] theorem mems_spadWordErr (t word : Nat) : (spadWordErr s t word).1.mems = s.mems := by
  simp only [spadWordErr]
  split <;> simp

@[simp] theorem mems_spadRead (t off n : Nat) : (s.spadRead t off n).1.mems = s.mems := by simp [State.spadRead]

@[simp] theorem mems_tapLine (t line : Nat) : (tapLine s t line).mems = s.mems := by
  unfold tapLine
  split <;> simp

@[simp] theorem mems_setSem (t n v : Nat) : (s.setSem t n v).mems = s.mems := by simp [State.setSem]

@[simp] theorem mems_signalSem (t n inc : Nat) : (s.signalSem t n inc).mems = s.mems := by simp [State.signalSem]

@[simp] theorem mems_takeSem (t n : Nat) : (s.takeSem t n).mems = s.mems := by simp [State.takeSem]

@[simp] theorem mems_setDsem (n v : Nat) : (s.setDsem n v).mems = s.mems := by simp [State.setDsem]

@[simp] theorem mems_signalDsem (n inc : Nat) : (s.signalDsem n inc).mems = s.mems := by simp [State.signalDsem]

/-! ### The control slot -/

@[simp] theorem mems_modCtl (t : Nat) (f : Ctl → Ctl) : (s.modCtl t f).mems = s.mems := by simp [State.modCtl]

@[simp] theorem mems_flowBreak (t : Nat) : (flowBreak s t).mems = s.mems := by simp [flowBreak]

@[simp] theorem mems_kset (t k : Nat) (imm : BitVec 16) : (kset s t k imm).mems = s.mems := by simp [kset]

@[simp] theorem mems_rep (t k len : Nat) : (rep s t k len).mems = s.mems := by simp [rep]

@[simp] theorem mems_jump (t : Nat) (target : BitVec 11) : (jump s t target).mems = s.mems := by simp [jump]

@[simp] theorem mems_jmp (t : Nat) (target : BitVec 11) : (jmp s t target).mems = s.mems := by simp [jmp]

@[simp] theorem mems_jq (t q : Nat) (target : BitVec 11) : (jq s t q target).mems = s.mems := by simp [jq]

@[simp] theorem mems_qcmp (t q k rel : Nat) (imm : BitVec 16) :
    (qcmp s t q k rel imm).mems = s.mems := by simp [qcmp]

@[simp] theorem mems_endProgram (t : Nat) : (endProgram s t).mems = s.mems := by simp [endProgram]

@[simp] theorem mems_repIterationEnd (t : Nat) : (repIterationEnd s t).mems = s.mems := by simp [repIterationEnd]

@[simp] theorem mems_badBundle (t : Nat) : (badBundle s t).mems = s.mems := by simp [badBundle]

/-! ### Operands -/

@[simp] theorem mems_setChan (t c : Nat) (x : Channel) : (s.setChan t c x).mems = s.mems := by simp [State.setChan]

@[simp] theorem mems_draws (t k : Nat) (base : BitVec 64) (e0 elems n : Nat) :
    (s.draws t k base e0 elems n).2.mems = s.mems := by simp [State.draws]

@[simp] theorem mems_spadHazard (t off len : Nat) : (spadHazard s t off len).mems = s.mems := by
  unfold spadHazard
  repeat' split
  all_goals simp

/-! ### The matrix unit -/

@[simp] theorem mems_setArray (t a : Nat) (x : MxArray) :
    (s.setArray t a x).mems = s.mems := by simp [State.setArray]

@[simp] theorem mems_setPass (t i : Nat) (p : Pass) : (s.setPass t i p).mems = s.mems := by simp [State.setPass]

@[simp] theorem mems_raiseArrayCause (t a : Nat) (p : Pass) (c : Cause) :
    (raiseArrayCause s t a p c).1.mems = s.mems := by simp [raiseArrayCause]

@[simp] theorem mems_loadBlock (t a : Nat) (p : Pass) : (loadBlock s t a p).1.mems = s.mems := by simp [loadBlock]

@[simp] theorem mems_raiseStream (t c code elem : Nat) : (raiseStream s t c code elem).mems = s.mems := by
  simp [raiseStream]

@[simp] theorem mems_drawFeed (t : Nat) (p : Pass) : (drawFeed s t p).1.mems = s.mems := by
  simp only [drawFeed]
  split <;> simp

@[simp] theorem mems_passStart (t d : Nat) : (passStart s t d).mems = s.mems := by
  unfold passStart
  extract_lets x busy s1 words s2 p0
  have h2 : s2.mems = s.mems := by simp [s2, s1]
  clear_value s2
  split
  next s3 start fd hx =>
  have h3 : s3.mems = s.mems := mems_fst_of_eq hx (by simp [h2])
  extract_lets p s4 fmt
  have h4 : s4.mems = s.mems := by simp [s4, h3]
  clear_value s4 p fmt
  split
  next s5 blocks hx5 =>
  have h5 : s5.mems = s4.mems := by
    refine mems_fst_of_eq hx5 (mems_foldl_fst (fun acc a => ?_) ..)
    obtain ⟨s, m⟩ := acc
    simp only [mems_fst_ite]
    split
    · split <;> simp
    · simp
  rw [mems_modTile, h5, h4]

@[simp] theorem mems_feedRows (t : Nat) (p : Pass) (n : Nat) : (feedRows s t p n).1.mems = s.mems := by
  unfold feedRows
  split <;> simp

@[simp] theorem mems_sendRows (t : Nat) (p : Pass) (n : Nat) (rw : RowWord) :
    (sendRows s t p n rw).mems = s.mems := by
  unfold sendRows
  split <;> simp

@[simp] theorem mems_passStepAt (t i : Nat) (p : Pass) : (passStepAt s t i p).mems = s.mems := by
  simp only [passStepAt]
  repeat' split
  all_goals simp

@[simp] theorem mems_passStep (t : Nat) : (passStep s t).mems = s.mems := by
  unfold passStep
  split <;> simp

@[simp] theorem mems_accLoad (t : Nat) (p : Pass) : (accLoad s t p).1.mems = s.mems := by simp [accLoad]

@[simp] theorem mems_loadColumn (t a : Nat) (acc : State × Pass × MxArray × Int) (j : Nat) :
    (loadColumn t a acc j).1.mems = acc.1.mems := by
  rw [loadColumn, mems_fst_mk, mems_foldl_fst fun e c => mems_raiseArrayCause e.1 t a e.2 c]

@[simp] theorem mems_startAccs (t a : Nat) (p : Pass) : (startAccs s t a p).1.mems = s.mems := by
  unfold startAccs
  extract_lets m m' acc
  have hacc : acc.1.mems = s.mems := mems_foldl_fst (fun e j => mems_loadColumn t a e j) _ _
  clear_value acc
  split
  · exact mems_setArray ..
  · split
    · exact (mems_setArray ..).trans hacc
    · rfl

@[simp] theorem mems_updateArray (t a : Nat) (p : Pass) (st : StepSums) :
    (updateArray s t a p st).1.mems = s.mems := by
  simp [updateArray]

@[simp] theorem mems_scrambleArray (t a : Nat) : (scrambleArray s t a).mems = s.mems := by simp [scrambleArray]

@[simp] theorem mems_accumulateAt (t i : Nat) (p : Pass) (st : StepSums) :
    (accumulateAt s t i p st).mems = s.mems := by
  simp [accumulateAt]

@[simp] theorem mems_accumulate (t : Nat) : (accumulate s t).mems = s.mems := by
  unfold accumulate
  repeat' split
  all_goals simp

@[simp] theorem mems_poisonArray (t a : Nat) (p : Pass) : (poisonArray s t a p).1.mems = s.mems := by
  simp [poisonArray]

@[simp] theorem mems_compareArray (t a : Nat) (p : Pass) : (compareArray s t a p).1.mems = s.mems := by
  simp only [compareArray]
  split <;> simp

@[simp] theorem mems_compareAt (t i : Nat) (p : Pass) : (compareAt s t i p).mems = s.mems := by simp [compareAt]

@[simp] theorem mems_checksumCompare (t : Nat) : (checksumCompare s t).mems = s.mems := by
  unfold checksumCompare
  split <;> simp

@[simp] theorem mems_combineAt (t i : Nat) (p : Pass) : (combineAt s t i p).mems = s.mems := by simp [combineAt]

@[simp] theorem mems_bf16CombineStep (t : Nat) : (bf16CombineStep s t).mems = s.mems := by
  unfold bf16CombineStep
  split <;> simp

@[simp] theorem mems_drainColumn (t a : Nat) (p : Pass) (j : Nat) : (drainColumn s t a p j).1.mems = s.mems := by
  simp [drainColumn]

@[simp] theorem mems_drainQueue (t : Nat) (p : Pass) : (drainQueue s t p).1.mems = s.mems := by simp [drainQueue]

@[simp] theorem mems_dropPasses (t : Nat) : (dropPasses s t).mems = s.mems := by simp [dropPasses]

@[simp] theorem mems_fallLags (t : Nat) : (fallLags s t).mems = s.mems := by simp [fallLags]

/-! ### Clocks and temperature -/

@[simp] theorem mems_slew (mv : Nat) : (s.slew mv).mems = s.mems := mems_of_fields rfl rfl rfl

@[simp] theorem mems_modRegion (r : Nat) (f : ClkRegion → ClkRegion) : (s.modRegion r f).mems = s.mems :=
  mems_of_fields rfl rfl rfl

@[simp] theorem mems_noteWork (r cyc : Nat) : (s.noteWork r cyc).mems = s.mems := mems_of_fields rfl rfl rfl

@[simp] theorem mems_holdCharge (r ps : Nat) : (holdCharge s r ps).mems = s.mems := by simp [holdCharge]

@[simp] theorem mems_stretchCharge (r : Nat) (ps : Frac) : (stretchCharge s r ps).mems = s.mems :=
  mems_of_fields rfl rfl rfl

@[simp] theorem mems_crossingHold (r ps : Nat) : (crossingHold s r ps).mems = s.mems := by simp [crossingHold]

@[simp] theorem mems_crossSlip (r sender cyc : Nat) :
    (crossSlip s r sender cyc).mems = s.mems := by simp [crossSlip]

@[simp] theorem mems_droopStretch (r cyc mv ps : Nat) : (droopStretch s r cyc mv ps).mems = s.mems := by
  simp [droopStretch]

@[simp] theorem mems_clkDroop (r cyc mv : Nat) : (clkDroop s r cyc mv).mems = s.mems := by simp [clkDroop]

@[simp] theorem mems_clkMon (r kind dev cyc : Nat) : (clkMon s r kind dev cyc).mems = s.mems := by simp [clkMon]

@[simp] theorem mems_throttleCharge (cyc : Nat) : (throttleCharge s cyc).mems = s.mems := by simp [throttleCharge]

@[simp] theorem mems_thermalReport (r : Nat) (temp : BitVec 16) (cyc : Nat) :
    (thermalReport s r temp cyc).mems = s.mems := by
  simp only [thermalReport]
  repeat' split
  all_goals simp

@[simp] theorem mems_publishF (armed : Option Nat) : (publishF s armed).mems = s.mems := by simp [publishF]

/-! ### Spaces 0 to 2 -/

@[simp] theorem mems_hbmLineErr (line : Nat) : (hbmLineErr s line).1.mems = s.mems := by
  unfold hbmLineErr
  split <;> simp

@[simp] theorem mems_ddrLineErr (line : Nat) : (ddrLineErr s line).1.mems = s.mems := by
  unfold ddrLineErr
  split <;> simp

@[simp] theorem mems_spaceRead (space off n : Nat) : (s.spaceRead space off n).1.mems = s.mems := by
  unfold State.spaceRead
  split <;> simp

@[simp] theorem mems_localRead (copies : SMap Bool) (a n : Nat) : (s.localRead copies a n).1.mems = s.mems := by
  simp [State.localRead]

/-! ### The network interface as a source -/

@[simp] theorem mems_bePath (f m : Nat) : (s.bePath f m).1.mems = s.mems := by simp [State.bePath]

@[simp] theorem mems_fabTimeout (region xfer : Nat) : (s.fabTimeout region xfer).mems = s.mems := by
  simp [State.fabTimeout]

@[simp] theorem mems_modLink (l : Nat) (f : Link → Link) :
    (s.modLink l f).mems = s.mems := mems_of_fields rfl rfl rfl

@[simp] theorem mems_emit (l : Nat) (p : Packet) : (s.emit l p).mems = s.mems := by simp [State.emit]

@[simp] theorem mems_discard : (s.discard).mems = s.mems := by simp [State.discard]

@[simp] theorem mems_bePacket (f m : Nat) (p : Packet) : (s.bePacket f m p).mems = s.mems := by
  unfold State.bePacket
  split
  · next hx => exact (mems_emit ..).trans (mems_fst_of_eq hx (mems_bePath ..))
  · next hx => exact (mems_discard _).trans (mems_fst_of_eq hx (mems_bePath ..))

@[simp] theorem mems_beSend (e : NetEntry) : (s.beSend e).mems = s.mems := by
  simp only [State.beSend]
  split <;> simp

@[simp] theorem mems_beIssue (e : NetEntry) (tid : Nat) : (s.beIssue e tid).mems = s.mems := by simp [State.beIssue]

@[simp] theorem mems_issue (source : ReqSource) (p : Packet) : (s.issue source p).1.mems = s.mems := by
  simp only [State.issue]
  repeat' split
  all_goals simp

@[simp] theorem mems_tidFreeSend : (tidFreeSend s).mems = s.mems := by
  unfold tidFreeSend
  split <;> simp

@[simp] theorem mems_dropEntry (tid : Nat) : (s.dropEntry tid).mems = s.mems := by simp [State.dropEntry]

/-! ### Streams -/

@[simp] theorem mems_fenceDone (t : Nat) (op : FenceOp) : (fenceDone s t op).mems = s.mems :=
  mems_of_fields rfl rfl rfl

@[simp] theorem mems_retireRun (t c : Nat) (r : StreamRun) (e : Nat) : (retireRun s t c r e).mems = s.mems := by
  simp [retireRun]

@[simp] theorem mems_streamComplete (t c : Nat) : (streamComplete s t c).mems = s.mems := by
  unfold streamComplete
  repeat' split
  all_goals simp

@[simp] theorem mems_streamStart (t c d sop sem : Nat) (semEn : Bool) :
    (streamStart s t c d sop sem semEn).mems = s.mems := by
  unfold streamStart
  repeat' split
  all_goals simp

@[simp] theorem mems_streamHalt (t c : Nat) : (streamHalt s t c).mems = s.mems := by
  simp only [streamHalt]
  split <;> simp

@[simp] theorem mems_lineRequest (t c : Nat) (r : StreamRun) (i far : Nat) :
    (lineRequest s t c r i far).1.mems = s.mems := by simp [lineRequest]

@[simp] theorem mems_runRequest (t c : Nat) (r : StreamRun) : (runRequest s t c r).1.mems = s.mems := by
  simp only [runRequest]
  repeat' split
  all_goals simp

@[simp] theorem mems_runIndexRead (t : Nat) (r : StreamRun) : (runIndexRead s t r).1.mems = s.mems := by
  simp only [runIndexRead]
  repeat' split
  all_goals simp

@[simp] theorem mems_streamCycle (t c : Nat) : (streamCycle s t c).mems = s.mems := by
  unfold streamCycle
  split <;> simp

@[simp] theorem mems_runFault (t c : Nat) (r : StreamRun) (code elem : Nat) :
    (runFault s t c r code elem).1.mems = s.mems := by simp [runFault]

@[simp] theorem mems_notePoison (t c : Nat) (cs : List Cause) : (notePoison s t c cs).mems = s.mems := by
  simp [notePoison]

@[simp] theorem mems_afterReply (t c : Nat) (r : StreamRun) (e : StreamElem) :
    (afterReply s t c r e).mems = s.mems := by
  simp [afterReply]

@[simp] theorem mems_rowArrival (t : Nat) : (rowArrival s t).mems = s.mems := by simp [rowArrival]

@[simp] theorem mems_streamOp (t sop ch desc sem ind : Nat) (semEn : Bool) :
    (streamOp s t sop ch desc sem ind semEn).mems = s.mems := by simp [streamOp]

/-! ### Messages -/

@[simp] theorem mems_answerMsg (sender : MsgFrom) (m : Msg) (code : Nat) :
    (answerMsg s sender m code).mems = s.mems := by
  simp only [answerMsg]
  repeat' split
  all_goals simp

@[simp] theorem mems_inboxOffer (t : Nat) (m : Msg) : (inboxOffer s t m).1.mems = s.mems := by
  unfold inboxOffer
  split <;> simp

@[simp] theorem mems_nackFault (t code : Nat) : (nackFault s t code).mems = s.mems := by simp [nackFault]

@[simp] theorem mems_slotNack (t : Nat) (o : Outstanding) (code : Nat) : (slotNack s t o code).mems = s.mems := by
  unfold slotNack
  split <;> simp

@[simp] theorem mems_slotAnswer (t id code : Nat) : (slotAnswer s t id code).mems = s.mems := by
  unfold slotAnswer
  split <;> simp

@[simp] theorem mems_muleSendAnswer (t code : Nat) : (muleSendAnswer s t code).mems = s.mems := by
  simp [muleSendAnswer]

@[simp] theorem mems_messageAnswered (source : ReqSource) (code : Nat) :
    (messageAnswered s source code).mems = s.mems := by
  unfold messageAnswered
  split <;> simp

@[simp] theorem mems_messageAnswer : (messageAnswer s).mems = s.mems := by
  unfold messageAnswer
  split <;> simp

@[simp] theorem mems_sendMsg (source : ReqSource) (now xfer : Nat) (m : Msg) :
    (sendMsg s source now xfer m).mems = s.mems := by
  unfold sendMsg
  split
  · simp
  · extract_lets p
    split
    · next hx => exact (mems_messageAnswered ..).trans (mems_fst_of_eq hx (mems_issue ..))
    · next hx => exact mems_fst_of_eq hx (mems_issue ..)

@[simp] theorem mems_slotSend (t tpl : Nat) (ord : Bool) (payload : BitVec 64) :
    (slotSend s t tpl ord payload).mems = s.mems := by simp [slotSend]

@[simp] theorem mems_fenceReleaseSend (t : Nat) : (fenceReleaseSend s t).mems = s.mems := by
  unfold fenceReleaseSend
  split <;> simp

@[simp] theorem mems_msend (t tpl paddr : Nat) (ord : Bool) (ind step : Nat) :
    (msend s t tpl paddr ord ind step).mems = s.mems := by simp [msend]

@[simp] theorem mems_msig (t tpl inc : Nat) (ord : Bool) : (msig s t tpl inc ord).mems = s.mems := by simp [msig]

@[simp] theorem mems_mfence (t f : Nat) : (mfence s t f).mems = s.mems := by simp [mfence]

@[simp] theorem mems_applySigs (t n : Nat) (open_ : Bool) : (applySigs s t n open_).mems = s.mems := by
  simp [applySigs]

@[simp] theorem mems_applyDsigs (n : Nat) : (applyDsigs s n).mems = s.mems := by simp [applyDsigs]

@[simp] theorem mems_signalTarget (target inc : Nat) : (signalTarget s target inc).mems = s.mems := by
  simp [signalTarget]

@[simp] theorem mems_cpTake (t n : Nat) : (cpTake s t n).mems = s.mems := by simp [cpTake]

@[simp] theorem mems_cpSem (t op n : Nat) : (cpSem s t op n).mems = s.mems := by
  unfold cpSem
  split <;> simp

/-! ### The address-generator engines -/

@[simp] theorem mems_modEngine (n : Nat) (f : Agp → Agp) : (s.modEngine n f).mems = s.mems :=
  mems_of_fields rfl rfl rfl

@[simp] theorem mems_setAgpA (n r v : Nat) : (s.setAgpA n r v).mems = s.mems := by simp [State.setAgpA]

@[simp] theorem mems_agpIterEnd (reps : List RepBlock) (a n : Nat) : (agpIterEnd reps a n s).mems = s.mems := by
  induction reps generalizing s with
  | nil => simp [agpIterEnd]
  | cons b rest ih => simp [agpIterEnd, ih]

@[simp] theorem mems_agpNext (n : Nat) : (agpNext s n).mems = s.mems := by simp [agpNext]

@[simp] theorem mems_agpBreak (n : Nat) : (agpBreak s n).mems = s.mems := mems_of_fields rfl rfl rfl

@[simp] theorem mems_agpHold (n : Nat) : (agpHold s n).mems = s.mems := by simp [agpHold]

@[simp] theorem mems_agpFault (n code pc addr : Nat) :
    (agpFault s n code pc addr).mems = s.mems := by simp [agpFault]

@[simp] theorem mems_agpStatusCode (st : Nat) : (agpStatusCode s st).1.mems = s.mems := by simp [agpStatusCode]

@[simp] theorem mems_modCopy (n k : Nat) (f : AgpCopy → AgpCopy) : (s.modCopy n k f).mems = s.mems := by
  simp [State.modCopy]

@[simp] theorem mems_modPiece (n k off : Nat) (f : AgpPiece → AgpPiece) : (s.modPiece n k off f).mems = s.mems := by
  simp [State.modPiece]

@[simp] theorem mems_agpFail (n : Nat) (c : AgpCopy) (addr st : Nat) : (agpFail s n c addr st).mems = s.mems := by
  simp [agpFail]

@[simp] theorem mems_agpWritten (n k : Nat) (c : AgpCopy) (p : AgpPiece) :
    (agpWritten s n k c p).mems = s.mems := by
  simp [agpWritten]

@[simp] theorem mems_agpWriteAck (n k off st : Nat) : (agpWriteAck s n k off st).mems = s.mems := by
  unfold agpWriteAck
  repeat' split
  all_goals simp

@[simp] theorem mems_agpSendSignals (n : Nat) : (agpSendSignals s n).mems = s.mems := by simp [agpSendSignals]

@[simp] theorem mems_agpFinish (n k : Nat) : (agpFinish s n k).mems = s.mems := by
  unfold agpFinish
  repeat' split
  all_goals simp

@[simp] theorem mems_agpRep (n c len : Nat) : (agpRep s n c len).mems = s.mems := by simp [agpRep]

@[simp] theorem mems_agpSetc (n c : Nat) (v : BitVec 32) : (agpSetc s n c v).mems = s.mems := by
  simp only [agpSetc]
  split <;> simp

@[simp] theorem mems_agpWait (n d : Nat) : (agpWait s n d).mems = s.mems := by simp [agpWait]

@[simp] theorem mems_agpSig (n target inc : Nat) : (agpSig s n target inc).mems = s.mems := by simp [agpSig]

@[simp] theorem mems_agpFence (n : Nat) : (agpFence s n).mems = s.mems := by simp [agpFence]

@[simp] theorem mems_agpHalt (n : Nat) : (agpHalt s n).mems = s.mems := by simp [agpHalt]

@[simp] theorem mems_agpStart (n : Nat) : (agpStart s n).mems = s.mems := by simp [agpStart]

@[simp] theorem mems_agpStop (n : Nat) : (agpStop s n).mems = s.mems := by simp [agpStop]

@[simp] theorem mems_agpResume (n : Nat) : (agpResume s n).mems = s.mems := by simp [agpResume]

@[simp] theorem mems_agpControl (n : Nat) (v : BitVec 32) : (agpControl s n v).mems = s.mems := by simp [agpControl]

/-! ### The vector engine -/

@[simp] theorem mems_modVec (t : Nat) (f : Vec → Vec) : (s.modVec t f).mems = s.mems := by simp [State.modVec]

@[simp] theorem mems_modRun (t : Nat) (f : VecRun → VecRun) : (s.modRun t f).mems = s.mems := by simp [State.modRun]

@[simp] theorem mems_raiseVec (t : Nat) (c : Cause) : (raiseVec s t c).mems = s.mems := by simp [raiseVec]

@[simp] theorem mems_vecErr (t : Nat) (e : EccErr) : (vecErr s t e).1.mems = s.mems := by
  unfold vecErr
  split <;> simp

@[simp] theorem mems_meetErrs (t : Nat) (errs : SMap EccErr) (base : Nat) :
    (meetErrs s t errs base).1.mems = s.mems := by simp [meetErrs]

@[simp] theorem mems_readTreg (t reg row : Nat) : (readTreg s t reg row).1.mems = s.mems := by simp [readTreg]

@[simp] theorem mems_readOcache (t row : Nat) : (readOcache s t row).1.mems = s.mems := by simp [readOcache]

@[simp] theorem mems_readHazard (t : Nat) (f : Pending → Bool) : (readHazard s t f).mems = s.mems := by
  unfold readHazard
  split <;> simp

@[simp] theorem mems_produceLanded (t : Nat) (w : Landed) : (produceLanded s t w).1.mems = s.mems := by
  simp [produceLanded]

@[simp] theorem mems_enqueue (t due issued : Nat) (w : Landed) : (enqueue s t due issued w).mems = s.mems := by
  simp only [enqueue]
  split <;> simp

@[simp] theorem mems_keepOwn (t : Nat) (p : Pending) (reg row : Nat) : (keepOwn s t p reg row).mems = s.mems := by
  simp only [keepOwn]
  repeat' split
  all_goals simp

@[simp] theorem mems_readVals (t reg row view : Nat) : (readVals s t reg row view).1.mems = s.mems := by
  simp [readVals]

@[simp] theorem mems_readCacheVals (t row view : Nat) : (readCacheVals s t row view).1.mems = s.mems := by
  simp [readCacheVals]

@[simp] theorem mems_readB (t : Nat) (v : VecSlot) (i : Nat) : (readB s t v i).1.mems = s.mems := by
  unfold readB
  split <;> simp

@[simp] theorem mems_vecDraws (t : Nat) (r : VecRun) (e0 n : Nat) : (vecDraws s t r e0 n).2.mems = s.mems := by
  simp [vecDraws]

@[simp] theorem mems_elemwiseRow (t : Nat) (r : VecRun) (lat : Nat) : (elemwiseRow s t r lat).mems = s.mems := by
  simp [elemwiseRow]

@[simp] theorem mems_rngRow (t : Nat) (r : VecRun) (lat : Nat) :
    (rngRow s t r lat).mems = s.mems := by simp [rngRow]

@[simp] theorem mems_redRow (t : Nat) (r : VecRun) (lat : Nat) :
    (redRow s t r lat).mems = s.mems := by simp [redRow]

@[simp] theorem mems_scanRow (t : Nat) (r : VecRun) (lat : Nat) : (scanRow s t r lat).mems = s.mems := by
  simp [scanRow]

@[simp] theorem mems_segredRow (t : Nat) (r : VecRun) (lat : Nat) : (segredRow s t r lat).mems = s.mems := by
  simp [segredRow]

@[simp] theorem mems_readOwn (t : Nat) (r : VecRun) (reg row view : Nat) :
    (readOwn s t r reg row view).1.mems = s.mems := by
  unfold readOwn
  split <;> simp

@[simp] theorem mems_sortRow (t : Nat) (r : VecRun) (lat : Nat) : (sortRow s t r lat).mems = s.mems := by
  simp [sortRow]

@[simp] theorem mems_wideElem (t : Nat) (rnd : Rnd) (draw : Nat) (w : Wide) :
    (wideElem s t rnd draw w).1.mems = s.mems := by simp [wideElem]

@[simp] theorem mems_wideElems (t : Nat) (rnd : Rnd) (ds : List Nat) (ws : List Wide) :
    (wideElems s t rnd ds ws).1.mems = s.mems := by simp [wideElems]

@[simp] theorem mems_readCacheRows (t row n : Nat) : (readCacheRows s t row n).1.mems = s.mems := by
  simp [readCacheRows]

@[simp] theorem mems_popQueue (t : Nat) : (popQueue s t).1.mems = s.mems := by
  unfold popQueue
  split <;> simp

@[simp] theorem mems_popRow (t : Nat) (r : VecRun) (lat : Nat) : (popRow s t r lat).mems = s.mems := by
  simp only [popRow]
  repeat' split
  all_goals simp

@[simp] theorem mems_freeWides : (freeWides s).1.mems = s.mems := mems_of_fields rfl rfl rfl

@[simp] theorem mems_wideAddRow (t : Nat) (r : VecRun) (lat : Nat) : (wideAddRow s t r lat).mems = s.mems := by
  unfold wideAddRow
  repeat' split
  all_goals simp

@[simp] theorem mems_loadRow (t : Nat) (r : VecRun) (lat : Nat) : (loadRow s t r lat).mems = s.mems := by
  simp [loadRow]

@[simp] theorem mems_storeRow (t : Nat) (r : VecRun) (lat : Nat) : (storeRow s t r lat).mems = s.mems := by
  simp [storeRow]

@[simp] theorem mems_cacheLoadRow (t : Nat) (r : VecRun) (lat : Nat) : (cacheLoadRow s t r lat).mems = s.mems := by
  simp [cacheLoadRow]

@[simp] theorem mems_cacheStoreRow (t : Nat) (r : VecRun) (lat : Nat) :
    (cacheStoreRow s t r lat).mems = s.mems := by
  simp [cacheStoreRow]

@[simp] theorem mems_vecRowOf (t : Nat) (r : VecRun) : (vecRowOf s t r).mems = s.mems := by
  unfold vecRowOf
  repeat' split
  all_goals simp

@[simp] theorem mems_vecRow (t : Nat) : (vecRow s t).mems = s.mems := by
  unfold vecRow
  split <;> simp

@[simp] theorem mems_vecStart (t vop : Nat) (v : VecSlot) (ind : Nat) : (vecStart s t vop v ind).mems = s.mems := by
  simp [vecStart]

@[simp] theorem mems_vecIssue (t vop : Nat) (v : VecSlot) : (vecIssue s t vop v).mems = s.mems := by simp [vecIssue]

/-! ### Bundles -/

@[simp] theorem mems_fetchBundle (t : Nat) : (fetchBundle s t).1.mems = s.mems := by
  simp only [fetchBundle]
  repeat' split
  all_goals simp

@[simp] theorem mems_matrixSlot (t : Nat) (c : Ctl) (b : Bundle) : (matrixSlot s t c b).mems = s.mems := by
  simp [matrixSlot]

@[simp] theorem mems_vectorSlot (t : Nat) (c : Ctl) (b : Bundle) : (vectorSlot s t c b).mems = s.mems := by
  simp [vectorSlot]

@[simp] theorem mems_streamSlot (t : Nat) (c : Ctl) (b : Bundle) : (streamSlot s t c b).mems = s.mems := by
  simp [streamSlot]

@[simp] theorem mems_messageSlot (t : Nat) (c : Ctl) (b : Bundle) : (messageSlot s t c b).mems = s.mems := by
  unfold messageSlot
  repeat' split
  all_goals simp

@[simp] theorem mems_advance (t : Nat) : (advance s t).mems = s.mems := by simp [advance]

@[simp] theorem mems_controlSlot (t : Nat) (b : Bundle) : (controlSlot s t b).mems = s.mems := by
  unfold controlSlot
  split <;> simp

@[simp] theorem mems_endCycle (t : Nat) (pc : BitVec 11) : (endCycle s t pc).mems = s.mems := by simp [endCycle]

/-! ### Collectives -/

@[simp] theorem mems_colRead (a n : Nat) : (colRead s a n).1.mems = s.mems := by simp [colRead]

@[simp] theorem mems_modColl (d : Nat) (f : ColRun → ColRun) : (s.modColl d f).mems = s.mems :=
  mems_of_fields rfl rfl rfl

@[simp] theorem mems_colSend (d : Nat) (r : ColRun) (step i : Nat) (bs : List (BitVec 8)) (cs : List Cause) :
    (colSend s d r step i bs cs).mems = s.mems := by
  unfold colSend
  extract_lets w x p
  split
  · next hx => exact (mems_orReg ..).trans (mems_fst_of_eq hx (mems_issue ..))
  · next hx => exact (mems_modColl ..).trans (mems_fst_of_eq hx (mems_issue ..))

@[simp] theorem mems_colSendAll (d : Nat) (r : ColRun) (step : Nat) (bs : List (BitVec 8)) (cs : List Cause) :
    (colSendAll s d r step bs cs).mems = s.mems := by simp [colSendAll]

@[simp] theorem mems_colRaise (d : Nat) (cs : List Cause) : (colRaise s d cs).mems = s.mems := by
  refine mems_foldl (fun s c => ?_) cs s
  split
  · rfl
  · split <;> simp

@[simp] theorem mems_colOwnCount (w : List (BitVec 32)) : (colOwnCount s w).1.mems = s.mems := by simp [colOwnCount]

@[simp] theorem mems_colAnswer (d xfer st : Nat) : (colAnswer s d xfer st).mems = s.mems := by simp [colAnswer]

/-! ### Weight pairs and the sequence -/

@[simp] theorem mems_seqEnter (e : Nat) : (seqEnter s e).1.mems = s.mems := by
  unfold seqEnter
  split <;> simp

@[simp] theorem mems_seqWalk : (seqWalk s).1.mems = s.mems := by simp [seqWalk]

@[simp] theorem mems_modWpair (j : Nat) (f : WPair → WPair) : (s.modWpair j f).mems = s.mems :=
  mems_of_fields rfl rfl rfl

@[simp] theorem mems_batchStart : (batchStart s).mems = s.mems := by simp [batchStart]

@[simp] theorem mems_pairSwitch (j : Nat) (v : BitVec 32) : (pairSwitch s j v).mems = s.mems := by simp [pairSwitch]

@[simp] theorem mems_copyReleased (j : Nat) : (copyReleased s j).mems = s.mems := by
  unfold copyReleased
  split <;> simp

@[simp] theorem mems_shrStart (sel : Nat) : (shrStart s sel).mems = s.mems := by simp [shrStart]

@[simp] theorem mems_shrEnd (code detail area : Nat) : (shrEnd s code detail area).mems = s.mems := by simp [shrEnd]

@[simp] theorem mems_shrAbort : (shrAbort s).mems = s.mems := by simp [shrAbort]

/-! ### Registers of the tiles -/

@[simp] theorem mems_regReadEffect (m : Master) (off : Nat) (g : RegGroup) (v hi : BitVec 32) :
    (regReadEffect s m off g v hi).1.mems = s.mems := by
  simp only [regReadEffect]
  repeat' split
  all_goals simp

@[simp] theorem mems_plainWrite (off : Nat) (g : RegGroup) (v : BitVec 32) :
    (plainWrite s off g v).mems = s.mems := by
  unfold plainWrite
  split <;> simp

@[simp] theorem mems_modMule (t : Nat) (f : Mule → Mule) : (s.modMule t f).mems = s.mems := by simp [State.modMule]

@[simp] theorem mems_muleStart (t : Nat) : (muleStart s t).mems = s.mems := by simp [muleStart]

@[simp] theorem mems_muleStop (t : Nat) : (muleStop s t).mems = s.mems := by simp [muleStop]

@[simp] theorem mems_muleResume (t : Nat) : (muleResume s t).mems = s.mems := by simp [muleResume]

@[simp] theorem mems_muleControl (t : Nat) (g : RegGroup) (v : BitVec 32) :
    (muleControl s t g v).mems = s.mems := by
  simp [muleControl]

@[simp] theorem mems_muleImemWrite (t word : Nat) (v : BitVec 32) : (muleImemWrite s t word v).1.mems = s.mems := by
  simp [muleImemWrite]

@[simp] theorem mems_muleDmemWrite (t off : Nat) (bs : List (BitVec 8)) :
    (muleDmemWrite s t off bs).mems = s.mems := by
  simp [muleDmemWrite]

@[simp] theorem mems_imemStage (t : Nat) (m : Master) (word : Nat) (v : BitVec 32) :
    (imemStage s t m word v).mems = s.mems := by simp [imemStage]

@[simp] theorem mems_imemBundle (t : Nat) (m : Master) (b : Nat) (v : BitVec 32) :
    (imemBundle s t m b v).mems = s.mems := by simp [imemBundle]

@[simp] theorem mems_imemWrite (t : Nat) (m : Master) (o : Nat) (v : BitVec 32) :
    (imemWrite s t m o v).mems = s.mems := by simp [imemWrite]

@[simp] theorem mems_scrubStart (t : Nat) : (scrubStart s t).mems = s.mems := by simp [scrubStart]

@[simp] theorem mems_landClose (t mask : Nat) : (landClose s t mask).mems = s.mems := by simp [landClose]

@[simp] theorem mems_tileRead (m : Master) (t o : Nat) : (tileRead s m t o).1.mems = s.mems := by
  unfold tileRead
  split <;> simp

@[simp] theorem mems_tileWrite (m : Master) (t o : Nat) (v : BitVec 32) :
    (tileWrite s m t o v).1.mems = s.mems := by
  simp only [tileWrite]
  repeat' split
  all_goals simp

/-! ### Links -/

@[simp] theorem mems_setLinkState (l st : Nat) : (s.setLinkState l st).mems = s.mems := by simp [State.setLinkState]

@[simp] theorem mems_sendNotice (l : Nat) (n : Notice) : (s.sendNotice l n).mems = s.mems :=
  mems_of_fields rfl rfl rfl

@[simp] theorem mems_selectTwin (prog xfer : Nat) : (s.selectTwin prog xfer).mems = s.mems := by
  simp only [State.selectTwin]
  split <;> simp

@[simp] theorem mems_linkLost (l : Nat) : (s.linkLost l).mems = s.mems := by simp [State.linkLost]

@[simp] theorem mems_linkDown (l cause : Nat) : (s.linkDown l cause).mems = s.mems := by simp [State.linkDown]

@[simp] theorem mems_linkNak (l : Nat) (want : BitVec 12) : (linkNak s l want).mems = s.mems := by
  simp only [linkNak]
  split <;> simp

@[simp] theorem mems_flitReceive (l : Nat) (f : Flit) : (flitReceive s l f).mems = s.mems := by simp [flitReceive]

@[simp] theorem mems_laneBad (l lane : Nat) (lock : Bool) :
    (laneBad s l lane lock).mems = s.mems := by simp [laneBad]

@[simp] theorem mems_hallPass (n : Nat) : (hallPass n s).mems = s.mems := by
  induction n generalizing s with
  | zero => rfl
  | succ n ih =>
    unfold hallPass
    split <;> simp [ih]

@[simp] theorem mems_hallAdvance : (hallAdvance s).mems = s.mems := by simp [hallAdvance]

@[simp] theorem mems_portTrained (p : Nat) (good : BitVec 4) : (portTrained s p good).mems = s.mems := by
  simp [portTrained]

@[simp] theorem mems_linkTrained (l : Nat) (peer : Nat × Nat) (peerForward : Bool) (good : BitVec 4)
    (rtt tdly : BitVec 32) : (linkTrained s l peer peerForward good rtt tdly).mems = s.mems := by
  unfold linkTrained
  split <;> simp

@[simp] theorem mems_linkRetrain (l : Nat) : (linkRetrain s l).mems = s.mems := by
  simp only [linkRetrain]
  split <;> simp

@[simp] theorem mems_setForward (on : Bool) : (setForward s on).mems = s.mems := by simp [setForward]

@[simp] theorem mems_unexclude (fm : Nat × Nat) : (s.unexclude fm).mems = s.mems := by simp [State.unexclude]

@[simp] theorem mems_forwardTick : (forwardTick s).mems = s.mems := by simp [forwardTick]

@[simp] theorem mems_twinTick : (twinTick s).mems = s.mems := by
  simp only [twinTick]
  split <;> simp

@[simp] theorem mems_exclude (f m : Nat) : (s.exclude f m).mems = s.mems := by
  unfold State.exclude
  repeat' split
  all_goals simp

@[simp] theorem mems_routeNotice (n : Notice) : (routeNotice s n).mems = s.mems := by
  unfold routeNotice
  split <;> simp

/-! ### Requests from outside -/

@[simp] theorem mems_replyTo (l : Nat) (p : Packet) (kind : Nat) (bs : List (BitVec 8)) (marks : List Cause) :
    (replyTo s l p kind bs marks).mems = s.mems := by
  unfold replyTo
  repeat' split
  all_goals simp

@[simp] theorem mems_answerPacket (l : Nat) (p : Packet) (code : Nat) :
    (answerPacket s l p code).mems = s.mems := by
  simp [answerPacket]

@[simp] theorem mems_winDeny (p : Packet) (code : Nat) : (winDeny s p code).mems = s.mems := by simp [winDeny]

@[simp] theorem mems_winNotify (w : Nat) (p : Packet) : (winNotify s w p).mems = s.mems := by
  simp only [winNotify]
  split <;> simp

@[simp] theorem mems_remoteRead (l : Nat) (p : Packet) : (remoteRead s l p).mems = s.mems := by
  unfold remoteRead
  split <;> simp

@[simp] theorem mems_slotSend1 (r : Route) : (slotSend1 s r).mems = s.mems := by simp [slotSend1]

@[simp] theorem mems_slotSendAll (l xfer : Nat) (twin : Bool) : (slotSendAll s l xfer twin).mems = s.mems := by
  simp [slotSendAll]

@[simp] theorem mems_bePass (l : Nat) (p : Packet) : (bePass s l p).mems = s.mems := by
  unfold bePass
  repeat' split
  all_goals simp

/-! ### Commits -/

@[simp] theorem mems_applyShadow : (applyShadow s).mems = s.mems := mems_of_fields rfl rfl rfl

@[simp] theorem mems_commitTile (n : State) (t : Nat) : (commitTile s n t).mems = n.mems := by simp [commitTile]

@[simp] theorem mems_commitLink (n : State) (l : Nat) : (commitLink s n l).mems = n.mems := by simp [commitLink]

@[simp] theorem mems_commitApply (n : State) : (commitApply s n).mems = n.mems := by
  simp only [commitApply]
  split <;> simp

@[simp] theorem mems_commit : (commit s).mems = s.mems := by
  unfold commit
  split
  · simp
  · extract_lets n
    split <;> simp [n]

@[simp] theorem mems_setCommitReq (r : Option CommitReq) : (s.setCommitReq r).mems = s.mems :=
  mems_of_fields rfl rfl rfl

@[simp] theorem mems_commitRefuse (code : Nat) : (commitRefuse s code).mems = s.mems := by simp [commitRefuse]

@[simp] theorem mems_commitAtNext : (commitAtNext s).mems = s.mems := mems_of_fields rfl rfl rfl

@[simp] theorem mems_commitAtCount : (commitAtCount s).mems = s.mems := by simp [commitAtCount]

@[simp] theorem mems_commitNow : (commitNow s).mems = s.mems := by simp [commitNow]

@[simp] theorem mems_commitCancel : (commitCancel s).mems = s.mems := mems_of_fields rfl rfl rfl

@[simp] theorem mems_commitOp (op : Nat) : (commitOp s op).mems = s.mems := by
  unfold commitOp
  split <;> simp

@[simp] theorem mems_commitTick (c : BitVec 64) : (commitTick s c).mems = s.mems := by
  unfold commitTick
  split <;> simp

/-! ### The host ring -/

@[simp] theorem mems_ownChange (reason : Nat) : (ownChange s reason).mems = s.mems := by simp [ownChange]

@[simp] theorem mems_ownGrant (p reason : Nat) : (ownGrant s p reason).mems = s.mems := by simp [ownGrant]

@[simp] theorem mems_ownRelease (reason : Nat) : (ownRelease s reason).mems = s.mems := by simp [ownRelease]

@[simp] theorem mems_hlkClaim (p : Nat) : (hlkClaim s p).1.mems = s.mems := by simp [hlkClaim]

@[simp] theorem mems_hlkRelease (p : Nat) : (hlkRelease s p).mems = s.mems := by simp [hlkRelease]

@[simp] theorem mems_hlkRenew (p : Nat) : (hlkRenew s p).mems = s.mems := by simp [hlkRenew]

@[simp] theorem mems_hostEmit (p : Nat) (pkt : HostPacket) : (s.hostEmit p pkt).mems = s.mems := by
  simp [State.hostEmit]

@[simp] theorem mems_sendRecord (p seq : Nat) (body : List (BitVec 8)) :
    (sendRecord s p seq body).mems = s.mems := by
  simp [sendRecord]

@[simp] theorem mems_cplRecord (body : List (BitVec 8)) : (cplRecord s body).mems = s.mems := by simp [cplRecord]

@[simp] theorem mems_commandRecord (cookie : BitVec 64) (num status detail : Nat) :
    (commandRecord s cookie num status detail).mems = s.mems := by simp [commandRecord]

@[simp] theorem mems_ownerRecord : (ownerRecord s).mems = s.mems := by simp [ownerRecord]

@[simp] theorem mems_cplEnable : (cplEnable s).mems = s.mems := by simp [cplEnable]

@[simp] theorem mems_cplDisable : (cplDisable s).mems = s.mems := by simp [cplDisable]

@[simp] theorem mems_ringField (a o : Nat) : (ringField s a o).1.mems = s.mems := by simp [ringField]

@[simp] theorem mems_ringDisable : (ringDisable s).mems = s.mems := by simp [ringDisable]

@[simp] theorem mems_ringSample : (ringSample s).mems = s.mems := by simp [ringSample]

@[simp] theorem mems_subtickSample : (subtickSample s).mems = s.mems := by simp [subtickSample]

/-! ### The Mule -/

@[simp] theorem mems_muleFault (t code : Nat) : (muleFault s t code).mems = s.mems := by simp [muleFault]

@[simp] theorem mems_muleFetch (t : Nat) : (muleFetch s t).1.mems = s.mems := by
  simp only [muleFetch]
  repeat' split
  all_goals simp

@[simp] theorem mems_muleDone (t : Nat) (d : BitVec 5) (v : BitVec 32) : (muleDone s t d v).mems = s.mems := by
  simp [muleDone]

@[simp] theorem mems_muleNext (t : Nat) : (muleNext s t).mems = s.mems := by simp [muleNext]

@[simp] theorem mems_muleJump (t : Nat) (target : BitVec 32) (f : Mule → Mule) :
    (muleJump s t target f).mems = s.mems := by simp [muleJump]

@[simp] theorem mems_muleLoad (t a n : Nat) : (muleLoad s t a n).1.mems = s.mems := by
  simp only [muleLoad]
  repeat' split
  all_goals simp

@[simp] theorem mems_waitEnds (t n : Nat) (d : BitVec 5) : (waitEnds s t n d).mems = s.mems := by simp [waitEnds]

@[simp] theorem mems_dispatchEntry (t : Nat) (e : InboxEntry) (resume : BitVec 32) :
    (dispatchEntry s t e resume).mems = s.mems := by simp [dispatchEntry]

@[simp] theorem mems_handlerDispatch (t : Nat) : (handlerDispatch s t).mems = s.mems := by
  simp only [handlerDispatch]
  repeat' split
  all_goals simp

@[simp] theorem mems_yield (t : Nat) : (yield s t).mems = s.mems := by
  unfold yield
  split <;> simp

@[simp] theorem mems_hret (t : Nat) : (hret s t).mems = s.mems := by simp [hret]

@[simp] theorem mems_muleSig (t : Nat) (target inc : BitVec 32) : (muleSig s t target inc).mems = s.mems := by
  simp [muleSig]

@[simp] theorem mems_muleSend (t : Nat) (d : BitVec 5) : (muleSend s t d).mems = s.mems := by simp [muleSend]

@[simp] theorem mems_muleIllegalFetch (t : Nat) : (muleIllegalFetch s t).mems = s.mems := by
  unfold muleIllegalFetch
  split
  · rfl
  · have hm := mems_muleFetch s t
    split
    · next hx => exact mems_fst_of_eq hx hm
    · next hx => split <;> simp [mems_fst_of_eq hx hm]

/-! ### Image loads -/

@[simp] theorem mems_loadStartAt (a len cop : Nat) :
    (loadStartAt s a len cop).mems = s.mems := by simp [loadStartAt]

@[simp] theorem mems_loadStart (cop : Nat) : (loadStart s cop).mems = s.mems := by simp [loadStart]

@[simp] theorem mems_loadProgress (len : Nat) : (loadProgress s len).mems = s.mems := mems_of_fields rfl rfl rfl

@[simp] theorem mems_setShadow (off : Nat) (v : BitVec 32) : (s.setShadow off v).mems = s.mems :=
  mems_of_fields rfl rfl rfl

@[simp] theorem mems_setMaskShadows (base m : Nat) : (s.setMaskShadows base m).mems = s.mems := by
  simp [State.setMaskShadows]

@[simp] theorem mems_installBlock (b : NifBlock) : (installBlock s b).mems = s.mems := by simp [installBlock]

@[simp] theorem mems_installMule (m : NifMule) : (installMule s m).mems = s.mems := by simp [installMule]

@[simp] theorem mems_installConfig (e : Nat × BitVec 32) : (installConfig s e).mems = s.mems := by
  unfold installConfig
  repeat' split
  all_goals simp

@[simp] theorem mems_installProg (p : NifProg) : (installProg s p).mems = s.mems := by simp [installProg]

@[simp] theorem mems_installShadows (n : Nif) : (installShadows s n).mems = s.mems := by
  simp only [installShadows]
  split <;> simp

@[simp] theorem mems_installRoutes (n : Nif) : (installRoutes s n).mems = s.mems := mems_of_fields rfl rfl rfl

@[simp] theorem mems_installSlots (n : Nif) : (installSlots s n).mems = s.mems := by simp [installSlots]

@[simp] theorem mems_installFirst (n : Nif) (k : Nat) : (installFirst s n k).mems = s.mems := by simp [installFirst]

@[simp] theorem mems_installAbandon (n seen : Nif) : (installAbandon s n seen).mems = s.mems := by
  simp [installAbandon]

@[simp] theorem mems_synSig (t : Nat) (v : BitVec 32) : (synSig s t v).mems = s.mems := by simp [synSig]

@[simp] theorem mems_synDsig (v : BitVec 32) : (synDsig s v).mems = s.mems := mems_of_fields rfl rfl rfl

/-! ### Contexts and dumps -/

@[simp] theorem mems_ctxRequest (op : Nat) : (ctxRequest s op).mems = s.mems := by simp [ctxRequest]

@[simp] theorem mems_ctxControl (v : BitVec 32) : (ctxControl s v).mems = s.mems := by simp [ctxControl]

@[simp] theorem mems_ctxEnd (code : Nat) : (ctxEnd s code).mems = s.mems := by simp [ctxEnd]

@[simp] theorem mems_ctxFail (code detail : Nat) : (ctxFail s code detail).mems = s.mems := by simp [ctxFail]

@[simp] theorem mems_ctxStopMule (t : Nat) : (ctxStopMule s t).mems = s.mems := by simp [ctxStopMule]

@[simp] theorem mems_ctxStart (count : BitVec 64) : (ctxStart s count).mems = s.mems := by simp [ctxStart]

@[simp] theorem mems_setBoth (off : Nat) (v : BitVec 32) :
    (s.setBoth off v).mems = s.mems := by simp [State.setBoth]

@[simp] theorem mems_ctxSetStream (bs : List (BitVec 8)) (t k : Nat) : (ctxSetStream s bs t k).mems = s.mems := by
  simp [ctxSetStream]

@[simp] theorem mems_ctxSetMule (bs : List (BitVec 8)) (t : Nat) : (ctxSetMule s bs t).mems = s.mems := by
  simp [ctxSetMule]

@[simp] theorem mems_ctxSetTile (bs : List (BitVec 8)) (t : Nat) : (ctxSetTile s bs t).mems = s.mems := by
  simp [ctxSetTile]

@[simp] theorem mems_ctxRestoreRun : (ctxRestoreRun s).mems = s.mems := by
  simp only [ctxRestoreRun]
  repeat' split
  all_goals simp

@[simp] theorem mems_ctxReset : (ctxReset s).mems = s.mems := by simp [ctxReset]

/-! ### The Goose -/

@[simp] theorem mems_modFrame (f : Frame → Frame) : (s.modFrame f).mems = s.mems := mems_of_fields rfl rfl rfl

@[simp] theorem mems_streamDrain (t c : Nat) : (streamDrain s t c).mems = s.mems := by
  simp only [streamDrain]
  repeat' split
  all_goals simp

@[simp] theorem mems_drainStreams : (drainStreams s).mems = s.mems := by simp [drainStreams]

@[simp] theorem mems_drainEngines : (drainEngines s).mems = s.mems := by simp [drainEngines]

@[simp] theorem mems_pairMismatch (t k rank : Nat) :
    (pairMismatch s t k rank).mems = s.mems := by simp [pairMismatch]

@[simp] theorem mems_showDigests (taps : List (Nat × Nat)) : (showDigests s taps).mems = s.mems := by
  simp [showDigests]

@[simp] theorem mems_modClosed (f : Closed → Closed) : (s.modClosed f).mems = s.mems := mems_of_fields rfl rfl rfl

@[simp] theorem mems_comparePairs (p : Nat) : (comparePairs s p).mems = s.mems := by simp [comparePairs]

@[simp] theorem mems_pairMissing (t k : Nat) : (pairMissing s t k).mems = s.mems := by
  unfold pairMissing
  split <;> simp

@[simp] theorem mems_digestItem (d : DigestItem) : (digestItem s d).mems = s.mems := by
  unfold digestItem
  repeat' split
  all_goals simp

@[simp] theorem mems_frameRecord (c : Closed) : (frameRecord s c).mems = s.mems := by simp [frameRecord]

@[simp] theorem mems_verdictRegs (c : Closed) : (verdictRegs s c).mems = s.mems := by
  unfold verdictRegs
  split <;> simp

/-! ### Resets -/

@[simp] theorem mems_muleOff (t : Nat) : (muleOff s t).mems = s.mems := by simp [muleOff]

@[simp] theorem mems_gateOff (t : Nat) : (gateOff s t).mems = s.mems := by simp [gateOff]

@[simp] theorem mems_gateOn (t : Nat) : (gateOn s t).mems = s.mems := by simp [gateOn]

@[simp] theorem mems_gateTiles (p : Nat) : (gateTiles s p).mems = s.mems := by simp [gateTiles]

@[simp] theorem mems_clearShadows (p : Nat → Bool) : (s.clearShadows p).mems = s.mems := mems_of_fields rfl rfl rfl

@[simp] theorem mems_restore (p : Nat → Bool) : (s.restore p).mems = s.mems := mems_of_fields rfl rfl rfl

@[simp] theorem mems_resetTile (t : Nat) : (resetTile s t).mems = s.mems := by simp [resetTile]

@[simp] theorem mems_resetTileJob (t : Nat) : (resetTileJob s t).mems = s.mems := by simp [resetTileJob]

@[simp] theorem mems_resetBusy : (resetBusy s).mems = s.mems := by
  simp only [resetBusy]
  split <;> simp

@[simp] theorem mems_resetIgnored : (resetIgnored s).mems = s.mems := by simp [resetIgnored]

@[simp] theorem mems_jobRequest : (jobRequest s).mems = s.mems := by simp [jobRequest]

@[simp] theorem mems_rowRequest (v : BitVec 32) : (rowRequest s v).mems = s.mems := by simp [rowRequest]

@[simp] theorem mems_rowResetStart : (rowResetStart s).mems = s.mems := by simp [rowResetStart]

@[simp] theorem mems_rowResetEnd : (rowResetEnd s).mems = s.mems := by simp [rowResetEnd]

@[simp] theorem mems_leaveSafe (warm : Bool) : (leaveSafe s warm).mems = s.mems := by simp [leaveSafe]

/-! ### Frames -/

@[simp] theorem mems_showFirst : (showFirst s).mems = s.mems := by simp [showFirst]

@[simp] theorem mems_handOver (overran : Bool) (refused : Option Nat) :
    (handOver s overran refused).mems = s.mems := by
  simp [handOver]

@[simp] theorem mems_sendItems : (sendItems s).mems = s.mems := by
  unfold sendItems
  split <;> simp

@[simp] theorem mems_slackRegs (c : Nat) : (slackRegs s c).mems = s.mems := by
  simp only [slackRegs]
  split <;> simp

@[simp] theorem mems_keepCharges (stretch hold : Frac) : (keepCharges s stretch hold).mems = s.mems :=
  mems_of_fields rfl rfl rfl

@[simp] theorem mems_overrun : (overrun s).mems = s.mems := by simp [overrun]

@[simp] theorem mems_followParent : (followParent s).mems = s.mems := by
  unfold followParent
  split <;> simp

@[simp] theorem mems_sendTicks : (sendTicks s).mems = s.mems := mems_of_fields rfl rfl rfl

@[simp] theorem mems_followBell (p : TickPacket) : (followBell s p).mems = s.mems := by simp [followBell]

@[simp] theorem mems_takePacket (l : Nat) (p : TickPacket) (e : BitVec 16) : (takePacket s l p e).mems = s.mems :=
  mems_of_fields rfl rfl rfl

@[simp] theorem mems_tickPacket (l : Nat) (p : TickPacket) (e : BitVec 16) :
    (tickPacket s l p e).mems = s.mems := by
  simp [tickPacket]

@[simp] theorem mems_holdoverTick : (holdoverTick s).mems = s.mems := by simp [holdoverTick]

@[simp] theorem mems_openHoldover : (openHoldover s).mems = s.mems := by simp [openHoldover]

@[simp] theorem mems_refuseFrame (p code : Nat) : (refuseFrame s p code).mems = s.mems := by simp [refuseFrame]

@[simp] theorem mems_armFrame (p : Nat) : (armFrame s p).mems = s.mems := by simp [armFrame]

@[simp] theorem mems_openFrame (c : BitVec 64) : (openFrame s c).mems = s.mems := by
  simp only [openFrame]
  repeat' split
  all_goals simp

@[simp] theorem mems_silentRegions (silent : List Nat) : (silentRegions s silent).mems = s.mems := by
  simp [silentRegions]

@[simp] theorem mems_releaseTile (t : Nat) : (releaseTile s t).mems = s.mems := by simp [releaseTile]

@[simp] theorem mems_releaseCycle0 : (releaseCycle0 s).mems = s.mems := by simp [releaseCycle0]

@[simp] theorem mems_runStart : (runStart s).mems = s.mems := by simp [runStart]

@[simp] theorem mems_runStop : (runStop s).mems = s.mems := by simp [runStop]

@[simp] theorem mems_safeReq : (safeReq s).mems = s.mems := by simp [safeReq]

/-! ### The hall -/

@[simp] theorem mems_candidateExchange (l : Nat) (cs : List Cand) : (candidateExchange s l cs).mems = s.mems := by
  simp [candidateExchange]

@[simp] theorem mems_fixBell : (fixBell s).mems = s.mems := by simp [fixBell]

@[simp] theorem mems_electionSettle : (electionSettle s).mems = s.mems := by simp [electionSettle]

@[simp] theorem mems_elect : (elect s).mems = s.mems := by simp [elect]

@[simp] theorem mems_takeover : (takeover s).mems = s.mems := by simp [takeover]

@[simp] theorem mems_handover : (handover s).mems = s.mems := by simp [handover]

/-! ### Images -/

@[simp] theorem mems_modMgmt (f : Mgmt → Mgmt) : (s.modMgmt f).mems = s.mems := mems_of_fields rfl rfl rfl

@[simp] theorem mems_setMmcState (v : Nat) : (s.setMmcState v).mems = s.mems := by simp [State.setMmcState]

@[simp] theorem mems_selectRecords : (selectRecords s).1.mems = s.mems := by
  simp only [selectRecords]
  repeat' split
  all_goals simp

@[simp] theorem mems_showSlots : (showSlots s).mems = s.mems := by simp [showSlots]

@[simp] theorem mems_putInForce (typ : Nat) (i : Option Image) : (s.putInForce typ i).mems = s.mems :=
  mems_of_fields rfl rfl rfl

@[simp] theorem mems_applyRecords : (applyRecords s).mems = s.mems := by simp [applyRecords]

/-! ### Power -/

@[simp] theorem mems_modPower (f : Power → Power) : (s.modPower f).mems = s.mems := mems_of_fields rfl rfl rfl

@[simp] theorem mems_showMain : (showMain s).mems = s.mems := by simp [showMain]

@[simp] theorem mems_powerTry : (powerTry s).mems = s.mems := by simp [powerTry]

@[simp] theorem mems_mainOn : (mainOn s).mems = s.mems := by
  unfold mainOn
  split <;> simp

@[simp] theorem mems_staggerExpiry : (staggerExpiry s).mems = s.mems := by simp [staggerExpiry]

@[simp] theorem mems_mainEnLow : (mainEnLow s).mems = s.mems := by simp [mainEnLow]

@[simp] theorem mems_inputInRange : (inputInRange s).mems = s.mems := by simp [inputInRange]

@[simp] theorem mems_railStep : (railStep s).mems = s.mems := by
  unfold railStep
  split <;> simp

@[simp] theorem mems_mainRegs : (mainRegs s).mems = s.mems := by simp [mainRegs]

@[simp] theorem mems_portsTrain : (portsTrain s).mems = s.mems := by simp [portsTrain]

@[simp] theorem mems_mainPowerGood : (mainPowerGood s).mems = s.mems := by simp [mainPowerGood]

@[simp] theorem mems_standbyLost : (standbyLost s).mems = s.mems := by simp [standbyLost]

@[simp] theorem mems_tapSelect (i : TapInstr) (data : List Bool) : (tapSelect s i data).mems = s.mems := by
  simp [tapSelect]

@[simp] theorem mems_samplePreload (pins cells : List Bool) : (samplePreload s pins cells).mems = s.mems := by
  simp [samplePreload]

@[simp] theorem mems_extest (pins : List Bool) : (extest s pins).mems = s.mems := by simp [extest]

/-! ### Boot -/

@[simp] theorem mems_standbyPowerGood (flock : BitVec 8) (member : BitVec 5) (par : Bool) :
    (standbyPowerGood s flock member par).mems = s.mems := by simp [standbyPowerGood]

@[simp] theorem mems_bootStop (state : Nat) : (bootStop s state).mems = s.mems := by simp [bootStop]

@[simp] theorem mems_bootStage1 : (bootStage1 s).mems = s.mems := by
  simp only [bootStage1]
  split <;> simp

@[simp] theorem mems_bootCode (code : Nat) : (bootCode s code).mems = s.mems := by simp [bootCode]

@[simp] theorem mems_bootStage2 (se : Bool) : (bootStage2 s se).mems = s.mems := by
  simp only [bootStage2]
  repeat' split
  all_goals simp

@[simp] theorem mems_bootStage4 : (bootStage4 s).mems = s.mems := by
  unfold bootStage4
  split <;> simp

@[simp] theorem mems_bootStage5 : (bootStage5 s).mems = s.mems := by simp [bootStage5]

@[simp] theorem mems_selectRows (failed : BitVec 36) : (selectRows s failed).mems = s.mems := by simp [selectRows]

@[simp] theorem mems_selectStacks (trained : BitVec 8) : (selectStacks s trained).mems = s.mems := by
  simp [selectStacks]

@[simp] theorem mems_selectSites (sites : List (Nat × Bool)) : (selectSites s sites).mems = s.mems := by
  simp [selectSites]

@[simp] theorem mems_showCrossings (xs : List (Nat × Nat × Nat × Nat)) : (showCrossings s xs).mems = s.mems := by
  simp [showCrossings]

@[simp] theorem mems_drawKey : (drawKey s).mems = s.mems := by simp [drawKey]

@[simp] theorem mems_showDevId : (showDevId s).mems = s.mems := by simp [showDevId]

@[simp] theorem mems_firmwareUpdate (i : Image) : (firmwareUpdate s i).mems = s.mems := by simp [firmwareUpdate]

@[simp] theorem mems_recordCommit (typ : Nat) : (recordCommit s typ).mems = s.mems := by
  simp only [recordCommit]
  repeat' split
  all_goals simp

@[simp] theorem mems_svnCommit : (svnCommit s).mems = s.mems := by
  simp only [svnCommit]
  repeat' split
  all_goals simp

@[simp] theorem mems_watchdogReset : (watchdogReset s).mems = s.mems := by simp [watchdogReset]

/-! ### Warm reset -/

@[simp] theorem mems_warmFabric : (warmFabric s).mems = s.mems := mems_of_fields rfl rfl rfl

@[simp] theorem mems_warmFrame : (warmFrame s).mems = s.mems := mems_of_fields rfl rfl rfl

@[simp] theorem mems_warmHost : (warmHost s).mems = s.mems := mems_of_fields rfl rfl rfl

@[simp] theorem mems_warmSelect : (warmSelect s).mems = s.mems := by
  simp only [warmSelect]
  split <;> simp

@[simp] theorem mems_mmcOwnRelease : (mmcOwnRelease s).mems = s.mems := by simp [mmcOwnRelease]

/-! ### Register accesses -/

@[simp] theorem mems_rcTyped (o : Nat) : (rcTyped s o).mems = s.mems := by simp [rcTyped]

@[simp] theorem mems_ptRecord (code : Nat) (poison : Bool) : (ptRecord s code poison).mems = s.mems := by
  simp [ptRecord]

@[simp] theorem mems_ptAdvance : (ptAdvance s).mems = s.mems := by
  unfold ptAdvance
  repeat' split
  all_goals simp

@[simp] theorem mems_ptRead (m : Master) : (ptRead s m).1.mems = s.mems := by
  unfold ptRead
  extract_lets st t
  split
  · simp
  · split
    · simp
    · simp
    · split
      next hx => rw [mems_fst_mk, mems_ptAdvance, mems_ptRecord, mems_fst_of_eq hx (mems_tileRead ..)]

@[simp] theorem mems_ptWrite (m : Master) (v : BitVec 32) : (ptWrite s m v).1.mems = s.mems := by
  unfold ptWrite
  extract_lets st t x1 k x2
  split
  · simp
  · split
    · simp [x1]
    · simp [x2]
    · split
      next hx => rw [mems_fst_mk, mems_ptAdvance, mems_ptRecord, mems_fst_of_eq hx (mems_tileWrite ..)]

@[simp] theorem mems_regRead (m : Master) (o : Nat) : (regRead s m o).1.mems = s.mems := by
  simp only [regRead]
  repeat' split
  all_goals simp

@[simp] theorem mems_frmControl (v : BitVec 32) : (frmControl s v).mems = s.mems := by simp [frmControl]

@[simp] theorem mems_gosControl (v : BitVec 32) : (gosControl s v).mems = s.mems := by simp [gosControl]

@[simp] theorem mems_claimWrite (m : Master) (v : BitVec 32) : (claimWrite s m v).1.mems = s.mems := by
  unfold claimWrite
  split <;> simp

@[simp] theorem mems_agpWrite (n o : Nat) (g : RegGroup) (v : BitVec 32) :
    (agpWrite s n o g v).1.mems = s.mems := by
  simp [agpWrite]

@[simp] theorem mems_answered (st : Nat) (v : BitVec 32) : (s.answered st v).mems = s.mems :=
  mems_of_fields rfl rfl rfl

@[simp] theorem mems_readAnswered (m : Master) (o : Nat) : (readAnswered s m o).mems = s.mems := by
  simp [readAnswered]

/-! ### Host commands -/

@[simp] theorem mems_hostAnswer (p : Nat) (pkt : HostPacket) (code : Nat) :
    (hostAnswer s p pkt code).mems = s.mems := by
  simp [hostAnswer]

@[simp] theorem mems_hostRegsRead (m : Master) (o n : Nat) : (hostRegsRead s m o n).1.mems = s.mems := by
  induction n generalizing s o with
  | zero => rfl
  | succ n ih => simp [hostRegsRead, ih]

@[simp] theorem mems_hostData (p : Nat) (pkt : HostPacket) (bs : List (BitVec 8)) (cs : List Cause) :
    (hostData s p pkt bs cs).mems = s.mems := by simp [hostData]

@[simp] theorem mems_hostRead (p : Nat) (pkt : HostPacket) (reused : Bool) :
    (hostRead s p pkt reused).mems = s.mems := by simp [hostRead]

/-! ### Idle time -/

@[simp] theorem mems_idle : (idle s).mems = s.mems := by simp [idle]

@[simp] theorem mems_agpIllegalFetch (n : Nat) : (agpIllegalFetch s n).mems = s.mems := by simp [agpIllegalFetch]

/-! ### Scrub and refresh -/

@[simp] theorem mems_eccWriteBack (t bank : Nat) : (eccWriteBack s t bank).mems = s.mems := by
  simp only [eccWriteBack]
  split <;> simp

@[simp] theorem mems_refreshWindow (k cyc : Nat) (period phase : BitVec 32) :
    (refreshWindow s k cyc period phase).mems = s.mems := by
  unfold refreshWindow
  split <;> simp

@[simp] theorem mems_forcedRefresh (k ps : Nat) : (forcedRefresh s k ps).mems = s.mems := by simp [forcedRefresh]

/-! ### The side-band port -/

@[simp] theorem mems_sbSend (r : SbReply) : (s.sbSend r).mems = s.mems := mems_of_fields rfl rfl rfl

@[simp] theorem mems_mctpAnswer (code : Nat) (data : List (BitVec 8)) : (mctpAnswer s code data).mems = s.mems := by
  simp [mctpAnswer]

@[simp] theorem mems_takeAddress (a : BitVec 7) : (takeAddress s a).mems = s.mems := by simp [takeAddress]

@[simp] theorem mems_setEndpointId (op : BitVec 2) (eid : BitVec 8) : (setEndpointId s op eid).mems = s.mems := by
  simp [setEndpointId]

@[simp] theorem mems_sbRead (o n : Nat) : (sbRead s o n).1.mems = s.mems := by
  induction n generalizing s o with
  | zero => rfl
  | succ n ih => simp [sbRead, ih]

@[simp] theorem mems_regReadCmd (o n : Nat) : (regReadCmd s o n).mems = s.mems := by simp [regReadCmd]

@[simp] theorem mems_keyEnroll (slot : Nat) (ec hs : List (BitVec 8)) : (keyEnroll s slot ec hs).mems = s.mems := by
  simp [keyEnroll]

@[simp] theorem mems_platformEvent (sensor measured : Nat) : (platformEvent s sensor measured).mems = s.mems := by
  simp [platformEvent]

@[simp] theorem mems_modSpdm (f : Spdm → Spdm) : (s.modSpdm f).mems = s.mems := mems_of_fields rfl rfl rfl

@[simp] theorem mems_note (request : Nat) (fields : List (BitVec 8)) : (s.note request fields).mems = s.mems :=
  mems_of_fields rfl rfl rfl

@[simp] theorem mems_spdmError (e : SpdmError) : (spdmError s e).mems = s.mems := mems_of_fields rfl rfl rfl

@[simp] theorem mems_spdmRequest (need : Nat) {f : State → State} (hf : ∀ s, (f s).mems = s.mems) :
    (spdmRequest s need f).mems = s.mems := by
  simp [spdmRequest, hf]

@[simp] theorem mems_spdmVersion (fields : List (BitVec 8)) : (spdmVersion s fields).mems = s.mems := by
  simp [spdmVersion]

@[simp] theorem mems_spdmCapabilities (fields : List (BitVec 8)) : (spdmCapabilities s fields).mems = s.mems := by
  simp [spdmCapabilities]

@[simp] theorem mems_spdmAlgorithms (ecdsa sha : Bool) (fields : List (BitVec 8)) :
    (spdmAlgorithms s ecdsa sha fields).mems = s.mems := by simp [spdmAlgorithms]

@[simp] theorem mems_spdmDigests (fields : List (BitVec 8)) : (spdmDigests s fields).mems = s.mems := by
  simp [spdmDigests]

@[simp] theorem mems_spdmCertificate (slot off len : Nat) (fields : List (BitVec 8)) :
    (spdmCertificate s slot off len fields).mems = s.mems := by simp [spdmCertificate]

@[simp] theorem mems_signTranscript (request : Nat) : (signTranscript s request).1.mems = s.mems := by
  simp [signTranscript]

@[simp] theorem mems_spdmSigned (request : Nat) (fields : List (BitVec 8)) {f : State → List (BitVec 8) → State}
    (hf : ∀ s sig, (f s sig).mems = s.mems) : (spdmSigned s request fields f).mems = s.mems := by
  unfold spdmSigned
  split <;> simp [hf]

@[simp] theorem mems_drawNonce : (drawNonce s).1.mems = s.mems := mems_of_fields rfl rfl rfl

@[simp] theorem mems_spdmChallenge (slot : Nat) (fields : List (BitVec 8)) :
    (spdmChallenge s slot fields).mems = s.mems := by simp [spdmChallenge]

@[simp] theorem mems_spdmMeasurements (index : Nat) (sign : Bool) (fields : List (BitVec 8)) :
    (spdmMeasurements s index sign fields).mems = s.mems := by
  refine mems_spdmRequest _ _ fun s => ?_
  split <;> simp

@[simp] theorem mems_spdmVendor (code : Nat) : (spdmVendor s code).mems = s.mems := by
  refine mems_spdmRequest _ _ fun s => ?_
  split
  · simp
  · split <;> simp

@[simp] theorem mems_lmsFail (moved : Bool) : (lmsFail s moved).mems = s.mems := by
  refine mems_spdmRequest _ _ fun s => ?_
  split <;> simp

@[simp] theorem mems_lmsBuild : (lmsBuild s).mems = s.mems := by simp [lmsBuild]

end

/-! ## Operations that write the memories -/

@[simp] theorem wf_ite (c : Prop) [Decidable c] (m m' : Memories) :
    (if c then m else m').Wf ↔ if c then m.Wf else m'.Wf := by
  split <;> rfl

theorem wf_foldl {β : Type} {f : State → β → State} (hf : ∀ s b, s.mems.Wf → (f s b).mems.Wf) (l : List β)
    {s : State} (h : s.mems.Wf) : (l.foldl f s).mems.Wf := by
  induction l generalizing s with
  | nil => exact h
  | cons x xs ih => exact ih (hf s x h)

theorem wf_foldl_fst {α β : Type} {f : State × α → β → State × α} (hf : ∀ s b, s.1.mems.Wf → (f s b).1.mems.Wf)
    (l : List β) {s : State × α} (h : s.1.mems.Wf) : (l.foldl f s).1.mems.Wf := by
  induction l generalizing s with
  | nil => exact h
  | cons x xs ih => exact ih (hf s x h)

theorem wf_some_ite {c : Prop} [Decidable c] {x : State} {y : Option State} (hx : x.mems.Wf)
    (hy : ∀ s' ∈ y, s'.mems.Wf) : ∀ s' ∈ (if c then some x else y), s'.mems.Wf := by
  split
  · simpa using hx
  · exact hy

theorem wf_fst_of_eq {α : Type} {x : State × α} {s : State} {a : α} (hx : x = (s, a)) (h : x.1.mems.Wf) :
    s.mems.Wf := by
  rwa [hx] at h

theorem Memory.wf_ite {c : Prop} [Decidable c] {m m' : List Host.Cell} (h : Memory.wf m = true)
    (h' : Memory.wf m' = true) : Memory.wf (if c then m else m') = true := by
  split <;> assumption

@[simp] theorem mems_repeatS {f : State → State} (hf : ∀ s, (f s).mems = s.mems) (n : Nat) (s : State) :
    (repeatS n f s).mems = s.mems := by
  induction n generalizing s with
  | zero => rfl
  | succ n ih => rw [repeatS, ih, hf]

theorem wf_repeatS {f : State → State} (hf : ∀ s, s.mems.Wf → (f s).mems.Wf) (n : Nat) {s : State} (h : s.mems.Wf) :
    (repeatS n f s).mems.Wf := by
  induction n generalizing s with
  | zero => exact h
  | succ n ih => exact ih (hf s h)

/-- A map whose keys move stays canonical: its values are those of the map before. -/
theorem mapWf_reKey {α : Type} [DecidableEq α] {d : α} {m : SMap α} (f : Nat → Option Nat) (h : mapWf d m = true) :
    mapWf d (reKey m f) = true := by
  have hd : ∀ e ∈ m, e.2 ≠ d := ((mapWf_iff d m).1 h).2
  refine List.foldlRecOn m _ (motive := fun m' => mapWf d m' = true) (mapWf_nil d) fun m' hm' e he => ?_
  split
  · exact mapWf_mapPut _ (hd e he) hm'
  · exact hm'

theorem Memory.wf_reKey {m : List Host.Cell} (f : Nat → Option Nat) (h : Memory.wf m = true) :
    Memory.wf (reKey m f) = true := mapWf_reKey f h

section
variable {s : State}

/-! ### Shared operations -/

@[simp] theorem wf_spadWriteLine (t off : Nat) (bs : List (BitVec 8)) (cause : Cause) (h : s.mems.Wf) :
    (spadWriteLine s t off bs cause).mems.Wf := by
  obtain ⟨hspad, hhbm, hddr⟩ := h
  unfold spadWriteLine
  rw [mems_tapLine, mems_modTile]
  exact ⟨Memory.wf_memWrite _ _ hspad, hhbm, hddr⟩

@[simp] theorem wf_spadWrite (t off : Nat) (bs : List (BitVec 8)) (cs : List Cause) (h : s.mems.Wf) :
    (s.spadWrite t off bs cs).mems.Wf := by
  unfold State.spadWrite
  split
  · exact h
  · exact wf_foldl (fun s i h => wf_spadWriteLine _ _ _ _ h) _ h

@[simp] theorem wf_spadProduce (t off : Nat) (bs : List (BitVec 8)) (cs : List Cause) (h : s.mems.Wf) :
    (s.spadProduce t off bs cs).mems.Wf := by simp [State.spadProduce, h]

/-! ### The matrix unit -/

@[simp] theorem wf_drainArray (t a : Nat) (p : Pass) (h : s.mems.Wf) : (drainArray s t a p).1.mems.Wf := by
  simp [drainArray, h]

@[simp] theorem wf_drainAt (t i : Nat) (p : Pass) (h : s.mems.Wf) : (drainAt s t i p).mems.Wf := by
  unfold drainAt
  split
  next s1 p1 hx =>
  rw [mems_setPass]
  refine wf_fst_of_eq hx ?_
  split
  · exact wf_foldl_fst (fun e a h => wf_drainArray _ _ _ h) _ h
  · simp [h]

@[simp] theorem wf_drain (t : Nat) (h : s.mems.Wf) : (drain s t).mems.Wf := by
  unfold drain
  split <;> simp [h]

/-! ### Spaces 0 to 2 -/

@[simp] theorem wf_spaceWrite (space off : Nat) (bs : List (BitVec 8)) (cs : List Cause) (h : s.mems.Wf) :
    (s.spaceWrite space off bs cs).mems.Wf := by
  refine wf_foldl (fun s p h => ?_) _ h
  have ⟨hspad, hhbm, hddr⟩ := h
  dsimp only
  split
  · exact wf_spadWrite _ _ _ _ h
  · exact ⟨hspad, Memory.wf_ite (Memory.wf_memWrite _ _ hhbm) hhbm, hddr⟩
  · exact ⟨hspad, hhbm, Memory.wf_ite (Memory.wf_memWrite _ _ hddr) hddr⟩

@[simp] theorem wf_localWrite (copies : SMap Bool) (a : Nat) (bs : List (BitVec 8)) (cs : List Cause)
    (h : s.mems.Wf) : (s.localWrite copies a bs cs).1.mems.Wf := by simp [State.localWrite, h]

/-! ### Streams -/

@[simp] theorem wf_replyWrite (t c off : Nat) (bs : List (BitVec 8)) (cs : List Cause) (h : s.mems.Wf) :
    (replyWrite s t c off bs cs).mems.Wf := by simp [replyWrite, h]

@[simp] theorem wf_applyReply (t c : Nat) (r : StreamRun) (e : StreamElem) (h : s.mems.Wf) :
    (applyReply s t c r e).1.mems.Wf := by
  simp only [applyReply]
  repeat' split
  all_goals simp [h]

@[simp] theorem wf_replyOldest (t c : Nat) (r : StreamRun) (h : s.mems.Wf) : (replyOldest s t c r).mems.Wf := by
  simp only [replyOldest]
  repeat' split
  all_goals simp [h]

@[simp] theorem wf_streamReply (t c : Nat) (h : s.mems.Wf) : (streamReply s t c).mems.Wf := by
  unfold streamReply
  split <;> simp [h]

@[simp] theorem wf_replyAnswered (t c fuel : Nat) (h : s.mems.Wf) : (replyAnswered s t c fuel).mems.Wf := by
  induction fuel generalizing s with
  | zero => exact h
  | succ k ih =>
    unfold replyAnswered
    split
    · exact h
    · split
      · simp [ih, h]
      · exact h

@[simp] theorem wf_streamAnswer (t c elem off st : Nat) (bs : List (BitVec 8)) (cs : List Cause) (h : s.mems.Wf) :
    (streamAnswer s t c elem off st bs cs).mems.Wf := by
  unfold streamAnswer
  split <;> simp [h]

/-! ### Messages -/

@[simp] theorem wf_landMsg (t q : Nat) (m : Msg) (h : s.mems.Wf) :
    (landMsg s t q m).1.mems.Wf := by simp [landMsg, h]

@[simp] theorem wf_landHeld (t : Nat) (l : Landing) (h : s.mems.Wf) : (landHeld s t l).mems.Wf := by
  simp [landHeld, h]

@[simp] theorem wf_scheduledLanding (t : Nat) (h : s.mems.Wf) : (scheduledLanding s t).mems.Wf := by
  unfold scheduledLanding
  split <;> simp [h]

@[simp] theorem wf_receiveMsg (m : Msg) (sender : MsgFrom) (due : Nat) (h : s.mems.Wf) :
    (receiveMsg s m sender due).mems.Wf := by
  unfold receiveMsg
  split <;> simp [h]

@[simp] theorem wf_receiveFlight (f : Flight) (h : s.mems.Wf) : (receiveFlight s f).mems.Wf := by
  simp [receiveFlight, h]

@[simp] theorem wf_checkPoint (t : Nat) (h : s.mems.Wf) : (checkPoint s t).mems.Wf := by
  unfold checkPoint
  split
  · exact h
  · exact wf_foldl (fun s l h => wf_landHeld _ _ h) _ (by simpa using h)

@[simp] theorem wf_cpOp (t op n : Nat) (h : s.mems.Wf) : (cpOp s t op n).mems.Wf := by simp [cpOp, h]

/-! ### The address-generator engines -/

@[simp] theorem wf_agpPieceWrite (n k : Nat) (c : AgpCopy) (p : AgpPiece) (h : s.mems.Wf) :
    (agpPieceWrite s n k c p).mems.Wf := by
  unfold agpPieceWrite
  extract_lets a q s1
  split
  · split
    next s2 st hx =>
    have h2 : s2.mems.Wf := wf_fst_of_eq hx (wf_localWrite _ _ _ _ h)
    split <;> simp [h2]
  · have hs : (s1.issue (.agp n k p.off) q).1.mems.Wf := by simpa [s1] using h
    split
    · next hx => simpa using wf_fst_of_eq hx hs
    · next hx => exact wf_fst_of_eq hx hs

@[simp] theorem wf_agpPieceHeld (n k off : Nat) (bs : List (BitVec 8)) (cs : List Cause) (h : s.mems.Wf) :
    (agpPieceHeld s n k off bs cs).mems.Wf := by
  simp only [agpPieceHeld]
  repeat' split
  all_goals simp [h]

@[simp] theorem wf_agpPieceRead (n k : Nat) (c : AgpCopy) (p : AgpPiece) (h : s.mems.Wf) :
    (agpPieceRead s n k c p).mems.Wf := by
  unfold agpPieceRead
  extract_lets a q s1
  split
  · split
    next s2 st bs cs hx =>
    have h2 : s2.mems.Wf := wf_fst_of_eq hx (by simpa using h)
    split <;> simp [h2]
  · have hs : (s1.issue (.agp n k p.off) q).1.mems.Wf := by simpa [s1] using h
    split
    · next hx => simpa using wf_fst_of_eq hx hs
    · next hx => exact wf_fst_of_eq hx hs

@[simp] theorem wf_agpPump (n k : Nat) (which : State → AgpCopy → Bool) (h : s.mems.Wf) :
    (agpPump s n k which).mems.Wf := by
  unfold agpPump
  split
  · exact h
  · split
    · refine wf_foldl (fun s p h => ?_) _ h
      split
      · exact wf_agpPieceRead _ _ _ _ h
      · exact h
    · exact h

@[simp] theorem wf_agpReadReply (n k off st : Nat) (bs : List (BitVec 8)) (cs : List Cause) (h : s.mems.Wf) :
    (agpReadReply s n k off st bs cs).mems.Wf := by
  unfold agpReadReply
  split <;> simp [h]

@[simp] theorem wf_agpCopyComplete (n k : Nat) (h : s.mems.Wf) : (agpCopyComplete s n k).mems.Wf := by
  simp [agpCopyComplete, h]

@[simp] theorem wf_agpCopyIssue (n a b len : Nat) (advance : Bool) (h : s.mems.Wf) :
    (agpCopyIssue s n a b len advance).mems.Wf := by simp [agpCopyIssue, h]

/-! ### The vector engine -/

@[simp] theorem wf_landResult (t : Nat) (p : Pending) (h : s.mems.Wf) : (landResult s t p).mems.Wf := by
  unfold landResult
  split <;> simp [h]

@[simp] theorem wf_vecResultWrite (t : Nat) (h : s.mems.Wf) : (vecResultWrite s t).mems.Wf := by
  unfold vecResultWrite
  split <;> simp [h]

@[simp] theorem wf_landDue (t x : Nat) (h : s.mems.Wf) : (landDue s t x).mems.Wf := by
  unfold landDue
  exact wf_foldl (fun s p h => wf_landResult _ _ h) _ (by simpa using h)

/-! ### Bundles -/

@[simp] theorem wf_arrivals (t op : Nat) (h : s.mems.Wf) : (arrivals s t op).mems.Wf := by
  unfold arrivals
  extract_lets due late s1 s2 s3 s4 s5 back s6
  have h1 : s1.mems.Wf := wf_foldl (fun s f h => wf_receiveFlight f h) _ h
  have h3 : s3.mems.Wf := by simp [s3, s2, h1]
  have h4 : s4.mems.Wf := wf_foldl (fun s l h => wf_landHeld _ l h) _ h3
  have h5 : s5.mems.Wf := wf_foldl (fun s f h => wf_receiveFlight f h) _ h4
  simpa [s6] using h5

@[simp] theorem wf_unitEvents (t : Nat) (h : s.mems.Wf) : (unitEvents s t).mems.Wf := by
  unfold unitEvents
  extract_lets n s1 s2 s3 s4 s5 s6 s7
  have h5 : s5.mems.Wf := wf_repeatS (fun s h => wf_drain t h) n (by simpa [s4, s3, s2, s1] using h)
  simpa [s7] using wf_landDue t (s5.cycle t) h5

@[simp] theorem wf_bundleIssue (t : Nat) (h : s.mems.Wf) : (bundleIssue s t).mems.Wf := by simp [bundleIssue, h]

/-! ### Collectives -/

@[simp] theorem wf_colWrite (a : Nat) (bs : List (BitVec 8)) (cs : List Cause) (h : s.mems.Wf) :
    (colWrite s a bs cs).mems.Wf := by simp [colWrite, h]

@[simp] theorem wf_shdWriteHeader (d : Nat) (r : ColRun) (x state : Nat) (poison : Bool) (digest : Nat)
    (h : s.mems.Wf) : (shdWriteHeader s d r x state poison digest).mems.Wf := by simp [shdWriteHeader, h]

@[simp] theorem wf_shdBegin (d : Nat) (r : ColRun) (h : s.mems.Wf) :
    (shdBegin s d r).mems.Wf := by simp [shdBegin, h]

@[simp] theorem wf_shdComplete (d : Nat) (r : ColRun) (x : Nat) (bs : List (BitVec 8)) (cs : List Cause)
    (h : s.mems.Wf) : (shdComplete s d r x bs cs).mems.Wf := by
  unfold shdComplete
  extract_lets n lines poison s1
  have h1 : s1.mems.Wf := wf_foldl (fun s e h => wf_spaceWrite _ _ _ _ h) _ h
  clear_value s1
  split
  next digest s2 hx =>
  have h2 : s2.mems = s1.mems := mems_snd_of_eq hx (by simp)
  simp [h2, h1]

@[simp] theorem wf_shdIncomplete (d : Nat) (r : ColRun) (h : s.mems.Wf) : (shdIncomplete s d r).mems.Wf := by
  unfold shdIncomplete
  split <;> simp [h]

@[simp] theorem wf_colPlace (d : Nat) (r : ColRun) (j total : Nat) (bs : List (BitVec 8)) (cs : List Cause)
    (h : s.mems.Wf) : (colPlace s d r j total bs cs).mems.Wf := by
  unfold colPlace
  split <;> simp [h]

@[simp] theorem wf_colReduce (d : Nat) (differs : Bool) (h : s.mems.Wf) : (colReduce s d differs).mems.Wf := by
  unfold colReduce
  split <;> simp [h]

@[simp] theorem wf_colStartReduce (d : Nat) (r : ColRun) (h : s.mems.Wf) : (colStartReduce s d r).mems.Wf := by
  simp [colStartReduce, h]

@[simp] theorem wf_colStartGather (d : Nat) (r : ColRun) (h : s.mems.Wf) : (colStartGather s d r).mems.Wf := by
  simp [colStartGather, h]

@[simp] theorem wf_colStartBroadcast (d : Nat) (r : ColRun) (h : s.mems.Wf) :
    (colStartBroadcast s d r).mems.Wf := by
  simp [colStartBroadcast, h]

@[simp] theorem wf_collectiveStart (d cyc : Nat) (h : s.mems.Wf) : (collectiveStart s d cyc).mems.Wf := by
  simp [collectiveStart, h]

@[simp] theorem wf_colContribution (c : ColStep) (count : Nat) (bs : List (BitVec 8)) (marks : List Cause)
    (differs : Bool) (h : s.mems.Wf) : (colContribution s c count bs marks differs).mems.Wf := by
  unfold colContribution
  repeat' split
  all_goals simp [h]

@[simp] theorem wf_colMissing (c : ColStep) (region xfer : Nat) (h : s.mems.Wf) :
    (colMissing s c region xfer).mems.Wf := by
  unfold colMissing
  split <;> simp [h]

@[simp] theorem wf_collectiveComplete (d : Nat) (h : s.mems.Wf) : (collectiveComplete s d).mems.Wf := by
  unfold collectiveComplete
  split <;> simp [h]

@[simp] theorem wf_colAbort (h : s.mems.Wf) : (colAbort s).mems.Wf := by
  unfold colAbort
  simpa using wf_foldl (fun s e h => wf_shdIncomplete e.1 e.2 h) s.colls h

/-! ### Weight pairs and the sequence -/

@[simp] theorem wf_shrData (x len tick digest : Nat) (poison : Bool) (lines : List ShrLine) (h : s.mems.Wf) :
    (shrData s x len tick digest poison lines).mems.Wf := by
  unfold shrData
  extract_lets dst sp n line put mark s1
  have hput : ∀ (s : State) (i : Nat), s.mems.Wf → (put s i).mems.Wf := fun s i h => wf_spaceWrite _ _ _ _ h
  have hmark : ∀ (s : State) (k : Nat), s.mems.Wf → (mark s k).mems.Wf := by
    refine fun s k h => wf_foldl (fun s i h => ?_) _ h
    extract_lets m
    split
    next hx => exact wf_spaceWrite _ _ _ _ (wf_fst_of_eq hx (by simpa using h))
  have hall : ∀ k, ((List.range k).foldl put s).mems.Wf := fun k => wf_foldl hput _ h
  have h1 : s1.mems.Wf := hall n
  clear_value put mark s1
  split
  · simp [hmark, hall]
  · split
    · simp [hmark, h1]
    · simp [hmark, h1]

@[simp] theorem wf_shrRun (h0 h1 : ShrLine) (lines : List ShrLine) (h : s.mems.Wf) :
    (shrRun s h0 h1 lines).mems.Wf := by
  simp only [shrRun]
  repeat' split
  all_goals simp [h]

/-! ### Requests from outside -/

@[simp] theorem wf_completeRequest (tid st : Nat) (bs : List (BitVec 8)) (cs : List Cause) (h : s.mems.Wf) :
    (completeRequest s tid st bs cs).mems.Wf := by
  unfold completeRequest
  repeat' split
  all_goals simp [h]

@[simp] theorem wf_remoteWrite (l : Nat) (p : Packet) (h : s.mems.Wf) : (remoteWrite s l p).mems.Wf := by
  unfold remoteWrite
  split <;> simp [h]

@[simp] theorem wf_remoteData (p : Packet) (h : s.mems.Wf) : (remoteData s p).mems.Wf := by simp [remoteData, h]

@[simp] theorem wf_remoteAnswer (p : Packet) (h : s.mems.Wf) :
    (remoteAnswer s p).mems.Wf := by simp [remoteAnswer, h]

@[simp] theorem wf_remoteMessage (l : Nat) (p : Packet) (due : Nat) (h : s.mems.Wf) :
    (remoteMessage s l p due).mems.Wf := by simp [remoteMessage, h]

@[simp] theorem wf_deliver (l : Nat) (p : Packet) (due : Nat) (h : s.mems.Wf) : (deliver s l p due).mems.Wf := by
  unfold deliver
  split <;> simp [h]

@[simp] theorem wf_scheduledIn (l : Nat) (p : Packet) (h : s.mems.Wf) : (scheduledIn s l p).mems.Wf := by
  unfold scheduledIn
  split <;> simp [h]

@[simp] theorem wf_scheduledBack (l : Nat) (p : Packet) (h : s.mems.Wf) : (scheduledBack s l p).mems.Wf := by
  unfold scheduledBack
  split <;> simp [h]

@[simp] theorem wf_scheduledArrival (l : Nat) (crc : Bool) (p : Packet) (h : s.mems.Wf) :
    (scheduledArrival s l crc p).mems.Wf := by simp [scheduledArrival, h]

@[simp] theorem wf_transferTimeout (r : Route) (part : Option ColStep) (h : s.mems.Wf) :
    (transferTimeout s r part).mems.Wf := by
  unfold transferTimeout
  extract_lets _ s1 s2 mine s3 s4
  have h1 : s1.mems.Wf := by simpa [s1] using h
  have h2 : s2.mems.Wf := by simpa [s2] using h1
  have h3 : s3.mems.Wf := wf_foldl (fun _ e h => wf_completeRequest e.pkt.tid stTimeout [] [] h) _ h2
  have h4 : s4.mems.Wf := by
    simp only [s4]
    split <;> simp [h1]
  split <;> simp [h1, h3, h4]

@[simp] theorem wf_dueHold (xfer : Nat) (twin : Bool) (part : Option ColStep) (ps : Nat) (h : s.mems.Wf) :
    (dueHold s xfer twin part ps).mems.Wf := by
  refine wf_foldl (fun s r h => ?_) _ h
  simp [h]

@[simp] theorem wf_transferTimeouts (xfer : Nat) (twin : Bool) (part : Option ColStep) (h : s.mems.Wf) :
    (transferTimeouts s xfer twin part).mems.Wf := wf_foldl (fun _ r h => wf_transferTimeout r part h) _ h

@[simp] theorem wf_packetIn (l : Nat) (crc : Bool) (kind : Nat) (p : Packet) (h : s.mems.Wf) :
    (packetIn s l crc kind p).mems.Wf := by simp [packetIn, h]

@[simp] theorem wf_beTimeout (tid : Nat) (h : s.mems.Wf) : (beTimeout s tid).mems.Wf := by
  unfold beTimeout
  split <;> simp [h]

/-! ### The host ring -/

@[simp] theorem wf_ringPutCons (a n : Nat) (h : s.mems.Wf) : (ringPutCons s a n).mems.Wf := by simp [ringPutCons, h]

@[simp] theorem wf_ringEnable (h : s.mems.Wf) : (ringEnable s).mems.Wf := by simp [ringEnable, h]

@[simp] theorem wf_descDone (num base : Nat) (notify mark : Bool) (cookie : BitVec 64) (status detail : Nat)
    (h : s.mems.Wf) : (descDone s num base notify mark cookie status detail).mems.Wf := by simp [descDone, h]

@[simp] theorem wf_hostLoadEnded (code : Nat) (h : s.mems.Wf) : (hostLoadEnded s code).mems.Wf := by
  unfold hostLoadEnded
  split <;> simp [h]

@[simp] theorem wf_hostTick (c : BitVec 64) (h : s.mems.Wf) : (hostTick s c).mems.Wf := by
  unfold hostTick
  split <;> simp [h]

/-! ### The Mule -/

@[simp] theorem wf_muleStore (t a n : Nat) (v : BitVec 32) (h : s.mems.Wf) : (muleStore s t a n v).1.mems.Wf := by
  unfold muleStore
  split <;> simp [h]

/-! ### Image loads -/

@[simp] theorem wf_loadFinish (code : Nat) (h : s.mems.Wf) : (loadFinish s code).mems.Wf := by simp [loadFinish, h]

@[simp] theorem wf_loadFail (code detail : Nat) (h : s.mems.Wf) : (loadFail s code detail).mems.Wf := by
  simp [loadFail, h]

@[simp] theorem wf_loadChecks (h : s.mems.Wf) : (loadChecks s).mems.Wf := by
  simp only [loadChecks]
  repeat' split
  all_goals simp [h]

@[simp] theorem wf_loadInstall (h : s.mems.Wf) : (loadInstall s).mems.Wf := by
  simp only [loadInstall]
  repeat' split
  all_goals simp [h]

@[simp] theorem wf_loadEnd (h : s.mems.Wf) : (loadEnd s).mems.Wf := by simp [loadEnd, h]

@[simp] theorem wf_loadAbort (h : s.mems.Wf) : (loadAbort s).mems.Wf := by
  unfold loadAbort
  repeat' split
  all_goals simp [h]

@[simp] theorem wf_loadControl (v : BitVec 32) (h : s.mems.Wf) :
    (loadControl s v).mems.Wf := by simp [loadControl, h]

@[simp] theorem wf_loadReset (h : s.mems.Wf) : (loadReset s).mems.Wf := by simp [loadReset, h]

/-! ### Contexts and dumps -/

@[simp] theorem wf_ctxSaveRun (h : s.mems.Wf) : (ctxSaveRun s).mems.Wf := by simp [ctxSaveRun, h]

@[simp] theorem wf_dumpStart (buffer : Bool) (h : s.mems.Wf) :
    (dumpStart s buffer).mems.Wf := by simp [dumpStart, h]

@[simp] theorem wf_dumpControl (v : BitVec 32) (h : s.mems.Wf) :
    (dumpControl s v).mems.Wf := by simp [dumpControl, h]

/-! ### The Goose -/

@[simp] theorem wf_drainFabric (h : s.mems.Wf) : (drainFabric s).mems.Wf := by
  unfold drainFabric
  exact wf_foldl (fun s e h => wf_completeRequest _ _ _ _ h) _ (by simpa using h)

@[simp] theorem wf_drainUnits (h : s.mems.Wf) : (drainUnits s).mems.Wf := by simp [drainUnits, h]

@[simp] theorem wf_enterSafe (cause : Nat) (h : s.mems.Wf) : (enterSafe s cause).mems.Wf := by
  unfold enterSafe
  split
  · exact h
  · exact wf_colAbort (by simp [h])

@[simp] theorem wf_formVerdict (h : s.mems.Wf) : (formVerdict s).mems.Wf := by
  unfold formVerdict
  split <;> simp [h]

@[simp] theorem wf_verdictFormed (h : s.mems.Wf) : (verdictFormed s).mems.Wf := by
  unfold verdictFormed
  split <;> simp [h]

@[simp] theorem wf_settleVerdict (h : s.mems.Wf) : (settleVerdict s).mems.Wf := by
  unfold settleVerdict
  split <;> simp [h]

@[simp] theorem wf_tickWatch (interval : Option Nat) (h : s.mems.Wf) : (tickWatch s interval).mems.Wf := by
  simp [tickWatch, h]

@[simp] theorem wf_selfTest (failing : Option Nat) (h : s.mems.Wf) : (selfTest s failing).mems.Wf := by
  unfold selfTest
  repeat' split
  all_goals simp [h]

/-! ### Resets -/

@[simp] theorem wf_resetUnits (h : s.mems.Wf) : (resetUnits s).mems.Wf := by simp [resetUnits, h]

@[simp] theorem wf_resetJobState (h : s.mems.Wf) : (resetJobState s).mems.Wf := by simp [resetJobState, h]

@[simp] theorem wf_jobResetRun (h : s.mems.Wf) : (jobResetRun s).mems.Wf := by simp [jobResetRun, h]

/-! ### Frames -/

@[simp] theorem wf_closeArmed (p : Nat) (h : s.mems.Wf) : (closeArmed s p).mems.Wf := by simp [closeArmed, h]

@[simp] theorem wf_closeFrame (h : s.mems.Wf) : (closeFrame s).mems.Wf := by
  simp only [closeFrame]
  split <;> simp [h]

@[simp] theorem wf_tickLost (h : s.mems.Wf) : (tickLost s).mems.Wf := by simp [tickLost, h]

@[simp] theorem wf_safeAtTick (h : s.mems.Wf) : (safeAtTick s).mems.Wf := by simp [safeAtTick, h]

@[simp] theorem wf_tickStart (c : BitVec 64) (h : s.mems.Wf) : (tickStart s c).mems.Wf := by simp [tickStart, h]

@[simp] theorem wf_tick (silent : List Nat) (h : s.mems.Wf) : (tick s silent).mems.Wf := by
  unfold tick
  split
  · exact h
  · extract_lets s1 s2 c s3 s4
    have h1 : s1.mems.Wf := by simp [s1, h]
    have h2 : s2.mems.Wf := by simp [s2, h1]
    simp [s4, s3, h2]

@[simp] theorem wf_drainComplete (h : s.mems.Wf) : (drainComplete s).mems.Wf := by
  simp only [drainComplete]
  repeat' split
  all_goals simp [h]

/-! ### Power -/

@[simp] theorem wf_mainLost (s : State) : (mainLost s).mems.Wf := ⟨Memory.wf_nil, Memory.wf_nil, Memory.wf_nil⟩

@[simp] theorem wf_mainDown (why : Nat) (h : s.mems.Wf) : (mainDown s why).mems.Wf := by
  unfold mainDown
  split <;> simp [h]

@[simp] theorem wf_mainOff (h : s.mems.Wf) : (mainOff s).mems.Wf := by simp [mainOff, h]

@[simp] theorem wf_mainEnHigh (h : s.mems.Wf) : (mainEnHigh s).mems.Wf := by simp [mainEnHigh, h]

@[simp] theorem wf_powerDownStep (h : s.mems.Wf) : (powerDownStep s).mems.Wf := by
  unfold powerDownStep
  split <;> simp [h]

@[simp] theorem wf_tripWith (s : State) (code : Nat) : (tripWith s code).mems.Wf := by simp [tripWith]

@[simp] theorem wf_protectionTrip (codes : List Nat) (h : s.mems.Wf) : (protectionTrip s codes).mems.Wf := by
  simp only [protectionTrip]
  repeat' split
  all_goals simp [h]

@[simp] theorem wf_seqFail (h : s.mems.Wf) : (seqFail s).mems.Wf := by
  unfold seqFail
  split <;> simp [h]

@[simp] theorem wf_inputWaitExpiry (high : Bool) (h : s.mems.Wf) : (inputWaitExpiry s high).mems.Wf := by
  simp [inputWaitExpiry, h]

@[simp] theorem wf_coldPowerOn (s : State) (p52 : Bool) : (coldPowerOn s p52).mems.Wf := by simp [coldPowerOn]

/-! ### Boot -/

@[simp] theorem wf_remapMemory (old : State) (h : s.mems.Wf) : (remapMemory old s).mems.Wf := by
  obtain ⟨hspad, hhbm, hddr⟩ := h
  unfold remapMemory
  extract_lets hbm ddr line slice tileReg
  exact ⟨Memory.wf_reKey _ hspad, Memory.wf_reKey _ hhbm, Memory.wf_reKey _ hddr⟩

@[simp] theorem wf_bootStage6 {old : State} (b : BringUp) (h : old.mems.Wf) : (bootStage6 old b).mems.Wf := by
  unfold bootStage6
  extract_lets s1 s2 s3 s4 s5 s6 s7 s8 warm s9
  have h3 : s3.mems.Wf := wf_remapMemory old (by simp [s2, s1, h])
  have h9 : s9.mems = s3.mems := by simp [s9, s8, s7, s6, s5, s4]
  split
  · simp [s1, h]
  · simp [h9, h3]

/-! ### Warm reset -/

@[simp] theorem wf_warmReset (h : s.mems.Wf) : (warmReset s).mems.Wf := by simp [warmReset, h]

@[simp] theorem wf_mmcSafeReq (h : s.mems.Wf) : (mmcSafeReq s).mems.Wf := by simp [mmcSafeReq, h]

@[simp] theorem wf_mmcWarmReset (h : s.mems.Wf) : (mmcWarmReset s).mems.Wf := by simp [mmcWarmReset, h]

@[simp] theorem wf_mmcControl (v : BitVec 32) (h : s.mems.Wf) : (mmcControl s v).mems.Wf := by
  unfold mmcControl
  extract_lets s1 s2 s3 s4 s5
  have h1 : s1.mems.Wf := by simp [s1, h]
  have h2 : s2.mems.Wf := by simp [s2, h1]
  have h3 : s3.mems.Wf := by simp [s3, h2]
  simp [s5, s4, h3]

@[simp] theorem wf_gooseStop (h : s.mems.Wf) : (gooseStop s).mems.Wf := by simp [gooseStop, h]

/-! ### Register accesses -/

@[simp] theorem wf_resetControl (v : BitVec 32) (h : s.mems.Wf) : (resetControl s v).mems.Wf := by
  simp [resetControl, h]

theorem wf_moduleWrite (m : Master) (o : Nat) (v : BitVec 32) (h : s.mems.Wf) :
    ∀ s' ∈ moduleWrite s m o v, s'.mems.Wf := by
  unfold moduleWrite
  iterate 6 refine wf_some_ite (by simp [h]) ?_
  refine wf_some_ite ?_ ?_
  · split <;> simp [h]
  iterate 11 refine wf_some_ite (by simp [h]) ?_
  split
  · simp [h]
  · split
    · simp [h]
    · intro s' hs'
      obtain ⟨p, -, rfl⟩ := Option.map_eq_some_iff.1 hs'
      simp [h]

@[simp] theorem wf_regWrite (m : Master) (o : Nat) (v : BitVec 32) (h : s.mems.Wf) :
    (regWrite s m o v).1.mems.Wf := by
  unfold regWrite
  extract_lets st dropped
  split
  · simp [h]
  · split
    · simp [h]
    · split
      · simp [h]
      · split
        · simp [h]
        · split
          · exact h
          · split
            · simp [h]
            · split
              · next s' hs' => exact wf_moduleWrite _ _ _ h s' hs'
              · simp [h]

@[simp] theorem wf_writeAnswered (m : Master) (o : Nat) (v : BitVec 32) (h : s.mems.Wf) :
    (writeAnswered s m o v).mems.Wf := by simp [writeAnswered, h]

/-! ### Host commands -/

@[simp] theorem wf_hostRegsWrite (m : Master) (o : Nat) (ws : List (BitVec 32)) (h : s.mems.Wf) :
    (hostRegsWrite s m o ws).1.mems.Wf := by
  induction ws generalizing s o with
  | nil => exact h
  | cons w rest ih => simp [hostRegsWrite, ih, h]

@[simp] theorem wf_hostWrite (p : Nat) (pkt : HostPacket) (reused : Bool) (h : s.mems.Wf) :
    (hostWrite s p pkt reused).mems.Wf := by simp [hostWrite, h]

@[simp] theorem wf_regwPairs (m : Master) (d : Desc) (warm : Bool) (k n : Nat) (h : s.mems.Wf) :
    (regwPairs s m d warm k n).1.mems.Wf := by
  induction n generalizing s k with
  | zero => exact h
  | succ n ih => simp [regwPairs, ih, h]

theorem wf_descRun (d : Desc) {fin : State → Bool → Nat → Nat → State} {wait : HlkWait → State → State}
    (hfin : ∀ s mark st detail, s.mems.Wf → (fin s mark st detail).mems.Wf)
    (hwait : ∀ w s, s.mems.Wf → (wait w s).mems.Wf) (h : s.mems.Wf) : (descRun s d fin wait).mems.Wf := by
  unfold descRun
  split
  · extract_lets warm
    split
    next s' r hx =>
    have h' : s'.mems.Wf := wf_fst_of_eq hx (by simp [h])
    split
    · exact h'
    · split
      · exact hfin _ _ _ _ h'
      · exact hfin _ _ _ _ h'
  · extract_lets t
    have ht : t.mems.Wf := by simpa [t] using h
    split
    · exact hwait _ _ ht
    · exact hfin _ _ _ _ ht
  · extract_lets c
    split
    · exact hfin _ _ _ _ h
    · exact hwait _ _ h
  · exact hfin _ _ _ _ h
  · exact hfin _ _ _ _ h

@[simp] theorem wf_descStep (want : Nat) (h : s.mems.Wf) : (descStep s want).mems.Wf := by
  unfold descStep
  split
  · extract_lets base a start
    split
    next t d cs hx =>
    have ht : t.mems.Wf := wf_fst_of_eq hx (by simpa using h)
    extract_lets notify cookie fin wait
    have hfin : ∀ s mark st detail, s.mems.Wf → (fin s mark st detail).mems.Wf := fun s _ _ _ h => by simp [fin, h]
    have hwait : ∀ w s, s.mems.Wf → (wait w s).mems.Wf := fun w s h => by simp [wait, h]
    have hstart : (start t).mems.Wf := by simp [start, ht]
    clear_value fin wait
    split
    · exact hfin _ _ _ _ hstart
    · split
      · exact h
      · split
        · exact hfin _ _ _ _ hstart
        · split
          · exact hfin _ _ _ _ hstart
          · exact wf_descRun d hfin hwait hstart
  · exact h

/-! ### Scrub and refresh -/

@[simp] theorem wf_scrubLine (t bank : Nat) (h : s.mems.Wf) : (scrubLine s t bank).mems.Wf := by
  simp only [scrubLine]
  repeat' split
  all_goals simp [h]

/-! ### The side-band port -/

@[simp] theorem wf_regWriteCmd (o : Nat) (vs : List (BitVec 32)) (h : s.mems.Wf) :
    (regWriteCmd s o vs).mems.Wf := by
  simp [regWriteCmd, h]

end

/-! ## Commands -/

section

/-! What a command answers: the next state at once, or, where it names a tile, the next state of `State.onTile`.
In both cases the next state keeps the memories well formed. O3 and O4 follow from this one fact. -/

/-- An outcome is what a command answers in `s`: the command names the tile of the second argument, if any, and its
next state keeps the memories well formed. -/
inductive Answers (s : State) : Option Nat → Host.Outcome State Fault Refusal → Prop
  | every {s' : State} (h : s.mems.Wf → s'.mems.Wf) : Answers s none (.next s')
  | tile {t : Nat} {f : State → State} (h : s.mems.Wf → (f s).mems.Wf) : Answers s (some t) (s.onTile t f)

variable {s : State}

theorem answers_ite {c : Prop} [Decidable c] {t t' : Option Nat} {o o' : Host.Outcome State Fault Refusal}
    (h : Answers s t o) (h' : Answers s t' o') : Answers s (if c then t else t') (if c then o else o') := by
  split <;> assumption

/-- An instruction of the Mule runs on the state that its fetch leaves, which may have corrected a word. -/
theorem wf_muleRun (t : Nat) (w : BitVec 32) {f : State → State} (hf : ∀ s, s.mems.Wf → (f s).mems.Wf)
    (h : s.mems.Wf) : (muleRun s t w f).mems.Wf := by
  have hm : (muleFetch s t).1.mems.Wf := by simpa using h
  unfold muleRun
  split
  · exact h
  · split
    · next hx => exact wf_fst_of_eq hx hm
    · next hx =>
      split
      · exact hf _ (wf_fst_of_eq hx hm)
      · exact h

section
variable {t : Nat} {f : State → State} (hf : ∀ s, s.mems.Wf → (f s).mems.Wf)
include hf

theorem answers_onIssue : Answers s (some t) (onIssue s t f) :=
  .tile fun h => by simp [h, hf]

theorem answers_onSlot {bad : Bool} : Answers s (some t) (onSlot s t bad f) :=
  answers_onIssue fun s h => by simp [h, hf]

theorem answers_onRun : Answers s (some t) (onRun s t f) :=
  .tile fun h => by simp [h, hf]

theorem answers_onMule {w : BitVec 32} : Answers s (some t) (onMule t w s f) :=
  .tile (wf_muleRun t w hf)

theorem answers_onEngine {n : Fin 16} {op : Nat} {m : BitVec 64 → Bool} : Answers s none (onEngine n op m s f) :=
  .every fun h => by simp [h, hf]

end

theorem answers_muleLd {t op n : Nat} {sx : Bool} {d a : BitVec 5} {imm : BitVec 16} :
    Answers s (some t) (muleLd t op n sx d a imm s) := by
  refine answers_onMule fun s h => ?_
  split
  · next hx => simpa using wf_fst_of_eq hx (by simpa using h)
  · next hx => simpa using wf_fst_of_eq hx (by simpa using h)

theorem answers_muleSt {t op n : Nat} {d a : BitVec 5} {imm : BitVec 16} :
    Answers s (some t) (muleSt t op n d a imm s) := by
  refine answers_onMule fun s h => ?_
  split
  · next hx => simpa using wf_fst_of_eq hx (wf_muleStore _ _ _ _ h)
  · next hx => simpa using wf_fst_of_eq hx (wf_muleStore _ _ _ _ h)

theorem answers_messageReceive (arrival : Option (Fin 32 × Bool × Packet)) :
    Answers s none (execMessageReceive arrival s) := by
  refine .every fun h => ?_
  split
  · simp [h]
  · split <;> simp [h]

/-- Every command answers; the arms are grouped by the operation of the model that they run through. -/
theorem exec_answers (i : Instr) (s : State) : Answers s (tileOf i) (exec i s) := by
  unfold exec
  cases i with
  | bundleIssue | kset | rep | repIterationEnd | jmp | jq | qcmp | endOp | vadd | vsub | vmul | vfma | vmin | vmax
  | vabs | vneg | vcmp | vsel | vmov | viadd | visub | vimul | vand | vor | vxor | vshl | vshr | vsra | vicmp
  | viota | vcvt | vexp | vexp2 | vlog | vlog2 | vrcp | vrsqrt | vsqrt | vtanh | vsigm | verf | vsinpi | vcospi
  | vrngu | vrngb | vrngn | vred | vscan | vsegred | vsort | vmerge | vqpop | vwadd | vwcvt | vld | vst | vocld
  | vocst | shalt | msig | mfence | cpTake | cpGive | cpMark =>
    exact answers_onIssue fun s h => by simp [h]
  | pass | srun | sgather | sscatter | msend =>
    exact answers_onSlot fun s h => by simp [h]
  | passStep | accumulate | bf16Combine | checksumCompare | drain | vecResultWrite | rowStreamArrival =>
    exact answers_onRun fun s h => by simp [h]
  | streamReply | streamComplete | fenceReleaseSend | handlerDispatch | mulStart | mulStop | mulResume
  | mulImemWrite | imemStageWrite | imemBundleWrite | spdScrubStart | scrubLine | eccWriteback | scheduledLanding
  | synSig | msgLandClose | pairMissing =>
    exact .tile fun h => by simp [h]
  | muleWaitEnd =>
    exact .tile fun h => by split <;> simp [h]
  | add | sub | and | or | xor | shl | shr | sra | slt | sltu | mul | mulhu | mulh | addi | andi | ori | xori
  | shli | shri | srai | slti | lui | jal | jalr | muleWait | muleSig | muleFence | send | yield | hret | muleHalt
  | cyc | beq | bne | blt | bge | bltu | bgeu =>
    exact answers_onMule fun s h => by simp [h]
  | ldw | ldh | ldhu | ldb | ldbu =>
    exact answers_muleLd ..
  | stw | sth | stb =>
    exact answers_muleSt ..
  | agpNop | seta | setah | adda | mova | setc | copy | agpRep | agpWait | agpSig | agpFence | agpHalt =>
    exact answers_onEngine fun s h => by simp [h]
  | semaphoreSignal =>
    exact answers_ite (.every fun h => by simp [h]) (.tile fun h => by simp [h])
  | illegal =>
    exact answers_ite (.every fun h => by simp [h]) (.tile fun h => by simp [h])
  | messageReceive =>
    exact answers_messageReceive _
  | tick | tickPacket | registerWrite | rcRead | loReadLatch | ptDataRead | ptDataWrite | dmcLoadStart | agpStart
  | agpStop | agpResume | copyComplete | hbmRefreshWindow | forcedRefresh | ddrRefreshWindow
  | synDsig | dumpStart | flitReceive | linkSilence | laneBad | linkTrained | retrain | slotSend
  | scheduledArrival | dueHold | transferTimeout | routeNotice | beTimeout | write | read | readData | answer
  | collectiveStart | colContribution | collectiveComplete | crossingHold | queueFullHold | crossSlip
  | droopStretch | clkDroop | clkMon | thermalReport | digestItem | tickWatch | selftest | frmWpairSwitch
  | copyReleased | shrStart | shadowRestoreEnd | hostWrite | hostRead | claim | release | renew | portRetrain
  | regRead | regWrite | keyEnroll | setEndpointId | getMctpVersionSupport | entdaa | setdasa
  | platformEventMessage | firmwareUpdate | recordCommit | getVersion | getCapabilities | negotiateAlgorithms
  | getDigests | getCertificate | challenge | getMeasurements | vendorDefinedRequest | lmsFail | standbyPowerGood
  | bootStageComplete | candidateExchange | dmcRowrst | coldPowerOn | inputWaitExpiry | protectionTrip
  | samplePreload | extest | holdoverTick | tickLost | drainComplete | releaseCycle0 | runStart | runStop
  | safeReq | atNextTick | atCount | now | cancel | subtickSample | loadChecks | loadInstall | loadEnd
  | dmcLoadAbort | messageAnswer | save | restore | contextSaveRun | contextRestoreRun | forward | fabTwinClear
  | tidFreeSend | verdictFormed | gooseStop | ringEnable | ringDisable | cplEnable | cplDisable | regw | load
  | waitTick | mark | nop | getEndpointId | getMessageTypeSupport | getVendorDefinedMessageSupport | lmsBuild
  | watchdogReset | mainOn | mainOff | mmcSafeReq | ownRelease | warmReset | svnCommit | electionSettle | takeover
  | elect | handover | warm | job | jobResetRun | rowResetEnd | mainEnNHigh | staggerExpiry | railStep
  | mainPowerGood | seqFail | powerDownStep | bypass | idcode | cmdBad | mainEnNLow | p52vInRange =>
    exact .every fun h => by simp [h]

end

theorem wf_of_answers {s s' : State} {o : Option Nat} {out : Host.Outcome State Fault Refusal}
    (ha : Answers s o out) (hout : out = .next s') (h : s.mems.Wf) : s'.mems.Wf := by
  cases ha with
  | every hk =>
    cases hout
    exact hk h
  | tile hk =>
    unfold State.onTile at hout
    split at hout
    · cases hout
      exact hk h
    · cases hout

/-- Settles O3: the commands keep the three memories well formed, arm by arm, and so does an idle step. -/
theorem stepKeepsMemoriesCanonical : Obligations.StepKeepsMemoriesCanonical := by
  unfold Obligations.StepKeepsMemoriesCanonical
  intro s s' h hstep
  rw [memoriesWf_iff] at h ⊢
  unfold step at hstep
  split at hstep
  · cases hstep
    simpa using h
  · exact wf_of_answers (exec_answers _ _) hstep (by simpa using h)

theorem fault_of_answers {s : State} {t : Nat} {out : Host.Outcome State Fault Refusal}
    (ha : Answers s (some t) out) (ht : s.tileCount ≤ t) : out = .fault (.noSuchTile t) := by
  cases ha with
  | tile => exact if_neg (Nat.not_lt.mpr ht)

theorem next_of_answers {s : State} {o : Option Nat} {out : Host.Outcome State Fault Refusal} (ha : Answers s o out)
    (ht : ∀ t, o = some t → t < s.tileCount) : ∃ s', out = .next s' := by
  cases ha with
  | every => exact ⟨_, rfl⟩
  | tile => exact ⟨_, if_pos (ht _ rfl)⟩

/-- Settles O4: only `State.onTile` faults, where the tile that the command names does not exist. -/
theorem onlyMissingTilesFault : Obligations.OnlyMissingTilesFault := by
  unfold Obligations.OnlyMissingTilesFault
  exact fun i s => ⟨fun t hi ht => fault_of_answers (hi ▸ exec_answers i s) ht, next_of_answers (exec_answers i s)⟩

end Sys2Proof.Machine

/-! PROOFS. O41 to O43: commits, running and stopping, the tick, tick packets and holdover. What the frame controller
holds is a view of the state; every operation of the units leaves it alone, so that a command's effect on it is read off
the command itself. -/

namespace Sys2Proof.Machine

/-! ### The view of the frame controller -/

/-- The registers of the view: FRM_CTRL, FRM_TICK, FRM_STATUS and GOS_STATUS. -/
def viewRegs : List Nat := [FRM_CTRL, FRM_TICK_LO, FRM_TICK_HI, FRM_STATUS, GOS_STATUS]

/-- An offset that is none of `viewRegs`, in the numerals that `omega` decides. -/
abbrev outsideView (o : Nat) : Prop := o ≠ 0 ∧ o ≠ 0x34 ∧ o ≠ 0x38 ∧ o ≠ 0x40 ∧ o ≠ 0xB0008

/-- The values of the view's registers in a map of registers. -/
def viewRegsOf (regs : SMap (BitVec 32)) : List (BitVec 32) := viewRegs.map fun o => mapGet (regReset o) regs o

/-- What commits, ticks and the entry into the safe state decide by or change, and the commands that wait. -/
structure FrameView where
  pending : List Instr
  frame : Frame
  rstJob : Nat
  shadow : SMap (BitVec 32)
  routesNext : Option (List Route)
  regs : List (BitVec 32)

/-- The view of the frame controller in a state. -/
def State.view : State → FrameView
  | { pending, frame, rstJob, shadow, routesNext, regs, .. } =>
    ⟨pending, frame, rstJob, shadow, routesNext, viewRegsOf regs⟩

@[simp] theorem view_eta (s : State) :
    FrameView.mk s.pending s.frame s.rstJob s.shadow s.routesNext (viewRegsOf s.regs) = s.view := rfl

/-- A state written out field by field, as an update of fields gives it, has the view of those fields. -/
@[simp] theorem view_mk : type_of% @State.view.eq_1 := State.view.eq_1

section
variable {s s' : State}

/-- What leaves the view's fields and all registers alone leaves the view alone. -/
theorem view_of_fields (hpending : s'.pending = s.pending := by rfl) (hframe : s'.frame = s.frame := by rfl)
    (hrstJob : s'.rstJob = s.rstJob := by rfl) (hshadow : s'.shadow = s.shadow := by rfl)
    (hroutes : s'.routesNext = s.routesNext := by rfl) (hregs : s'.regs = s.regs := by rfl) : s'.view = s.view := by
  rw [← view_eta, ← view_eta, hpending, hframe, hrstJob, hshadow, hroutes, hregs]

theorem pending_of_view (h : s'.view = s.view) : s'.pending = s.pending := congrArg FrameView.pending h
theorem frame_of_view (h : s'.view = s.view) : s'.frame = s.frame := congrArg FrameView.frame h
theorem rstJob_of_view (h : s'.view = s.view) : s'.rstJob = s.rstJob := congrArg FrameView.rstJob h
theorem shadow_of_view (h : s'.view = s.view) : s'.shadow = s.shadow := congrArg FrameView.shadow h
theorem routesNext_of_view (h : s'.view = s.view) : s'.routesNext = s.routesNext := congrArg FrameView.routesNext h

theorem viewRegsOf_eq_iff : viewRegsOf s'.regs = viewRegsOf s.regs ↔ ∀ o ∈ viewRegs, s'.reg o = s.reg o :=
  List.map_inj_left

theorem reg_of_view (h : s'.view = s.view) {o : Nat} (ho : o ∈ viewRegs) : s'.reg o = s.reg o :=
  viewRegsOf_eq_iff.1 (congrArg FrameView.regs h) o ho

end

@[simp] theorem view_ite (c : Prop) [Decidable c] (s s' : State) :
    (if c then s else s').view = if c then s.view else s'.view := apply_ite ..

@[simp] theorem view_fst_ite {α : Type} (c : Prop) [Decidable c] (x y : State × α) :
    (if c then x else y).1.view = if c then x.1.view else y.1.view := apply_ite (fun x : State × α => x.1.view) ..

@[simp] theorem view_snd_ite {α : Type} (c : Prop) [Decidable c] (x y : α × State) :
    (if c then x else y).2.view = if c then x.2.view else y.2.view := apply_ite (fun x : α × State => x.2.view) ..

theorem view_fst_of_eq {α : Type} {x : State × α} {s s' : State} {a : α} (hx : x = (s', a))
    (h : x.1.view = s.view) : s'.view = s.view := by
  rw [← h, hx]

/-- A fold keeps what each of its steps keeps. -/
theorem foldl_keeps {α β γ : Type} (g : α → γ) {f : α → β → α} {l : List β}
    (h : ∀ a, ∀ b ∈ l, g (f a b) = g a) (a : α) : g (l.foldl f a) = g a := by
  induction l generalizing a with
  | nil => rfl
  | cons x xs ih => rw [List.foldl_cons, ih fun a b hb => h a b (by simp [hb]), h a x (by simp)]

@[simp] theorem view_foldl {β : Type} {f : State → β → State} (h : ∀ s b, (f s b).view = s.view) (l : List β)
    (s : State) : (l.foldl f s).view = s.view := foldl_keeps State.view (fun s b _ => h s b) s

@[simp] theorem view_foldl_fst {α β : Type} {f : State × α → β → State × α} (h : ∀ s b, (f s b).1.view = s.1.view)
    (l : List β) (s : State × α) : (l.foldl f s).1.view = s.1.view :=
  foldl_keeps (fun x => x.1.view) (fun s b _ => h s b) s

/-! ## Operations that leave the view alone

Each lemma rests on those of the operations that its function calls, in the order of the model's files. Where an
operation writes a register, its lemma unfolds the register's offset, and the offset lies outside the view. -/

section
variable (s : State)

/-! ### Registers -/

/-- A write of a register outside the view. -/
@[simp] theorem view_setReg {o : Nat} (v : BitVec 32) (h : outsideView o) : (s.setReg o v).view = s.view := by
  have hout : o ∉ viewRegs := by
    simpa [viewRegs, FRM_CTRL, FRM_TICK_LO, FRM_TICK_HI, FRM_STATUS, GOS_STATUS] using h
  have hregs : viewRegsOf (s.setReg o v).regs = viewRegsOf s.regs :=
    viewRegsOf_eq_iff.2 fun o' ho' => State.reg_setReg_ne s v fun e => hout (e ▸ ho')
  rw [← view_eta (s.setReg o v), hregs]
  rfl

@[simp] theorem view_orReg {o : Nat} (v : BitVec 32) (h : outsideView o) : (s.orReg o v).view = s.view :=
  view_setReg s _ h

@[simp] theorem view_setRegFld {o : Nat} (lo w x : Nat) (h : outsideView o) :
    (s.setRegFld o lo w x).view = s.view := view_setReg s _ h

@[simp] theorem view_addReg {o : Nat} (n : Nat) (h : outsideView o) : (s.addReg o n).view = s.view :=
  view_setReg s _ h

@[simp] theorem view_incReg {o : Nat} (h : outsideView o) : (s.incReg o).view = s.view := view_setReg s _ h

@[simp] theorem view_setReg64 {o : Nat} (v : BitVec 64) (h : outsideView o ∧ outsideView (o + 4)) :
    (s.setReg64 o v).view = s.view := by
  rw [State.setReg64, view_setReg _ _ h.2, view_setReg _ _ h.1]

/-! ### Events -/

@[simp] theorem view_recordFault (e : GEvent) : (recordFault s e).view = s.view := by
  simp (disch := simp only [GOS_REC_FAULT]; omega) [recordFault]

@[simp] theorem view_localCount (e : GEvent) : (localCount s e).view = s.view := by
  unfold localCount
  split <;> simp (disch := simp only [GOS_L_EVENT, GOS_L_CORR, GOS_L_SUSPECT, GOS_L_HARD, regionBase]; omega)

@[simp] theorem view_raiseFrame (e : GEvent) : (s.raiseFrame e).view = s.view := by simp [State.raiseFrame]

@[simp] theorem view_raiseClosed (e : GEvent) : (s.raiseClosed e).view = s.view := by simp [State.raiseClosed]

@[simp] theorem view_raise (e : GEvent) : (s.raise e).view = s.view := by simp [State.raise]

@[simp] theorem view_raiseTile (t : Nat) (k : EvKind) (detail : Nat) : (s.raiseTile t k detail).view = s.view := by
  simp [State.raiseTile]

@[simp] theorem view_raiseRegion (r : Nat) (k : EvKind) (detail : Nat) :
    (s.raiseRegion r k detail).view = s.view := by
  simp [State.raiseRegion]

/-! ### Tiles, and updates of one field -/

@[simp] theorem view_free : (s.free).2.view = s.view := view_of_fields

@[simp] theorem view_modTile (t : Nat) (f : Tile → Tile) : (s.modTile t f).view = s.view := view_of_fields

@[simp] theorem view_modMule (t : Nat) (f : Mule → Mule) : (s.modMule t f).view = s.view := view_of_fields

@[simp] theorem view_setChan (t c : Nat) (x : Channel) : (s.setChan t c x).view = s.view := view_of_fields

@[simp] theorem view_fenceDone (t : Nat) (op : FenceOp) : (fenceDone s t op).view = s.view := view_of_fields

@[simp] theorem view_noteWork (r cyc : Nat) : (s.noteWork r cyc).view = s.view := view_of_fields

@[simp] theorem view_modLink (l : Nat) (f : Link → Link) : (s.modLink l f).view = s.view := view_of_fields

@[simp] theorem view_modEngine (n : Nat) (f : Agp → Agp) : (s.modEngine n f).view = s.view := view_of_fields

@[simp] theorem view_modCopy (n k : Nat) (f : AgpCopy → AgpCopy) : (s.modCopy n k f).view = s.view := view_of_fields

@[simp] theorem view_modPiece (n k off : Nat) (f : AgpPiece → AgpPiece) : (s.modPiece n k off f).view = s.view :=
  view_of_fields

@[simp] theorem view_modColl (d : Nat) (f : ColRun → ColRun) : (s.modColl d f).view = s.view := view_of_fields

@[simp] theorem view_modWpair (j : Nat) (f : WPair → WPair) : (s.modWpair j f).view = s.view := view_of_fields

@[simp] theorem view_modClosed (f : Closed → Closed) : (s.modClosed f).view = s.view := view_of_fields

@[simp] theorem view_sendNotice (l : Nat) (n : Notice) : (s.sendNotice l n).view = s.view := view_of_fields

@[simp] theorem view_keepCharges (stretch hold : Frac) : (keepCharges s stretch hold).view = s.view := view_of_fields

@[simp] theorem view_sendTicks : (sendTicks s).view = s.view := view_of_fields

/-! ### Spaces 0 to 2 -/

@[simp] theorem view_produce (t v : Nat) : (s.produce t v).2.view = s.view := by simp [State.produce]

@[simp] theorem view_queueWriteBack (t word : Nat) : (queueWriteBack s t word).view = s.view := by
  simp (disch := simp only [SPD_WB_DROP, SPD_EVENT, tileBase]; omega) [queueWriteBack]

@[simp] theorem view_spadWordErr (t word : Nat) : (spadWordErr s t word).1.view = s.view := by
  simp only [spadWordErr]
  split <;> simp (disch := simp only [SPD_ECC_CORR, SPD_ECC_UNC, SPD_UNC_LINE, SPD_EVENT, tileBase]; omega)

@[simp] theorem view_spadRead (t off n : Nat) : (s.spadRead t off n).1.view = s.view := by simp [State.spadRead]

@[simp] theorem view_tapLine (t line : Nat) : (tapLine s t line).view = s.view := by
  unfold tapLine
  split <;> simp

@[simp] theorem view_spadWriteLine (t off : Nat) (bs : List (BitVec 8)) (cause : Cause) :
    (spadWriteLine s t off bs cause).view = s.view := by
  simp [spadWriteLine]

@[simp] theorem view_spadWrite (t off : Nat) (bs : List (BitVec 8)) (cs : List Cause) :
    (s.spadWrite t off bs cs).view = s.view := by
  simp [State.spadWrite]

@[simp] theorem view_spadProduce (t off : Nat) (bs : List (BitVec 8)) (cs : List Cause) :
    (s.spadProduce t off bs cs).view = s.view := by
  simp [State.spadProduce]

@[simp] theorem view_hbmLineErr (line : Nat) : (hbmLineErr s line).1.view = s.view := by
  unfold hbmLineErr
  split <;> simp (disch := simp only [HBM_ECC_CORR, HBM_ECC_UNC, HBM_UNC_ADDR_LO, HBM_UNC_ADDR_HI, hbmBase]; omega)

@[simp] theorem view_ddrLineErr (line : Nat) : (ddrLineErr s line).1.view = s.view := by
  unfold ddrLineErr
  split <;> simp (disch := simp only [DDR_ECC_CORR, DDR_ECC_UNC, DDR_UNC_ADDR_LO, DDR_UNC_ADDR_HI, ddrBase]; omega)

@[simp] theorem view_spaceRead (space off n : Nat) : (s.spaceRead space off n).1.view = s.view := by
  unfold State.spaceRead
  split <;> simp

@[simp] theorem view_spaceWrite (space off : Nat) (bs : List (BitVec 8)) (cs : List Cause) :
    (s.spaceWrite space off bs cs).view = s.view := by
  unfold State.spaceWrite
  split <;> simp

@[simp] theorem view_localRead (copies : SMap Bool) (a n : Nat) : (s.localRead copies a n).1.view = s.view := by
  simp [State.localRead]

@[simp] theorem view_localWrite (copies : SMap Bool) (a : Nat) (bs : List (BitVec 8)) (cs : List Cause) :
    (s.localWrite copies a bs cs).1.view = s.view := by
  simp [State.localWrite]

/-! ### The network interface as a source -/

@[simp] theorem view_fabTimeout (region xfer : Nat) : (s.fabTimeout region xfer).view = s.view := by
  simp (disch := simp only [FAB_TIMEOUTS, FAB_EVENT]; omega) [State.fabTimeout]

@[simp] theorem view_emit (l : Nat) (p : Packet) : (s.emit l p).view = s.view := by simp [State.emit]

@[simp] theorem view_discard : (s.discard).view = s.view := by
  simp (disch := simp only [FAB_DISCARD, FAB_EVENT]; omega) [State.discard]

@[simp] theorem view_bePath (f m : Nat) : (s.bePath f m).1.view = s.view := by simp [State.bePath]

@[simp] theorem view_bePacket (f m : Nat) (p : Packet) : (s.bePacket f m p).view = s.view := by
  unfold State.bePacket
  split
  · next hx => exact (view_emit ..).trans (view_fst_of_eq hx (view_bePath ..))
  · next hx => exact (view_discard _).trans (view_fst_of_eq hx (view_bePath ..))

@[simp] theorem view_beSend (e : NetEntry) : (s.beSend e).view = s.view := by
  simp only [State.beSend]
  split <;> simp

@[simp] theorem view_beIssue (e : NetEntry) (tid : Nat) : (s.beIssue e tid).view = s.view := by simp [State.beIssue]

@[simp] theorem view_issue (source : ReqSource) (p : Packet) : (s.issue source p).1.view = s.view := by
  simp only [State.issue]
  repeat' split
  all_goals simp (disch := simp only [FAB_TID_WAIT]; omega)

@[simp] theorem view_tidFreeSend : (tidFreeSend s).view = s.view := by
  unfold tidFreeSend
  split <;> simp

@[simp] theorem view_dropEntry (tid : Nat) : (s.dropEntry tid).view = s.view := by simp [State.dropEntry]

/-! ### Streams -/

@[simp] theorem view_raiseStream (t c code elem : Nat) : (raiseStream s t c code elem).view = s.view := by
  simp (disch := simp only [STR_FAULT, STR_EVENT, tileBase]; omega) [raiseStream]

@[simp] theorem view_runFault (t c : Nat) (r : StreamRun) (code elem : Nat) :
    (runFault s t c r code elem).1.view = s.view := by
  simp [runFault]

@[simp] theorem view_notePoison (t c : Nat) (cs : List Cause) : (notePoison s t c cs).view = s.view := by
  simp (disch := simp only [STR_EVENT, tileBase]; omega) [notePoison]

@[simp] theorem view_replyWrite (t c off : Nat) (bs : List (BitVec 8)) (cs : List Cause) :
    (replyWrite s t c off bs cs).view = s.view := by
  simp [replyWrite]

@[simp] theorem view_applyReply (t c : Nat) (r : StreamRun) (e : StreamElem) :
    (applyReply s t c r e).1.view = s.view := by
  simp only [applyReply]
  repeat' split
  all_goals simp

@[simp] theorem view_afterReply (t c : Nat) (r : StreamRun) (e : StreamElem) :
    (afterReply s t c r e).view = s.view := by
  simp [afterReply]

@[simp] theorem view_replyOldest (t c : Nat) (r : StreamRun) : (replyOldest s t c r).view = s.view := by
  simp only [replyOldest]
  repeat' split
  all_goals simp

@[simp] theorem view_replyAnswered (t c fuel : Nat) : (replyAnswered s t c fuel).view = s.view := by
  induction fuel generalizing s with
  | zero => rfl
  | succ k ih =>
    unfold replyAnswered
    repeat' split
    all_goals simp [ih]

@[simp] theorem view_streamAnswer (t c elem off st : Nat) (bs : List (BitVec 8)) (cs : List Cause) :
    (streamAnswer s t c elem off st bs cs).view = s.view := by
  unfold streamAnswer
  split <;> simp

@[simp] theorem view_streamDrain (t c : Nat) : (streamDrain s t c).view = s.view := by
  simp only [streamDrain]
  repeat' split
  all_goals simp

@[simp] theorem view_drainStreams : (drainStreams s).view = s.view := by simp [drainStreams]

/-! ### Messages -/

@[simp] theorem view_inboxOffer (t : Nat) (m : Msg) : (inboxOffer s t m).1.view = s.view := by
  unfold inboxOffer
  split <;> simp

@[simp] theorem view_nackFault (t code : Nat) : (nackFault s t code).view = s.view := by
  simp (disch := simp only [MSG_EVENT, tileBase]; omega) [nackFault]

@[simp] theorem view_slotNack (t : Nat) (o : Outstanding) (code : Nat) : (slotNack s t o code).view = s.view := by
  unfold slotNack
  split <;> simp (disch := simp only [MSG_NACK_COUNT, MSG_NACK_LAST, MSG_EVENT, tileBase]; omega)

@[simp] theorem view_slotAnswer (t id code : Nat) : (slotAnswer s t id code).view = s.view := by
  unfold slotAnswer
  split <;> simp

@[simp] theorem view_muleSendAnswer (t code : Nat) : (muleSendAnswer s t code).view = s.view := by
  simp [muleSendAnswer]

@[simp] theorem view_messageAnswered (source : ReqSource) (code : Nat) :
    (messageAnswered s source code).view = s.view := by
  unfold messageAnswered
  split <;> simp (disch := simp only [FAB_NOTIFY_NACK]; omega)

@[simp] theorem view_signalTarget (target inc : Nat) : (signalTarget s target inc).view = s.view := by
  simp [signalTarget]

/-! ### The address-generator engines -/

@[simp] theorem view_agpFault (n code pc addr : Nat) : (agpFault s n code pc addr).view = s.view := by
  simp (disch := simp only [AGP_FAULT_PC, AGP_FAULT_ADDR_LO, agpBase]; omega) [agpFault]

@[simp] theorem view_agpStatusCode (st : Nat) : (agpStatusCode s st).1.view = s.view := by simp [agpStatusCode]

@[simp] theorem view_agpFail (n : Nat) (c : AgpCopy) (addr st : Nat) : (agpFail s n c addr st).view = s.view := by
  simp [agpFail]

@[simp] theorem view_agpWritten (n k : Nat) (c : AgpCopy) (p : AgpPiece) : (agpWritten s n k c p).view = s.view := by
  simp (disch := simp only [AGP_LINES, AGP_POISON, agpBase]; omega) [agpWritten]

@[simp] theorem view_agpPieceWrite (n k : Nat) (c : AgpCopy) (p : AgpPiece) :
    (agpPieceWrite s n k c p).view = s.view := by
  unfold agpPieceWrite
  extract_lets a q s1
  split
  · split
    next s2 st hx =>
    have h2 : s2.view = s.view := view_fst_of_eq hx (view_localWrite ..)
    split <;> simp [h2]
  · have hs : (s1.issue (.agp n k p.off) q).1.view = s.view := by simp [s1]
    split
    · next hx => simpa using view_fst_of_eq hx hs
    · next hx => exact view_fst_of_eq hx hs

@[simp] theorem view_agpPieceHeld (n k off : Nat) (bs : List (BitVec 8)) (cs : List Cause) :
    (agpPieceHeld s n k off bs cs).view = s.view := by
  simp only [agpPieceHeld]
  repeat' split
  all_goals simp

@[simp] theorem view_agpReadReply (n k off st : Nat) (bs : List (BitVec 8)) (cs : List Cause) :
    (agpReadReply s n k off st bs cs).view = s.view := by
  unfold agpReadReply
  split <;> simp

@[simp] theorem view_agpWriteAck (n k off st : Nat) : (agpWriteAck s n k off st).view = s.view := by
  unfold agpWriteAck
  repeat' split
  all_goals simp

@[simp] theorem view_agpSendSignals (n : Nat) : (agpSendSignals s n).view = s.view := by simp [agpSendSignals]

@[simp] theorem view_agpFinish (n k : Nat) : (agpFinish s n k).view = s.view := by
  unfold agpFinish
  repeat' split
  all_goals simp

@[simp] theorem view_agpStop (n : Nat) : (agpStop s n).view = s.view := by simp [agpStop]

/-! ### Collectives -/

@[simp] theorem view_colAnswer (d xfer st : Nat) : (colAnswer s d xfer st).view = s.view := by
  simp (disch := simp only [COL_EVENT]; omega) [colAnswer]

@[simp] theorem view_shdWriteHeader (d : Nat) (r : ColRun) (x state : Nat) (poison : Bool) (digest : Nat) :
    (shdWriteHeader s d r x state poison digest).view = s.view := by
  simp [shdWriteHeader]

/-- A collective names one of 64 shadow descriptors. -/
theorem colShd_lt (w : List (BitVec 32)) : colShd w < 64 := Nat.mod_lt _ (by decide)

@[simp] theorem view_shdIncomplete (d : Nat) (r : ColRun) : (shdIncomplete s d r).view = s.view := by
  have hshd := colShd_lt r.words
  unfold shdIncomplete
  split <;> simp (disch := simp only [COL_SHD_STATE, COL_SHD_EVENT, COL_SHD_LAST]; omega)

@[simp] theorem view_colAbort : (colAbort s).view = s.view := by simp [colAbort]

/-! ### Requests from outside, and the drain -/

@[simp] theorem view_completeRequest (tid st : Nat) (bs : List (BitVec 8)) (cs : List Cause) :
    (completeRequest s tid st bs cs).view = s.view := by
  unfold completeRequest
  repeat' split
  all_goals simp

@[simp] theorem view_drainEngines : (drainEngines s).view = s.view := by simp [drainEngines]

@[simp] theorem view_drainFabric : (drainFabric s).view = s.view := by simp [drainFabric]

@[simp] theorem view_drainUnits : (drainUnits s).view = s.view := by simp [drainUnits]

/-! ### Clocks -/

@[simp] theorem view_throttleCharge (cyc : Nat) : (throttleCharge s cyc).view = s.view := by simp [throttleCharge]

@[simp] theorem view_publishF (armed : Option Nat) : (publishF s armed).view = s.view := by
  simp (disch := simp only [CLK_FREQ]; omega) [publishF]

/-! ### Mules and gates -/

@[simp] theorem view_muleStop (t : Nat) : (muleStop s t).view = s.view := by simp [muleStop]

@[simp] theorem view_muleOff (t : Nat) : (muleOff s t).view = s.view := by
  simp (disch := simp only [MUL_DISCARD, tileBase]; omega) [muleOff]

@[simp] theorem view_gateOn (t : Nat) : (gateOn s t).view = s.view := by simp [gateOn]

@[simp] theorem view_gateOff (t : Nat) : (gateOff s t).view = s.view := by simp [gateOff]

@[simp] theorem view_gateTiles (p : Nat) : (gateTiles s p).view = s.view := by simp [gateTiles]

/-! ### Links -/

theorem linkStatus_bounds {l : Nat} (hl : l < 34) : 0x51000 < linkStatus l ∧ linkStatus l < 0x71000 := by
  rw [linkStatus]
  split <;> simp only [FAB_LINK_STATUS, HLK_PORT_STATUS] <;> omega

theorem linkDowns_bounds {l : Nat} (hl : l < 34) : 0x51000 < linkDowns l ∧ linkDowns l < 0x71000 := by
  rw [linkDowns]
  split <;> simp only [FAB_LINK_DOWNS, HLK_PORT_DOWNS] <;> omega

theorem view_setLinkState {l : Nat} (hl : l < 34) (st : Nat) : (s.setLinkState l st).view = s.view := by
  have hstatus := linkStatus_bounds hl
  exact view_setReg _ _ (by omega)

@[simp] theorem view_selectTwin (prog xfer : Nat) : (s.selectTwin prog xfer).view = s.view := by
  simp only [State.selectTwin]
  split <;> simp

@[simp] theorem view_linkLost (l : Nat) : (s.linkLost l).view = s.view := by simp [State.linkLost]

theorem view_linkDown {l : Nat} (hl : l < 34) (cause : Nat) : (s.linkDown l cause).view = s.view := by
  have hb := linkStatus_bounds hl
  have hb' := linkDowns_bounds hl
  have hstatus : ∀ v, (s.setReg (linkStatus l) v).view = s.view := fun v => view_setReg s v (by omega)
  have hdowns : ∀ s : State, (s.incReg (linkDowns l)).view = s.view := fun s => view_incReg s (by omega)
  have hdiscards : ∀ (n : Nat) (s : State), ((List.range n).foldl (fun s _ => s.discard) s).view = s.view := by simp
  simp (disch := simp only [HLK_EVENT, FAB_EVENT, FAB_TDLY]; omega) [State.linkDown, hstatus, hdowns,
    hdiscards]

@[simp] theorem view_unexclude (fm : Nat × Nat) : (s.unexclude fm).view = s.view := by
  refine foldl_keeps State.view (fun s n hn => ?_) s
  have hn := List.mem_range.1 hn
  simp (disch := simp only [FAB_EXCL]; omega)

@[simp] theorem view_forwardTick : (forwardTick s).view = s.view := by
  refine (foldl_keeps State.view (fun s l hl => ?_) s :)
  simp [view_setLinkState _ (Nat.lt_trans (List.mem_range.1 hl) (by decide))]

@[simp] theorem view_twinTick : (twinTick s).view = s.view := by
  simp only [twinTick]
  split <;> simp (disch := simp only [FAB_TWIN_LAST, FAB_EVENT]; omega)

/-! ### The host ring -/

theorem view_withHlk (h : Hlk) : ({ s with hlk := h } : State).view = s.view := view_of_fields

@[simp] theorem view_hostEmit (p : Nat) (pkt : HostPacket) : (s.hostEmit p pkt).view = s.view := by
  simp [State.hostEmit]

@[simp] theorem view_sendRecord (p seq : Nat) (body : List (BitVec 8)) : (sendRecord s p seq body).view = s.view := by
  simp [sendRecord]

@[simp] theorem view_cplRecord (body : List (BitVec 8)) : (cplRecord s body).view = s.view := by
  simp only [cplRecord]
  split <;> rw [view_withHlk]
  · simp (disch := simp only [HLK_CPL_SEQ, HLK_CPL_LOST, HLK_EVENT]; omega)
  · simp (disch := simp only [HLK_CPL_SEQ]; omega)

@[simp] theorem view_commandRecord (cookie : BitVec 64) (num status detail : Nat) :
    (commandRecord s cookie num status detail).view = s.view := by
  simp [commandRecord]

@[simp] theorem view_ringField (a o : Nat) : (ringField s a o).1.view = s.view := by simp [ringField]

@[simp] theorem view_ringPutCons (a n : Nat) : (ringPutCons s a n).view = s.view := by simp [ringPutCons]

@[simp] theorem view_ringDisable : (ringDisable s).view = s.view := by
  simp (disch := simp only [HLK_RING_STATUS]; omega) [ringDisable]

@[simp] theorem view_ringSample : (ringSample s).view = s.view := by
  simp (disch := simp only [HLK_RING_STATUS, HLK_EVENT]; omega) [ringSample]

@[simp] theorem view_descDone (num base : Nat) (notify mark : Bool) (cookie : BitVec 64) (status detail : Nat) :
    (descDone s num base notify mark cookie status detail).view = s.view := by
  simp (disch := simp only [HLK_RING_CONS, HLK_RING_STATUS]; omega) [descDone]

@[simp] theorem view_hostTick (c : BitVec 64) : (hostTick s c).view = s.view := by
  unfold hostTick
  split <;> simp

/-! ### Contexts -/

@[simp] theorem view_ctxStopMule (t : Nat) : (ctxStopMule s t).view = s.view := by
  simp (disch := simp only [MUL_DISCARD, tileBase]; omega) [ctxStopMule]

@[simp] theorem view_ctxStart (count : BitVec 64) : (ctxStart s count).view = s.view := by
  have hstatus : (s.setRegFld DMC_CTX_STATUS 8 3 2).view = s.view := view_setReg _ _ (by decide)
  simp [ctxStart, hstatus]

/-! ### The Goose -/

@[simp] theorem view_pairMismatch (t k rank : Nat) : (pairMismatch s t k rank).view = s.view := by
  simp (disch := simp only [GOS_MISMATCH_LAST]; omega) [pairMismatch]

@[simp] theorem view_showDigests (taps : List (Nat × Nat)) : (showDigests s taps).view = s.view := by
  refine view_foldl (fun s x => view_foldl (fun s w => ?_) _ s) taps s
  simp (disch := simp only [GOS_TAP_DIG, tileBase]; omega)

@[simp] theorem view_comparePairs (p : Nat) : (comparePairs s p).view = s.view := by simp [comparePairs]

@[simp] theorem view_pairMissing (t k : Nat) : (pairMissing s t k).view = s.view := by
  unfold pairMissing
  split <;> simp

@[simp] theorem view_frameRecord (c : Closed) : (frameRecord s c).view = s.view := by simp [frameRecord]

@[simp] theorem view_verdictRegs (c : Closed) : (verdictRegs s c).view = s.view := by
  unfold verdictRegs
  split <;> simp (disch := simp only [GOS_VERDICT, GOS_VTICK_LO, GOS_VCOUNTS, GOS_FIRST_DETAIL, GOS_PAIRS,
    GOS_REC_VERDICT, GOS_REC_TICK_LO, GOS_CNT_FAILED, GOS_REC_FAILS, GOS_CNT_SUSPECT, GOS_CNT_CORR]; omega)

/-! ### The end and the start of a frame -/

@[simp] theorem view_silentRegions (silent : List Nat) : (silentRegions s silent).view = s.view := by
  simp [silentRegions]

@[simp] theorem view_followParent : (followParent s).view = s.view := by
  unfold followParent
  split <;> simp (disch := simp only [FAB_HALL_EVENT, FAB_HALL_STATUS, FAB_TICK_ERR]; omega)

@[simp] theorem view_showFirst : (showFirst s).view = s.view := by
  refine view_foldl (fun s r => ?_) _ s
  simp (disch := simp only [GOS_L_FIRST, regionBase]; omega)

@[simp] theorem view_sendItems : (sendItems s).view = s.view := by
  unfold sendItems
  split <;> simp

@[simp] theorem view_slackRegs (c : Nat) : (slackRegs s c).view = s.view := by
  simp only [slackRegs]
  split <;> simp (disch := simp only [FRM_SLACK_LAST, FRM_CRIT_REGION, FRM_CHG_STRETCH, FRM_CHG_HOLD,
    FRM_CHG_THROTTLE, FRM_SLACK_MIN]; omega)

@[simp] theorem view_seqEnter (e : Nat) : (seqEnter s e).1.view = s.view := by
  unfold seqEnter
  split <;> simp (disch := simp only [FRM_SEQ_POS]; omega)

@[simp] theorem view_batchStart : (batchStart s).view = s.view := by
  refine (foldl_keeps State.view (fun s j hj => ?_) _).trans ?_
  · have hj := List.mem_range.1 hj
    simp (disch := simp only [FRM_WPAIR_STATUS]; omega)
  · simp (disch := simp only [FRM_WBATCH_COUNT_LO]; omega)

/-! ### Commits -/

@[simp] theorem view_commitTile (n : State) (t : Nat) : (commitTile s n t).view = n.view := by
  refine (view_foldl (fun n k => ?_) _ _).trans (view_foldl (fun n q => ?_) _ n)
  · simp
  · simp (disch := simp only [MSG_LAND_WR, tileBase]; omega)

theorem view_commitLink (n : State) {l : Nat} (hl : l < 34) : (commitLink s n l).view = n.view := by
  simp [commitLink, view_linkDown _ hl, view_setLinkState _ hl]

/-! ### Resets -/

@[simp] theorem view_resetBusy : (resetBusy s).view = s.view := by
  simp only [resetBusy]
  split <;> simp (disch := simp only [DMC_RESET_STATUS]; omega)

end

/-! ### Bits of a register -/

theorem bit_eq_getLsbD (v : BitVec 32) (i : Nat) : bit v i = v.getLsbD i := by
  rw [bit, fld, BitVec.getLsbD, Nat.testBit_eq_decide_div_mod_eq, pow_one]
  rfl

theorem bit_or (v w : BitVec 32) (i : Nat) : bit (v ||| w) i = (bit v i || bit w i) := by
  simp only [bit_eq_getLsbD, BitVec.getLsbD_or]

/-- A bit that is written into a flag register is set in it. -/
theorem bit_orReg (s : State) (o : Nat) {w : BitVec 32} {i : Nat} (hw : bit w i = true) :
    bit ((s.orReg o w).reg o) i = true := by
  rw [State.orReg, State.reg_setReg_same, bit_or, hw, Bool.or_true]

theorem bit_zero_eq (v : BitVec 32) : bit v 0 = decide (v.toNat % 2 = 1) := by
  rw [bit, fld, pow_zero, Nat.div_one, pow_one]
  rfl

/-- Writing bit 0 of a word gives it the value written. -/
theorem bit_zero_setFld (v : BitVec 32) (x : Nat) : bit (setFld v 0 1 x) 0 = decide (x % 2 = 1) := by
  have hv := v.isLt
  rw [bit_zero_eq, setFld, fld, BitVec.toNat_ofNat]
  congr 1
  simp only [pow_zero, pow_one, Nat.div_one, mul_one, eq_iff_iff]
  omega

/-- Writing bits 11 to 8 of a word leaves bit 0. -/
theorem bit_zero_setFld_cause (v : BitVec 32) (x : Nat) : bit (setFld v 8 4 x) 0 = bit v 0 := by
  have hv := v.isLt
  rw [bit_zero_eq, bit_zero_eq, setFld, fld, BitVec.toNat_ofNat]
  congr 1
  simp only [eq_iff_iff]
  omega

/-- The low byte of a status word is its code. -/
theorem fld_code {code : Nat} (hcode : code < 256) : fld (BitVec.ofNat 32 code) 0 8 = code := by
  rw [fld_ofNat (by omega)]
  omega

/-! ### The entry into the safe state -/

/-- The part of the frame controller in the entry into the safe state (R390, R391). -/
def safeEntered (s : State) (cause : Nat) : State :=
  (s.setReg GOS_STATUS (setFld (s.reg GOS_STATUS ||| 1) 8 4 cause)).modFrame fun f =>
    { f with safe := some cause, safeReq := false, released := false, stopped := s.frame.armed.isSome }

theorem view_ext {s s' : State} (hpending : s'.pending = s.pending) (hframe : s'.frame = s.frame)
    (hrstJob : s'.rstJob = s.rstJob) (hshadow : s'.shadow = s.shadow) (hroutes : s'.routesNext = s.routesNext)
    (hregs : ∀ o ∈ viewRegs, s'.reg o = s.reg o) : s'.view = s.view := by
  rw [← view_eta, ← view_eta, hpending, hframe, hrstJob, hshadow, hroutes, viewRegsOf_eq_iff.2 hregs]

theorem view_setReg_congr {s s' : State} (h : s'.view = s.view) (o : Nat) (v : BitVec 32) :
    (s'.setReg o v).view = (s.setReg o v).view := by
  refine view_ext (pending_of_view h :) (frame_of_view h :) (rstJob_of_view h :) (shadow_of_view h :)
    (routesNext_of_view h :) fun o' ho' => ?_
  rw [State.reg_setReg, State.reg_setReg, reg_of_view h ho']

theorem view_modFrame_congr {s s' : State} (h : s'.view = s.view) (f : Frame → Frame) :
    (s'.modFrame f).view = (s.modFrame f).view :=
  view_ext (pending_of_view h :) (congrArg f (frame_of_view h)) (rstJob_of_view h :) (shadow_of_view h :)
    (routesNext_of_view h :) fun _ ho => reg_of_view h ho

theorem enterSafe_of_safe {s : State} (h : s.frame.safe.isSome = true) (cause : Nat) : enterSafe s cause = s :=
  if_pos h

section
variable {s : State} (h : s.frame.safe = none) (cause : Nat)
include h

/-- Of the state of the frame controller the entry changes what `safeEntered` says; the rest stops the units. -/
theorem view_enterSafe : (enterSafe s cause).view = (safeEntered s cause).view := by
  unfold enterSafe
  rw [if_neg (by simp [h])]
  extract_lets armed s1 s2 s3 s4 s5 s6
  have h1 : s1.view = s.view := by simp [s1]
  have h2 : s2.view = (s.setReg GOS_STATUS (setFld (s.reg GOS_STATUS ||| 1) 8 4 cause)).view := by
    rw [← reg_of_view h1 (by decide)]
    exact view_setReg_congr h1 _ _
  have h3 : s3.view = s2.view := view_setReg _ _ (by decide)
  have h4 : s4.view = (safeEntered s cause).view := view_modFrame_congr (h3.trans h2) _
  simpa [s6, s5] using h4

theorem enterSafe_frame : (enterSafe s cause).frame = { s.frame with
    safe := some cause, safeReq := false, released := false, stopped := s.frame.armed.isSome } :=
  frame_of_view (view_enterSafe h cause)

theorem enterSafe_reg {o : Nat} (ho : o ∈ viewRegs) (hne : o ≠ GOS_STATUS) :
    (enterSafe s cause).reg o = s.reg o := by
  rw [reg_of_view (view_enterSafe h cause) ho, safeEntered, State.reg_modFrame, State.reg_setReg_ne _ _ hne]

theorem enterSafe_status : bit ((enterSafe s cause).reg GOS_STATUS) 0 = true := by
  rw [reg_of_view (view_enterSafe h cause) (by decide), safeEntered, State.reg_modFrame, State.reg_setReg_same,
    bit_zero_setFld_cause, bit_or]
  exact Bool.or_true _

end

/-! ## Tick packets and holdover (R46, R47) -/

theorem exec_tickPacket (l : Fin 32) (p : TickPacket) (e : BitVec 16) (s : State) :
    exec (.tickPacket l p e) s = .next (tickPacket s l p e) := rfl

theorem exec_holdoverTick (s : State) : exec .holdoverTick s = .next (holdoverTick s) := rfl

theorem exec_tickLost (s : State) : exec .tickLost s = .next (tickLost s) := rfl

/-- A packet on a link that is not calibrated, or that carries no flits, is not taken. -/
theorem tickPacket_of_uncalibrated {s : State} {l : Nat}
    (h : s.linkCarries l = false ∨ bit (s.reg (FAB_TDLY l)) 31 = false) (p : TickPacket) (e : BitVec 16) :
    tickPacket s l p e = s := by
  rcases h with h | h <;> simp [tickPacket, h]

theorem packetTaken_of_fromBell {s : State} {p : TickPacket} (h : fromBell s p = true) : packetTaken s p = true := by
  simp [packetTaken, h]

/-- What a packet of the bellwether followed does on a module that has acquired its count and is not in holdover of the
tick that is due: nothing outside the window, an error bit for another count, else the tick. -/
theorem tickPacket_fromBell {s : State} {l : Nat} {p : TickPacket} {e : BitVec 16} (hpower : s.power.mainGood = true)
    (hlink : s.linkCarries l = true) (hcal : bit (s.reg (FAB_TDLY l)) 31 = true) (hbell : fromBell s p = true)
    (hown : s.bellwether = false) (hacq : s.frame.acquired = true) (hdue : s.frame.tickDue ≠ some none) :
    tickPacket s l p e = if inWindow e = false then s
      else if p.tick ≠ s.reg64 FRM_TICK_LO + 1 then s.orReg FRM_STATUS 0x20 else takePacket s l p e := by
  simp [tickPacket, hpower, hlink, hcal, packetTaken_of_fromBell hbell, hown, hacq, hdue, followBell, hbell]

theorem inWindow_iff (e : BitVec 16) : inWindow e = true ↔ -400 ≤ e.toInt ∧ e.toInt ≤ 400 := by
  simp [inWindow, and_comm]

theorem inWindow_eq_false {e : BitVec 16} (h : e.toInt < -400 ∨ 400 < e.toInt) : inWindow e = false := by
  rw [← Bool.not_eq_true, inWindow_iff]
  omega

theorem takePacket_onlyFrame (s : State) (l : Nat) (p : TickPacket) (e : BitVec 16) :
    { takePacket s l p e with frame := s.frame } = s := rfl

/-- A module that follows a bellwether and has no tick for the window that closes (R46). -/
def tickMissing (s : State) : Prop :=
  s.power.mainGood = true ∧ s.period ≠ 0 ∧ s.frame.acquired = true ∧ s.bellwether = false ∧ s.frame.tickDue = none

theorem holdoverTick_of_not_missing {s : State} (h : ¬ tickMissing s) : holdoverTick s = s := by
  refine if_pos (by_contra fun hn => h ?_)
  simpa [tickMissing, Option.isSome_iff_ne_none] using hn

/-- The frame controller after a tick in holdover. -/
def heldOver (s : State) : State :=
  s.modFrame fun f => { f with holdover := some (f.holdover.getD 0 + 1), tickDue := some none, parent := none }

theorem holdoverTick_of_missing {s : State} (h : tickMissing s) :
    holdoverTick s = heldOver (if s.frame.holdover.isNone then s.orReg FRM_STATUS 8 else s) := by
  obtain ⟨hpower, hperiod, hacq, hbell, hdue⟩ := h
  exact if_neg (by simp [hpower, hperiod, hacq, hbell, hdue])

theorem holdoverOut_iff (s : State) :
    holdoverOut s = true ↔ ∃ n, s.frame.holdover = some n ∧ (s.reg FRM_HOLDOVER_LIMIT).toNat ≤ n := by
  unfold holdoverOut
  split <;> simp [*]

theorem tickLost_of_stays {s : State}
    (h : holdoverOut s = false ∨ s.frame.tickDue.isSome = true ∨ s.frame.safe.isSome = true) : tickLost s = s :=
  if_pos (by simpa using h)

/-- Holdover that has lasted for the limit enters the safe state (R47). -/
theorem tickLost_of_out {s : State} (hout : holdoverOut s = true) (hdue : s.frame.tickDue = none)
    (hsafe : s.frame.safe = none) : tickLost s = enterSafe (s.orReg FRM_STATUS 0x10) 2 :=
  if_neg (by simp [hout, hdue, hsafe])

/-- A missing tick counts on from the ticks in holdover; the first sets the status bit (R46). -/
theorem holdoverTick_registers {s : State} (h : tickMissing s) : sameRegsBut s (holdoverTick s) [FRM_STATUS]
    ∧ (s.frame.holdover = none → bit ((holdoverTick s).reg FRM_STATUS) 3 = true)
    ∧ (s.frame.holdover ≠ none → (holdoverTick s).regs = s.regs) := by
  rw [holdoverTick_of_missing h]
  cases hhold : s.frame.holdover with
  | none =>
    rw [if_pos Option.isNone_none]
    exact ⟨sameRegsBut_setReg s _ _, fun _ => bit_orReg s _ (by decide), fun hne => absurd rfl hne⟩
  | some n =>
    rw [if_neg (by simp)]
    exact ⟨fun _ _ => rfl, fun hn => absurd hn (Option.some_ne_none n), fun _ => rfl⟩

theorem holdoverTick_frame {s : State} (h : tickMissing s) :
    (holdoverTick s).frame = { s.frame with
      holdover := some (s.frame.holdover.getD 0 + 1), tickDue := some none, parent := none } := by
  rw [holdoverTick_of_missing h]
  split <;> rfl

theorem holdoverTick_rest {s : State} (h : tickMissing s) :
    { holdoverTick s with regs := s.regs, frame := s.frame } = s := by
  rw [holdoverTick_of_missing h]
  split <;> rfl

/-- Settles O43: a packet of the bellwether followed by its window and its count, a window without one, and the
holdover limit. -/
theorem tickPacketsAndHoldover : Obligations.TickPacketsAndHoldover := by
  refine ⟨fun s l p e => ⟨fun h => ?_, fun hpower hlink hcal hbell hown hacq hdue => ?_⟩,
    fun s => ⟨fun h => ?_, fun h => ⟨holdoverTick s, exec_holdoverTick s, ?_⟩⟩,
    fun s => ⟨fun h => ?_, fun hout hdue hsafe => ?_⟩⟩
  · rw [exec_tickPacket, tickPacket_of_uncalibrated h]
  · rw [exec_tickPacket, tickPacket_fromBell hpower hlink hcal hbell hown hacq hdue]
    refine ⟨fun hout => by rw [if_pos (inWindow_eq_false hout)], fun hlo hhi => ?_⟩
    rw [if_neg (by simp [(inWindow_iff e).2 ⟨hlo, hhi⟩])]
    constructor <;> intro htick
    · exact ⟨takePacket s l p e, by rw [if_neg (not_not.2 htick)], rfl, rfl, takePacket_onlyFrame s l p e⟩
    · exact ⟨s.orReg FRM_STATUS 0x20, by rw [if_pos htick], onlyRegs_setReg _ _ _, sameRegsBut_setReg _ _ _,
        bit_orReg _ _ (by decide)⟩
  · rw [exec_holdoverTick, holdoverTick_of_not_missing h]
  · obtain ⟨hregs, hfirst, hlater⟩ := holdoverTick_registers h
    exact ⟨by rw [holdoverTick_frame h], by rw [holdoverTick_frame h], holdoverTick_rest h, hregs, hfirst, hlater⟩
  · rw [← holdoverOut_iff, Bool.not_eq_true] at h
    rw [exec_tickLost, tickLost_of_stays h]
  · have hsafe' : (s.orReg FRM_STATUS 0x10).frame.safe = none := hsafe
    have hframe := enterSafe_frame hsafe' 2
    refine ⟨enterSafe (s.orReg FRM_STATUS 0x10) 2, ?_, congrArg Frame.safe hframe, ?_, enterSafe_status hsafe' 2,
      congrArg Frame.released hframe⟩
    · rw [exec_tickLost, tickLost_of_out ((holdoverOut_iff s).2 hout) hdue hsafe]
    · rw [enterSafe_reg hsafe' 2 (by decide) (by decide), bit_orReg _ _ (by decide)]

/-! ## Commits, running and stopping (R59, R61 to R64, R67) -/

theorem exec_atNextTick (s : State) : exec .atNextTick s = .next (commitAtNext s) := rfl

theorem exec_atCount (s : State) : exec .atCount s = .next (commitAtCount s) := rfl

theorem exec_now (s : State) : exec .now s = .next (commitNow s) := rfl

theorem exec_cancel (s : State) : exec .cancel s = .next (commitCancel s) := rfl

theorem exec_runStart (s : State) : exec .runStart s = .next (runStart s) := rfl

theorem exec_runStop (s : State) : exec .runStop s = .next (runStop s) := rfl

theorem exec_safeReq (s : State) : exec .safeReq s = .next (safeReq s) := rfl

theorem exec_drainComplete (s : State) : exec .drainComplete s = .next (drainComplete s) := rfl

/-! ### What a commit does -/

/-- The state that a commit which a violation refuses leaves: the first violation is reported (R64, R522). -/
def commitViolated (s : State) (block off : Nat) : State :=
  ((s.setReg FRM_COMMIT_STATUS (BitVec.ofNat 32 (2 + block * 2 ^ 8))).setReg FRM_COMMIT_ERR
    (BitVec.ofNat 32 off)).orReg FRM_STATUS 4

/-- Of a commit one of three things comes: there is nothing to commit, every shadow takes effect, or a violation
refuses it (R62, R64). -/
theorem commit_cases (s : State) :
    (s.shadow = [] ∧ s.routesNext = none ∧ commit s = s.setReg FRM_COMMIT_STATUS 0)
    ∨ (¬ (s.shadow = [] ∧ s.routesNext = none) ∧ commit s = commitApply s (applyShadow s))
    ∨ (¬ (s.shadow = [] ∧ s.routesNext = none) ∧ ∃ b o, commit s = commitViolated s b o) := by
  unfold commit
  by_cases hnone : s.shadow.isEmpty ∧ s.routesNext.isNone
  · exact .inl ⟨by simpa using hnone.1, by simpa using hnone.2, if_pos hnone⟩
  · rw [if_neg hnone]
    have hsome : ¬ (s.shadow = [] ∧ s.routesNext = none) := by simpa using hnone
    extract_lets n
    split
    · exact .inr (.inl ⟨hsome, rfl⟩)
    · exact .inr (.inr ⟨hsome, _, _, rfl⟩)

/-- Where the shadows take effect the units follow them, and the view is that of the new registers. -/
theorem view_commitApply (s n : State) :
    (commitApply s n).view = { n.view with routesNext := none } := by
  unfold commitApply
  extract_lets tiles n1 n2 n3
  have h2 : n2.view = n.view :=
    (foldl_keeps State.view (fun n l hl => view_commitLink s n (List.mem_range.1 hl)) n1).trans
      (view_foldl (by simp) ..)
  have h3 : n3.view = { n2.view with routesNext := none } := by
    simp only [n3]
    split
    · rfl
    · next hroutes => rw [← hroutes]; rfl
  rw [view_setReg _ _ (by decide), h3, h2]

theorem commit_frame (s : State) : (commit s).frame = s.frame := by
  rcases commit_cases s with ⟨-, -, h⟩ | ⟨-, h⟩ | ⟨-, b, o, h⟩ <;> rw [h]
  · rfl
  · exact congrArg FrameView.frame (view_commitApply s (applyShadow s))
  · rfl

theorem commit_pending (s : State) : (commit s).pending = s.pending := by
  rcases commit_cases s with ⟨-, -, h⟩ | ⟨-, h⟩ | ⟨-, b, o, h⟩ <;> rw [h]
  · rfl
  · exact congrArg FrameView.pending (view_commitApply s (applyShadow s))
  · rfl

theorem sameMemory_of_mems {s s' : State} (h : s'.mems = s.mems) : sameMemory s s' :=
  sameMemory_of_eq (congrArg Memories.spad h) (congrArg Memories.hbm h) (congrArg Memories.ddr h)

/-- A commit applies every shadow or, where a rule is violated, none (R64). -/
theorem commit_outcome (s : State) :
    (fld ((commit s).reg FRM_COMMIT_STATUS) 0 8 = 0 ∧ (commit s).shadow = [] ∧ (commit s).routesNext = none)
    ∨ (fld ((commit s).reg FRM_COMMIT_STATUS) 0 8 = 2 ∧ (commit s).shadow = s.shadow
      ∧ (commit s).routesNext = s.routesNext
      ∧ sameRegsBut s (commit s) [FRM_COMMIT_STATUS, FRM_COMMIT_ERR, FRM_STATUS]
      ∧ bit ((commit s).reg FRM_STATUS) 2 = true) := by
  rcases commit_cases s with ⟨hs, hr, h⟩ | ⟨-, h⟩ | ⟨-, b, o, h⟩ <;> rw [h]
  · exact .inl ⟨by simp [fld], hs, hr⟩
  · refine .inl ⟨by simp [commitApply, fld], ?_, ?_⟩
    · exact congrArg FrameView.shadow (view_commitApply s (applyShadow s))
    · exact congrArg FrameView.routesNext (view_commitApply s (applyShadow s))
  · refine .inr ⟨?_, rfl, rfl, fun o' ho' => ?_, bit_orReg _ _ (by decide)⟩
    · rw [commitViolated, State.orReg, State.reg_setReg_ne _ _ (by decide), State.reg_setReg_ne _ _ (by decide),
        State.reg_setReg_same, fld, BitVec.toNat_ofNat]
      omega
    · simp only [List.mem_cons, List.not_mem_nil, or_false, not_or] at ho'
      obtain ⟨hstatus, herr, hflags⟩ := ho'
      simp [commitViolated, State.orReg, hstatus, herr, hflags]

/-! ### Requests -/

theorem commitRefuse_spec (s : State) {code : Nat} (hcode : code < 256) :
    (commitRefuse s code).frame.commitReq = none
    ∧ fld ((commitRefuse s code).reg FRM_COMMIT_STATUS) 0 8 = code ∧ (commitRefuse s code).shadow = s.shadow
    ∧ (commitRefuse s code).routesNext = s.routesNext ∧ sameRegsBut s (commitRefuse s code) [FRM_COMMIT_STATUS] := by
  refine ⟨rfl, ?_, rfl, rfl, sameRegsBut_setReg (s.setCommitReq none) _ _⟩
  rw [commitRefuse, State.reg_setReg_same, fld_code hcode]

/-- A request NOW in IDLE or SAFE is a commit with nothing pending (R63). -/
theorem commitNow_of_idle {s : State} (h : s.frmState = 0 ∨ s.frmState = 3) :
    commitNow s = commit (s.setCommitReq none) := if_pos h

theorem commit_of_nothing {s : State} (hshadow : s.shadow = []) (hroutes : s.routesNext = none) :
    commit s = s.setReg FRM_COMMIT_STATUS 0 := if_pos (by simp [hshadow, hroutes])

/-- The requests that are refused: AT_COUNT for a tick that has passed, and NOW while frames run (R63). -/
theorem exec_refused {s : State} {c : Instr} {code : Nat}
    (h : c = Instr.atCount ∧ (s.reg64 FRM_COMMIT_AT_LO).toNat ≤ (s.reg64 FRM_TICK_LO).toNat ∧ code = 4
      ∨ c = .now ∧ s.frmState ≠ 0 ∧ s.frmState ≠ 3 ∧ code = 3) :
    exec c s = .next (commitRefuse s code) ∧ code < 256 := by
  rcases h with ⟨rfl, hlate, rfl⟩ | ⟨rfl, hidle, hsafe, rfl⟩
  · exact ⟨by rw [exec_atCount, commitAtCount, if_pos hlate], by decide⟩
  · exact ⟨by rw [exec_now, commitNow, if_neg (by simp [hidle, hsafe])], by decide⟩

/-! ### Running and stopping -/

/-- The bit RUN as a write of it leaves it. -/
theorem bit_setRun (s : State) (x : Nat) (f : Frame → Frame) :
    bit (((s.setRegFld FRM_CTRL 0 1 x).modFrame f).reg FRM_CTRL) 0 = decide (x % 2 = 1) := by
  rw [State.reg_modFrame, State.setRegFld, State.reg_setReg_same, bit_zero_setFld]

theorem setRun_frame (s : State) (x : Nat) (f : Frame → Frame) :
    ((s.setRegFld FRM_CTRL 0 1 x).modFrame f).frame = f s.frame := rfl

theorem setRun_rest (s : State) (x : Nat) (f : Frame → Frame) :
    { (s.setRegFld FRM_CTRL 0 1 x).modFrame f with regs := s.regs, frame := s.frame } = s := rfl

theorem drainComplete_of_stays {s : State} (h : s.frame.draining = false ∨ drained s = false) :
    drainComplete s = s := if_pos (by simpa using h)

/-- The end of a drain, under OVR_STOP with the entry into the safe state (R59, R390). -/
theorem drainComplete_of_drained {s : State} (hdrain : s.frame.draining = true) (hdone : drained s = true) :
    drainComplete s = if bit (s.reg FRM_MODE) 1 then enterSafe (s.modFrame fun f => { f with draining := false }) 1
      else s.modFrame fun f => { f with draining := false } := if_neg (by simp [hdrain, hdone])

/-- Settles O41: the outcome of each commit request by the cases of `commit`, and running and stopping. -/
theorem commitsAndRuns : Obligations.CommitsAndRuns := by
  refine ⟨fun s => ⟨exec_atNextTick s, exec_cancel s, fun hlate => ?_, fun c code hc => ?_, fun hidle => ?_⟩,
    fun s => ⟨fun h => ?_, fun h => ⟨_, (exec_runStart s).trans (congrArg Host.Outcome.next (if_neg h)),
        bit_setRun s 1 _, sameRegsBut_setReg s _ _, setRun_frame s 1 _, setRun_rest s 1 _⟩,
      ⟨_, exec_runStop s, bit_setRun s 0 _, sameRegsBut_setReg s _ _, setRun_frame s 0 _, setRun_rest s 0 _⟩,
      fun h => ?_, fun h => ?_, fun h => ?_, fun hdrain hdone hstop => ?_, fun hdrain hdone hstop hsafe => ?_⟩⟩
  · rw [exec_atCount, commitAtCount, if_neg (Nat.not_le.2 hlate)]
    rfl
  · obtain ⟨hexec, hcode⟩ := exec_refused hc
    exact ⟨_, hexec, commitRefuse_spec s hcode⟩
  · refine ⟨commit (s.setCommitReq none), by rw [exec_now, commitNow_of_idle hidle], by rw [commit_frame]; rfl,
      sameMemory_of_mems (by simp), commit_outcome (s.setCommitReq none), fun hshadow hroutes => ?_⟩
    rw [commit_of_nothing (s := s.setCommitReq none) hshadow hroutes]
    exact sameRegsBut_setReg (s.setCommitReq none) _ _
  · rw [exec_runStart, runStart, if_pos h]
  · rw [exec_safeReq, safeReq, if_neg (by simp [h])]
    rfl
  · rw [exec_safeReq, safeReq, if_pos h]
  · rw [exec_drainComplete, drainComplete_of_stays h]
  · rw [exec_drainComplete, drainComplete_of_drained hdrain hdone, hstop]
    rfl
  · have hsafe' : (s.modFrame fun f => { f with draining := false }).frame.safe = none := hsafe
    have hframe := enterSafe_frame hsafe' 1
    refine ⟨enterSafe _ 1, ?_, congrArg Frame.draining hframe, congrArg Frame.safe hframe, enterSafe_status hsafe' 1,
      congrArg Frame.released hframe⟩
    rw [exec_drainComplete, drainComplete_of_drained hdrain hdone, if_pos hstop]

/-! ## The tick (R45, R55, R61, R391) -/

theorem exec_tick (silent : List (Fin 62)) (s : State) :
    exec (.tick silent) s = .next (tick s (silent.map fun r => r.val)) := rfl

/-! ### What the parts of a tick keep -/

/-- What every part of a tick but the commit and the new count keeps. -/
structure FrameKept (s s' : State) : Prop where
  pending : s'.pending = s.pending
  acquired : s'.frame.acquired = s.frame.acquired
  commitReq : s'.frame.commitReq = s.frame.commitReq
  released : s.frame.released = false → s'.frame.released = false
  safe : s.frame.safe.isSome = true → s'.frame.safe.isSome = true
  tick : s'.reg64 FRM_TICK_LO = s.reg64 FRM_TICK_LO

/-- What those parts of a tick keep besides that come before the walk. -/
structure IdleKept (s s' : State) : Prop extends FrameKept s s' where
  rstJob : s'.rstJob = s.rstJob
  ctrl : s'.reg FRM_CTRL = s.reg FRM_CTRL
  armed : s.frame.armed = none → s'.frame.armed = none

theorem reg64_congr {s s' : State} {lo : Nat} (hlo : s'.reg lo = s.reg lo) (hhi : s'.reg (lo + 4) = s.reg (lo + 4)) :
    s'.reg64 lo = s.reg64 lo := by
  rw [State.reg64, State.reg64, hlo, hhi]

theorem reg64_setReg64_same (s : State) (lo : Nat) (v : BitVec 64) : (s.setReg64 lo v).reg64 lo = v := by
  rw [State.reg64, State.setReg64, State.reg_setReg_same, State.reg_setReg_ne _ _ (by omega), State.reg_setReg_same]
  refine BitVec.eq_of_getLsbD_eq fun i hi => ?_
  rw [BitVec.getLsbD_append]
  split
  · simp [*]
  · rw [BitVec.getLsbD_setWidth, BitVec.getLsbD_ushiftRight, Nat.add_sub_of_le (by omega), decide_eq_true (by omega),
      Bool.true_and]

section
variable {s s' s'' : State}

theorem FrameKept.trans (h : FrameKept s s') (h' : FrameKept s' s'') : FrameKept s s'' where
  pending := h'.pending.trans h.pending
  acquired := h'.acquired.trans h.acquired
  commitReq := h'.commitReq.trans h.commitReq
  released hr := h'.released (h.released hr)
  safe hs := h'.safe (h.safe hs)
  tick := h'.tick.trans h.tick

theorem IdleKept.trans (h : IdleKept s s') (h' : IdleKept s' s'') : IdleKept s s'' where
  toFrameKept := h.toFrameKept.trans h'.toFrameKept
  rstJob := h'.rstJob.trans h.rstJob
  ctrl := h'.ctrl.trans h.ctrl
  armed ha := h'.armed (h.armed ha)

/-- What leaves the frame controller's state and its registers alone keeps all. -/
theorem IdleKept.of_frame (hpending : s'.pending = s.pending) (hframe : s'.frame = s.frame)
    (hrstJob : s'.rstJob = s.rstJob) (hregs : ∀ o ∈ viewRegs, o ≠ FRM_STATUS → o ≠ GOS_STATUS → s'.reg o = s.reg o) :
    IdleKept s s' where
  pending := hpending
  acquired := by rw [hframe]
  commitReq := by rw [hframe]
  released hr := by rw [hframe, hr]
  safe hs := by rw [hframe, hs]
  tick := reg64_congr (hregs FRM_TICK_LO (by decide) (by decide) (by decide))
    (hregs FRM_TICK_HI (by decide) (by decide) (by decide))
  rstJob := hrstJob
  ctrl := hregs FRM_CTRL (by decide) (by decide) (by decide)
  armed ha := by rw [hframe, ha]

theorem IdleKept.of_view (h : s'.view = s.view) : IdleKept s s' :=
  .of_frame (pending_of_view h) (frame_of_view h) (rstJob_of_view h) fun _ ho _ _ => reg_of_view h ho

theorem IdleKept.refl (s : State) : IdleKept s s := .of_view rfl

end

section
variable (s : State)

theorem IdleKept.orStatus (v : BitVec 32) : IdleKept s (s.orReg FRM_STATUS v) :=
  .of_frame rfl rfl rfl fun _ _ hne _ => State.reg_setReg_ne _ _ hne

theorem IdleKept.foldl {β : Type} {f : State → β → State} (h : ∀ s b, IdleKept s (f s b)) (l : List β) :
    IdleKept s (l.foldl f s) := by
  induction l generalizing s with
  | nil => exact .refl s
  | cons x xs ih => exact (h s x).trans (ih _)

/-! ### Step 1: the frame closes -/

theorem enterSafe_kept (cause : Nat) : IdleKept s (enterSafe s cause) := by
  cases h : s.frame.safe with
  | some c => rw [enterSafe_of_safe (by simp [h])]; exact .refl s
  | none =>
    have hframe := enterSafe_frame h cause
    have hview := view_enterSafe h cause
    have hregs := fun {o} => enterSafe_reg h cause (o := o)
    exact {
      pending := (pending_of_view hview :)
      acquired := by rw [hframe]
      commitReq := by rw [hframe]
      released := fun _ => by rw [hframe]
      safe := fun _ => by rw [hframe]; rfl
      tick := reg64_congr (hregs (by decide) (by decide)) (hregs (o := FRM_TICK_HI) (by decide) (by decide))
      rstJob := (rstJob_of_view hview :)
      ctrl := hregs (by decide) (by decide)
      armed := fun ha => by rw [hframe]; exact ha }

theorem formVerdict_kept : IdleKept s (formVerdict s) := by
  unfold formVerdict
  split
  · exact .refl s
  · next c _ =>
    extract_lets s1
    have h1 : IdleKept s s1 := .of_view (by simp [s1])
    split
    · exact h1.trans (enterSafe_kept s1 4)
    · exact h1

theorem settleVerdict_kept : IdleKept s (settleVerdict s) := by
  unfold settleVerdict
  split
  · exact .trans (.of_view (by simp)) (formVerdict_kept _)
  · exact .refl s

theorem overrun_kept : IdleKept s (overrun s) := by
  have h1 := IdleKept.orStatus s 1
  have h2 : IdleKept (s.orReg FRM_STATUS 1) (((s.orReg FRM_STATUS 1).incReg FRM_OVR_COUNT).setReg FRM_SLACK_LAST 0) :=
    .of_view (by simp (disch := simp only [FRM_OVR_COUNT, FRM_SLACK_LAST]; omega))
  have h3 := fun (s : State) (e : GEvent) => IdleKept.of_view (view_raiseFrame s e)
  exact ((h1.trans h2).trans (h3 _ _)).trans ⟨⟨rfl, rfl, rfl, id, id, rfl⟩, rfl, rfl, id⟩

theorem handOver_kept (overran : Bool) (refused : Option Nat) : IdleKept s (handOver s overran refused) :=
  ⟨⟨rfl, rfl, rfl, id, id, rfl⟩, rfl, rfl, id⟩

theorem carryEvents_kept : IdleKept s { s with carried := s.carried ++ s.events, events := [] } :=
  ⟨⟨rfl, rfl, rfl, id, id, rfl⟩, rfl, rfl, id⟩

/-- The close of an armed frame ends with no frame armed. -/
theorem closeArmed_disarms (p : Nat) :
    ∃ x, IdleKept s x ∧ (closeArmed s p).view = (x.modFrame fun f => { f with armed := none }).view := by
  unfold closeArmed
  extract_lets c s1 late s2
  have h1 : IdleKept s s1 := .of_view (view_throttleCharge s c)
  have h2 : IdleKept s1 s2 := by
    simp only [s2]
    split_ifs
    · exact .refl s1
    · exact overrun_kept s1
    · exact .of_view (view_slackRegs s1 c)
  split
  next stretch hold _ =>
  extract_lets s3 s4 s5
  have h3 : IdleKept s2 s3 := .trans (.of_view (by simp)) (handOver_kept _ _ _)
  have h4 : IdleKept s3 s4 := .of_view (by simp [s4])
  refine ⟨s4, ((h1.trans h2).trans h3).trans h4, ?_⟩
  simp [s5]

theorem closeArmed_kept (p : Nat) : IdleKept s (closeArmed s p) ∧ (closeArmed s p).frame.armed = none := by
  obtain ⟨x, hx, hview⟩ := closeArmed_disarms s p
  have hdisarm : IdleKept x (x.modFrame fun f => { f with armed := none }) :=
    ⟨⟨rfl, rfl, rfl, id, id, rfl⟩, rfl, rfl, fun _ => rfl⟩
  exact ⟨(hx.trans hdisarm).trans (.of_view hview), (congrArg Frame.armed (frame_of_view hview) :)⟩

/-- The end of the open frame, armed, refused or idle: no frame is armed, and no tile runs. -/
theorem closeFrame_kept :
    IdleKept s (closeFrame s) ∧ (closeFrame s).frame.armed = none ∧ (closeFrame s).frame.released = false := by
  have hend : ∀ x : State, IdleKept x (x.modFrame fun f => { f with
      released := false, stopped := false, refused := none, openedHoldover := false, carriedIn := false }) :=
    fun x => ⟨⟨rfl, rfl, rfl, fun _ => rfl, id, rfl⟩, rfl, rfl, id⟩
  have hshow : ∀ x : State, IdleKept x (keepCharges (showFirst x) ⟨0, 1⟩ ⟨0, 1⟩) := fun x => .of_view (by simp)
  unfold closeFrame
  extract_lets s1 s2 s3
  have h1 : IdleKept s s1 := .of_view view_of_fields
  suffices h3 : IdleKept s1 s3 ∧ s3.frame.armed = none from ⟨(h1.trans h3.1).trans (hend s3), h3.2, rfl⟩
  simp only [s3]
  split
  · exact closeArmed_kept s1 _
  · next code ha _ =>
    have hk := (hshow s1).trans (handOver_kept _ false (some code))
    exact ⟨hk, hk.armed ha⟩
  · next ha _ =>
    have hk := (hshow s1).trans (carryEvents_kept s2)
    exact ⟨hk, hk.armed ha⟩

/-! ### Steps 2 and 3: the commit, resets and the host ring -/

theorem commitTick_of_none {s : State} (h : s.frame.commitReq = none) (c : BitVec 64) : commitTick s c = s := by
  rw [commitTick, h]

theorem commitTick_of_atNextTick {s : State} (h : s.frame.commitReq = some .atNextTick) (c : BitVec 64) :
    commitTick s c = commit (s.setCommitReq none) := by
  rw [commitTick, h]

/-- The commit of a tick leaves the frame controller alone but for the request. -/
theorem commitTick_frame (c : BitVec 64) : ∃ r, (commitTick s c).frame = { s.frame with commitReq := r } := by
  unfold commitTick
  split
  · exact ⟨none, commit_frame _⟩
  · split
    · exact ⟨none, commit_frame _⟩
    · exact ⟨_, rfl⟩
  · exact ⟨_, rfl⟩

theorem commitTick_pending (c : BitVec 64) : (commitTick s c).pending = s.pending := by
  unfold commitTick
  split
  · exact commit_pending _
  · split
    · exact commit_pending _
    · rfl
  · rfl

theorem reg_clearRegs {p : Nat → Bool} {o : Nat} (h : p o = false) : (s.clearRegs p).reg o = s.reg o := by
  rw [State.reg, State.reg, State.clearRegs, mapGet, mapGet, mapFind_mapClear, h]
  rfl

theorem restore_kept {p : Nat → Bool} (hp : ∀ o ∈ viewRegs, p o = false) : IdleKept s (s.restore p) :=
  .of_frame rfl rfl rfl fun o ho _ _ => reg_clearRegs s (hp o ho)

theorem lt_tileBase_of_mem_viewRegs {o : Nat} (h : o ∈ viewRegs) : o < 0x40000000 := by
  simp only [viewRegs, FRM_CTRL, FRM_TICK_LO, FRM_TICK_HI, FRM_STATUS, GOS_STATUS, List.mem_cons, List.not_mem_nil,
    or_false] at h
  omega

/-- A reset of tiles changes no register of the view; it drops shadows of the tile's own registers. -/
theorem resetTile_kept (t : Nat) : IdleKept s (resetTile s t) := by
  unfold resetTile
  extract_lets s1 s2
  have h1 : IdleKept s s1 := .of_view (by simp (disch := simp only [MSG_EPOCH, tileBase]; omega) [s1])
  have h2 : IdleKept s1 s2 := restore_kept s1 fun o ho => by
    have hlow := lt_tileBase_of_mem_viewRegs ho
    have hbase : 0x40000000 ≤ tileBase t := Nat.le_add_right _ _
    simp only [inTile, Bool.or_eq_false_iff, Bool.and_eq_false_iff, decide_eq_false_iff_not]
    omega
  exact (h1.trans h2).trans (.of_view (view_modTile ..))

theorem rowResetStart_kept : IdleKept s (rowResetStart s) := by
  unfold rowResetStart
  split
  · exact .refl s
  · extract_lets rows s1
    have h1 : IdleKept s s1 := .foldl s (fun s t => (resetTile_kept s t).trans (.of_view (view_modTile ..))) _
    refine h1.trans (.of_view ?_)
    rw [view_resetBusy]
    exact (view_of_fields (s := s1.setReg DMC_ROWRST_STATUS rows)).trans (view_setReg _ _ (by decide))

theorem safeAtTick_kept : IdleKept s (safeAtTick s) := by
  unfold safeAtTick
  split
  · exact enterSafe_kept s 3
  · exact .refl s

end

/-! ### Steps 4 to 6: the walk and the arming -/

section
variable (s : State)

theorem openHoldover_kept : FrameKept s (openHoldover s) := by
  unfold openHoldover
  split
  · exact (IdleKept.refl s).toFrameKept
  · exact (IdleKept.of_view (view_raiseFrame s _)).toFrameKept.trans ⟨rfl, rfl, rfl, id, id, rfl⟩

/-- The walk moves on and may end with the sequence; it changes nothing that a tick decides by. -/
theorem seqWalk_kept : FrameKept s (seqWalk s).1 := by
  have hwalking : ∀ (s : State) (b : Bool), FrameKept s { s with frame := { s.frame with walking := b } } :=
    fun s b => ⟨rfl, rfl, rfl, id, id, rfl⟩
  have henter : ∀ (s : State) (e : Nat), FrameKept s (seqEnter s e).1 :=
    fun s e => (IdleKept.of_view (view_seqEnter s e)).toFrameKept
  have hctrl : ∀ v, FrameKept s (s.setReg FRM_CTRL v) := fun v => ⟨rfl, rfl, rfl, id, id,
    reg64_congr (State.reg_setReg_ne _ _ (by decide)) (State.reg_setReg_ne _ _ (by decide))⟩
  unfold seqWalk
  extract_lets
  split
  · exact (hwalking s true).trans (henter _ _)
  · split
    · exact (IdleKept.of_view (view_setReg s _ (by decide))).toFrameKept
    · split
      · exact (hctrl _).trans (hwalking _ false)
      · exact henter s _

theorem refuseFrame_kept (p code : Nat) : FrameKept s (refuseFrame s p code) := by
  unfold refuseFrame
  extract_lets s1 s2
  have h1 : IdleKept s s1 := (IdleKept.orStatus s 2).trans (.of_view (view_setReg _ _ (by decide)))
  have h2 : FrameKept s1 s2 := ⟨rfl, rfl, rfl, id, id, rfl⟩
  have h3 : IdleKept s2 (s2.raiseFrame ⟨.armRefused, 61, 0, 0, code⟩) := .of_view (view_raiseFrame s2 _)
  exact ((h1.toFrameKept.trans h2).trans h3.toFrameKept).trans (openHoldover_kept _)

theorem armFrame_kept (p : Nat) : FrameKept s (armFrame s p) := by
  unfold armFrame
  extract_lets had s1 s2
  have h2 : FrameKept s s2 := ⟨rfl, rfl, rfl, id, id, rfl⟩
  exact (h2.trans (IdleKept.of_view (view_gateTiles s2 p)).toFrameKept).trans (openHoldover_kept _)

theorem openFrame_of_not_walks {c : BitVec 64} (h : walks s c = false) : openFrame s c = s := if_pos (by simp [h])

theorem openFrame_kept (c : BitVec 64) : FrameKept s (openFrame s c) := by
  cases hw : walks s c with
  | false => rw [openFrame_of_not_walks s hw]; exact (IdleKept.refl s).toFrameKept
  | true =>
    have hwalk := seqWalk_kept s
    unfold openFrame
    rw [if_neg (by simp [hw])]
    split
    next s1 w heq =>
    rw [heq] at hwalk
    split
    · exact hwalk
    · extract_lets s2
      have h2 : IdleKept s1 s2 := .of_view (by simp [s2])
      split
      · exact (hwalk.trans h2.toFrameKept).trans (refuseFrame_kept s2 _ _)
      · exact (hwalk.trans h2.toFrameKept).trans (armFrame_kept s2 _)

/-- With RUN clear the sequence is not walked (R61). -/
theorem walks_of_stopped {s : State} (h : bit (s.reg FRM_CTRL) 0 = false) (c : BitVec 64) : walks s c = false := by
  simp [walks, h]

/-- In the safe state the sequence is not walked (R391). -/
theorem walks_of_safe {s : State} (h : s.frame.safe.isSome = true) (c : BitVec 64) : walks s c = false := by
  simp [walks, Option.isNone_eq_false_iff.2 h]

/-! ### The stages of a tick -/

/-- The state in which a tick has closed the open frame (R55 step 1). -/
def tickClosed (silent : List Nat) : State :=
  closeFrame (followParent (silentRegions (settleVerdict (s.modFrame fun f => { f with acquired := true })) silent))

/-- The count of the tick that follows. -/
def nextCount : BitVec 64 := s.reg64 FRM_TICK_LO + 1

/-- The state in which a tick has opened the next frame (R55 steps 2 to 6). -/
def tickOpened (silent : List Nat) : State :=
  openFrame (tickStart (tickClosed s silent) (nextCount (tickClosed s silent))) (nextCount (tickClosed s silent))

/-- What follows the opening of the frame: the frequency is published and the tick is passed on. -/
def tickEnded (x : State) : State :=
  (sendTicks (twinTick (forwardTick (publishF x x.frame.armed)))).modFrame fun f =>
    { f with tickDue := none, parent := none }

theorem tick_of_ready {s : State} (h : tickReady s = true) (silent : List Nat) :
    tick s silent = tickEnded (tickOpened s silent) := if_neg (by simp [h])

theorem view_tickPassed (x : State) :
    (sendTicks (twinTick (forwardTick (publishF x x.frame.armed)))).view = x.view := by simp

theorem clearDue_kept (x : State) :
    IdleKept x (x.modFrame fun f => { f with tickDue := none, parent := none }) :=
  ⟨⟨rfl, rfl, rfl, id, id, rfl⟩, rfl, rfl, id⟩

theorem tickEnded_kept (x : State) : IdleKept x (tickEnded x) :=
  .trans (.of_view (view_tickPassed x)) (clearDue_kept _)

theorem tickEnded_armed (x : State) : (tickEnded x).frame.armed = x.frame.armed :=
  (congrArg Frame.armed (frame_of_view (view_tickPassed x)) :)

theorem tickClosed_kept (silent : List Nat) :
    IdleKept (s.modFrame fun f => { f with acquired := true }) (tickClosed s silent)
    ∧ (tickClosed s silent).frame.armed = none ∧ (tickClosed s silent).frame.released = false := by
  obtain ⟨hkept, harmed, hreleased⟩ := closeFrame_kept
    (followParent (silentRegions (settleVerdict (s.modFrame fun f => { f with acquired := true })) silent))
  exact ⟨.trans (.trans (settleVerdict_kept _) (.of_view (by simp))) hkept, harmed, hreleased⟩

/-! ### The new count and the commit -/

/-- The count of the tick is written, and SAFE_REQ takes effect (R67). -/
def tickCounted (c : BitVec 64) : State := safeAtTick (s.setReg64 FRM_TICK_LO c)

/-- The pending request is resolved, unless a job reset drops it (R55 step 2, R486). -/
def tickResolved (c : BitVec 64) : State :=
  if (tickCounted s c).rstJob = 1 then { tickCounted s c with rstJob := 2, rstRows := 0 }
  else commitTick (tickCounted s c) c

theorem tickStart_eq (c : BitVec 64) :
    tickStart s c = ctxStart (ringSample (hostTick (rowResetStart (tickResolved s c)) c)) c := rfl

theorem tickStart_kept (c : BitVec 64) : IdleKept (tickResolved s c) (tickStart s c) := by
  rw [tickStart_eq]
  exact (rowResetStart_kept _).trans (.of_view (by simp))

theorem tickCounted_kept (c : BitVec 64) : IdleKept (s.setReg64 FRM_TICK_LO c) (tickCounted s c) := safeAtTick_kept _

theorem tickResolved_pending (c : BitVec 64) : (tickResolved s c).pending = s.pending := by
  have hcounted : (tickCounted s c).pending = s.pending := (tickCounted_kept s c).pending
  rw [← hcounted, tickResolved]
  split
  · rfl
  · exact commitTick_pending _ c

theorem tickResolved_frame (c : BitVec 64) :
    ∃ r, (tickResolved s c).frame = { (tickCounted s c).frame with commitReq := r } := by
  unfold tickResolved
  split
  · exact ⟨_, rfl⟩
  · exact commitTick_frame _ c

theorem tickResolved_of_none {s : State} (h : s.frame.commitReq = none) (c : BitVec 64) :
    (tickResolved s c).regs = (tickCounted s c).regs := by
  have hcounted : (tickCounted s c).frame.commitReq = none := (tickCounted_kept s c).commitReq.trans h
  unfold tickResolved
  split
  · rfl
  · rw [commitTick_of_none hcounted]

theorem tickResolved_of_atNextTick {s : State} (h : s.frame.commitReq = some .atNextTick) (hjob : s.rstJob ≠ 1)
    (c : BitVec 64) : (tickResolved s c).frame.commitReq = none := by
  have hcounted : (tickCounted s c).frame.commitReq = some .atNextTick := (tickCounted_kept s c).commitReq.trans h
  have hjob' : (tickCounted s c).rstJob ≠ 1 := fun e => hjob ((tickCounted_kept s c).rstJob.symm.trans e)
  rw [tickResolved, if_neg hjob', commitTick_of_atNextTick hcounted, commit_frame]
  rfl

end

section
variable {s : State}

/-- The start of a tick leaves the commands that wait, and what it keeps of the frame controller. -/
theorem tickStart_frame (s : State) (c : BitVec 64) :
    (tickStart s c).pending = s.pending ∧ (tickStart s c).frame.acquired = s.frame.acquired
    ∧ (s.frame.released = false → (tickStart s c).frame.released = false)
    ∧ (s.frame.safe.isSome = true → (tickStart s c).frame.safe.isSome = true)
    ∧ (s.frame.armed = none → (tickStart s c).frame.armed = none) := by
  have hk := tickStart_kept s c
  have hd := tickCounted_kept s c
  obtain ⟨r, hr⟩ := tickResolved_frame s c
  refine ⟨hk.pending.trans (tickResolved_pending s c), ?_, fun h => hk.released ?_, fun h => hk.safe ?_,
    fun h => hk.armed ?_⟩
  · rw [hk.acquired, hr]
    exact hd.acquired
  · rw [hr]
    exact hd.released h
  · rw [hr]
    exact hd.safe h
  · rw [hr]
    exact hd.armed h

/-- Without a request the start of a tick gives the count and leaves RUN. -/
theorem tickStart_of_none (h : s.frame.commitReq = none) (c : BitVec 64) :
    (tickStart s c).reg64 FRM_TICK_LO = c ∧ (tickStart s c).reg FRM_CTRL = s.reg FRM_CTRL := by
  have hk := tickStart_kept s c
  have hd := tickCounted_kept s c
  have hregs := State.reg_of_regs (tickResolved_of_none h c)
  constructor
  · rw [hk.tick, reg64_congr (hregs _) (hregs _), hd.tick, reg64_setReg64_same]
  · rw [hk.ctrl, hregs, hd.ctrl, State.setReg64, State.reg_setReg_ne _ _ (by decide),
      State.reg_setReg_ne _ _ (by decide)]

theorem tickStart_of_atNextTick (h : s.frame.commitReq = some .atNextTick) (hjob : s.rstJob ≠ 1) (c : BitVec 64) :
    (tickStart s c).frame.commitReq = none :=
  (tickStart_kept s c).commitReq.trans (tickResolved_of_atNextTick h hjob c)

end

/-! ### What a tick does -/

/-- A tick opens no frame where the sequence is not walked. -/
theorem tickOpened_armed {s : State} {silent : List Nat}
    (hw : walks (tickStart (tickClosed s silent) (nextCount (tickClosed s silent))) (nextCount (tickClosed s silent))
      = false) : (tickOpened s silent).frame.armed = none := by
  obtain ⟨-, harmed, -⟩ := tickClosed_kept s silent
  obtain ⟨-, -, -, -, hkeep⟩ := tickStart_frame (tickClosed s silent) (nextCount (tickClosed s silent))
  rw [tickOpened, openFrame_of_not_walks _ hw]
  exact hkeep harmed

/-- Settles O42: a tick closes the frame, writes the count, resolves the request and walks the sequence, and no other
part of it touches what these decide by. -/
theorem tickAdvances : Obligations.TickAdvances := by
  intro s silent
  rw [exec_tick]
  refine ⟨fun h => congrArg Host.Outcome.next (if_pos (by simp [h])), fun h => ⟨_, rfl, ?_⟩⟩
  generalize silent.map (fun r => r.val) = silent
  rw [tick_of_ready h]
  obtain ⟨hclosed, -, hreleased⟩ := tickClosed_kept s silent
  have hstart := tickStart_frame (tickClosed s silent) (nextCount (tickClosed s silent))
  obtain ⟨hpending, hacquired, hreleased', hsafe, -⟩ := hstart
  have hopen : FrameKept _ (tickOpened s silent) := openFrame_kept _ _
  have hend := tickEnded_kept (tickOpened s silent)
  refine ⟨?_, hend.released (hopen.released (hreleased' hreleased)), rfl, ?_, fun hreq => ?_, fun hreq hjob => ?_,
    fun hreq hrun => ?_, fun hs => ?_⟩
  · rw [hend.acquired, hopen.acquired, hacquired, hclosed.acquired]
    rfl
  · rw [hend.pending, hopen.pending, hpending, hclosed.pending]
    rfl
  · have hcount := (tickStart_of_none (hclosed.commitReq.trans hreq) (nextCount (tickClosed s silent))).1
    rw [hend.tick, hopen.tick, hcount, nextCount, hclosed.tick]
    rfl
  · have hnone := tickStart_of_atNextTick (hclosed.commitReq.trans hreq) (fun e => hjob (hclosed.rstJob.symm.trans e))
      (nextCount (tickClosed s silent))
    rw [hend.commitReq, hopen.commitReq, hnone]
  · have hctrl := (tickStart_of_none (hclosed.commitReq.trans hreq) (nextCount (tickClosed s silent))).2
    have hstopped : bit ((tickClosed s silent).reg FRM_CTRL) 0 = false := by
      rw [hclosed.ctrl]
      exact hrun
    rw [tickEnded_armed]
    exact tickOpened_armed (walks_of_stopped (by rw [hctrl, hstopped]) _)
  · have hsafe' := hsafe (hclosed.safe hs)
    refine ⟨?_, hend.safe (hopen.safe hsafe')⟩
    rw [tickEnded_armed]
    exact tickOpened_armed (walks_of_safe hsafe' _)

end Sys2Proof.Machine

/-! PROOFS. O15: exact addition, the fields of wide words and the check of a drain. Over one accumulator and one wide
word, with no state. -/

namespace Sys2Proof.Machine

/-! ### Exact addition (R76) -/

/-- The accumulator after a list of terms with their causes has been added. -/
def addTerms (x : Wide) (ts : List (Int × Cause)) : Wide := ts.foldl (fun x e => (accAddTerm x e.1 e.2).1) x

theorem accAddTerm_full {x : Wide} (p : Int) (c : Cause) (h : x.terms = 65535) :
    (accAddTerm x p c).1 = { x with cause := causeJoin x.cause .count } := by
  rw [accAddTerm, if_pos h]

theorem accAddTerm_room {x : Wide} (p : Int) (c : Cause) (h : x.terms ≠ 65535) :
    (accAddTerm x p c).1
      = { x with a := x.a + BitVec.ofInt 96 p, terms := x.terms + 1, cause := causeJoin x.cause c } := by
  rw [accAddTerm, if_neg h]

/-- While TERMS has room for every term, A grows by their sum modulo 2^96 and TERMS by their number. -/
theorem addTerms_of_room (ts : List (Int × Cause)) (x : Wide) (h : x.terms.toNat + ts.length ≤ 65535) :
    (addTerms x ts).a = x.a + BitVec.ofInt 96 (ts.map Prod.fst).sum
      ∧ (addTerms x ts).terms.toNat = x.terms.toNat + ts.length := by
  induction ts generalizing x with
  | nil => simp [addTerms]
  | cons e ts ih =>
    rw [List.length_cons] at h
    have hroom : x.terms ≠ 65535 := by
      intro e
      simp [e] at h
    have hnext : (x.terms + 1).toNat = x.terms.toNat + 1 := by
      rw [BitVec.toNat_add]
      exact Nat.mod_eq_of_lt (by simp; omega)
    have hcons : addTerms x (e :: ts) = addTerms (accAddTerm x e.1 e.2).1 ts := rfl
    rw [hcons, accAddTerm_room _ _ hroom]
    obtain ⟨ha, hterms⟩ := ih { x with a := _, terms := x.terms + 1, cause := _ } (by rw [hnext]; omega)
    constructor
    · rw [ha, List.map_cons, List.sum_cons, BitVec.ofInt_add, BitVec.add_assoc]
    · rw [hterms, hnext, List.length_cons]
      omega

/-- 65,535 terms within the window top sum to a value that the 96 bits of A hold. -/
theorem toInt_sum_of_window {ts : List (Int × Cause)} (hwin : ∀ e ∈ ts, e.1.natAbs ≤ 2 ^ 79 - 1)
    (hlen : ts.length ≤ 65535) : (BitVec.ofInt 96 (ts.map Prod.fst).sum).toInt = (ts.map Prod.fst).sum := by
  have hterm : ∀ n ∈ ts.map Prod.fst, -(2 ^ 79 - 1) ≤ n ∧ n ≤ 2 ^ 79 - 1 := by
    intro n hn
    obtain ⟨e, he, rfl⟩ := List.mem_map.1 hn
    have := hwin e he
    omega
  have hlow := List.card_nsmul_le_sum _ _ fun n hn => (hterm n hn).1
  have hhigh := List.sum_le_card_nsmul _ _ fun n hn => (hterm n hn).2
  rw [List.length_map, nsmul_eq_mul] at hlow hhigh
  generalize (ts.map Prod.fst).sum = n at *
  exact BitVec.toInt_ofInt_eq_self (by decide) (by omega) (by omega)

/-- Exact addition: the terms of a cleared accumulator add up to the sum of any order of them. -/
theorem addTerms_wideClear {ts us : List (Int × Cause)} (w : BitVec 10) (hwin : ∀ e ∈ ts, e.1.natAbs ≤ 2 ^ 79 - 1)
    (hlen : ts.length ≤ 65535) (hperm : ts.Perm us) :
    (addTerms (wideClear w) us).a.toInt = (ts.map Prod.fst).sum
      ∧ (addTerms (wideClear w) us).terms.toNat = ts.length := by
  obtain ⟨ha, hterms⟩ := addTerms_of_room us (wideClear w) (by simpa [wideClear, ← hperm.length_eq] using hlen)
  have hsum : (us.map Prod.fst).sum = (ts.map Prod.fst).sum := (hperm.map Prod.fst).sum_eq.symm
  constructor
  · rw [ha, hsum]
    exact (congrArg BitVec.toInt (BitVec.zero_add _)).trans (toInt_sum_of_window hwin hlen)
  · rw [hterms, ← hperm.length_eq]
    exact Nat.zero_add _

/-! ### Wide words (R78) -/

@[simp] theorem causeOfCode_causeCode (c : Cause) : causeOfCode (causeCode c) = c := by cases c <;> rfl

theorem causeCode_lt (c : Cause) : causeCode c < 8 := by cases c <;> decide

/-- The `n` bits at `k` of a number are the digit that stands there, whatever stands below and above it. -/
theorem extractLsb'_ofNat_of_eq {m k n x lo hi : Nat} {v : BitVec n} (hx : x = lo + 2 ^ k * (v.toNat + 2 ^ n * hi))
    (hlo : lo < 2 ^ k) (hm : k + n ≤ m) : (BitVec.ofNat m x).extractLsb' k n = v := by
  apply BitVec.eq_of_toNat_eq
  obtain ⟨d, rfl⟩ := Nat.exists_eq_add_of_le hm
  rw [BitVec.extractLsb'_toNat, BitVec.toNat_ofNat, Nat.shiftRight_eq_div_pow, Nat.add_assoc, Nat.pow_add,
    Nat.mod_mul_right_div_self, Nat.mod_mod_of_dvd _ (pow_dvd_pow 2 (Nat.le_add_right n d)), hx,
    Nat.add_mul_div_left _ _ (Nat.two_pow_pos k), Nat.div_eq_of_lt hlo, Nat.zero_add, Nat.add_mul_mod_self_left,
    Nat.mod_eq_of_lt v.isLt]

/-- The fields of a wide word, and its reserved bits 127:125. -/
theorem wideBits_fields (x : Wide) :
    (wideBits x).extractLsb' 0 96 = x.a ∧ (wideBits x).extractLsb' 96 10 = x.w
      ∧ (wideBits x).extractLsb' 106 3 = BitVec.ofNat 3 (causeCode x.cause)
      ∧ (wideBits x).extractLsb' 109 16 = x.terms ∧ (wideBits x).extractLsb' 125 3 = 0 := by
  have ha := x.a.isLt
  have hw := x.w.isLt
  have hc := causeCode_lt x.cause
  have ht := x.terms.isLt
  have hcode : (BitVec.ofNat 3 (causeCode x.cause)).toNat = causeCode x.cause := Nat.mod_eq_of_lt hc
  have hzero : (0 : BitVec 3).toNat = 0 := rfl
  refine ⟨?_, ?_, ?_, ?_, ?_⟩
  · exact extractLsb'_ofNat_of_eq (lo := 0) (hi := x.w.toNat + 2 ^ 10 * (causeCode x.cause + 2 ^ 3 * x.terms.toNat))
      (by ring) (by decide) (by decide)
  · exact extractLsb'_ofNat_of_eq (lo := x.a.toNat) (hi := causeCode x.cause + 2 ^ 3 * x.terms.toNat)
      (by ring) ha (by decide)
  · exact extractLsb'_ofNat_of_eq (lo := x.a.toNat + 2 ^ 96 * x.w.toNat) (hi := x.terms.toNat)
      (by rw [hcode]; ring) (by omega) (by decide)
  · exact extractLsb'_ofNat_of_eq (lo := x.a.toNat + 2 ^ 96 * (x.w.toNat + 2 ^ 10 * causeCode x.cause)) (hi := 0)
      (by ring) (by omega) (by decide)
  · exact extractLsb'_ofNat_of_eq
      (lo := x.a.toNat + 2 ^ 96 * (x.w.toNat + 2 ^ 10 * (causeCode x.cause + 2 ^ 3 * x.terms.toNat))) (hi := 0)
      (by rw [hzero]; ring) (by omega) (by decide)

theorem wideOfBits_wideBits (x : Wide) : wideOfBits (wideBits x) = x := by
  obtain ⟨ha, hw, hcause, hterms, -⟩ := wideBits_fields x
  have hcode : (BitVec.ofNat 3 (causeCode x.cause)).toNat = causeCode x.cause :=
    Nat.mod_eq_of_lt (causeCode_lt x.cause)
  rw [wideOfBits, ha, hw, hcause, hterms, hcode, causeOfCode_causeCode]

/-! ### The drain check (R77) -/

theorem drainCheck_within {x : Wide} (h : x.a.toInt.natAbs ≤ 2 ^ 79 - 1) : (drainCheck x).1 = x := by
  rw [drainCheck, if_neg (show ¬ windowTop < _ from Nat.not_lt.2 h)]

theorem drainCheck_beyond {x : Wide} (h : 2 ^ 79 - 1 < x.a.toInt.natAbs) :
    (drainCheck x).1 = { x with
      a := BitVec.ofInt 96 (if x.a.toInt < 0 then -(windowTop : Int) else windowTop)
      cause := causeJoin x.cause .windowHigh } := by
  rw [drainCheck, if_pos (show windowTop < _ from h)]

theorem toInt_saturated (n : Int) :
    (BitVec.ofInt 96 (if n < 0 then -(windowTop : Int) else windowTop)).toInt
      = if n < 0 then -(2 ^ 79 - 1) else 2 ^ 79 - 1 := by
  split <;> decide

/-- Settles O15: the terms add up in any order because their sum fits 96 bits, each field of a wide word is a digit of
the number it is written as, and the check of a drain has two cases. -/
theorem accumulatorsAndWideWords : Obligations.AccumulatorsAndWideWords := by
  refine ⟨⟨fun w ts us hwin hlen hperm => addTerms_wideClear w hwin hlen hperm,
    fun x p c h => accAddTerm_full p c h⟩, fun x => ⟨wideOfBits_wideBits x, wideBits_fields x⟩,
    fun x => ⟨drainCheck_within, fun h => ?_⟩⟩
  rw [drainCheck_beyond h]
  exact ⟨toInt_saturated _, rfl, rfl, rfl⟩

end Sys2Proof.Machine

/-! PROOFS. O18: the checksum comparison and the combination of partial sums. Both fold over the arrays of a pass; what
the step of one array reads and writes is a view of the state that the steps of the other arrays leave alone. -/

namespace Sys2Proof.Machine

/-! ### Folds over the parts of a state -/

/-- What a fold does to the part that `g` shows is what the step of its own element does: the steps of the others leave
that part alone. -/
theorem foldl_at_mem {α β γ : Type} (g : α → γ) {f : α → β → α} {l : List β} {b : β} (hnd : l.Nodup) (hb : b ∈ l)
    (hother : ∀ a, ∀ c ∈ l, c ≠ b → g (f a c) = g a) (a : α) : ∃ y, g y = g a ∧ g (l.foldl f a) = g (f y b) := by
  obtain ⟨l₁, l₂, rfl⟩ := List.append_of_mem hb
  obtain ⟨hb₁, hb₂⟩ : b ∉ l₁ ∧ b ∉ l₂ := by
    rw [List.nodup_middle, List.nodup_cons, List.mem_append, not_or] at hnd
    exact hnd.1
  refine ⟨l₁.foldl f a, ?_, ?_⟩
  · exact foldl_keeps g (fun a c hc => hother a c (by simp [hc]) fun e => hb₁ (e ▸ hc)) a
  · rw [List.foldl_append, List.foldl_cons]
    exact foldl_keeps g (fun a c hc => hother a c (by simp [hc]) fun e => hb₂ (e ▸ hc)) _

theorem foldl_of_fixed {α β : Type} {f : α → β → α} {l : List β} {a : α} (h : ∀ b ∈ l, f a b = a) :
    l.foldl f a = a := by
  induction l with
  | nil => rfl
  | cons b l ih => rw [List.foldl_cons, h b (by simp), ih fun c hc => h c (by simp [hc])]

/-! ### Arrays and their registers -/

@[simp] theorem array_setArray_same (s : State) (t a : Nat) (m : MxArray) : (s.setArray t a m).array t a = m := by
  simp [State.array, State.setArray]

@[simp] theorem array_setArray_ne (s : State) (t : Nat) {a b : Nat} (m : MxArray) (h : b ≠ a) :
    (s.setArray t a m).array t b = s.array t b := by
  simp [State.array, State.setArray, mapGet_mapSet_ne _ _ _ h]

@[simp] theorem reg_setArray (s : State) (t a : Nat) (m : MxArray) (o : Nat) :
    (s.setArray t a m).reg o = s.reg o := rfl

theorem tile_setArray_ne (s : State) {t u : Nat} (a : Nat) (m : MxArray) (h : u ≠ t) :
    (s.setArray t a m).tile u = s.tile u := State.tile_modTile_ne _ _ h

@[simp] theorem array_setPass (s : State) (t i : Nat) (p : Pass) (a : Nat) :
    (s.setPass t i p).array t a = s.array t a := by
  simp [State.array, State.setPass]

@[simp] theorem passes_setPass (s : State) (t i : Nat) (p : Pass) :
    ((s.setPass t i p).tile t).passes = (s.tile t).passes.set i p := by
  simp [State.setPass]

@[simp] theorem reg_setPass (s : State) (t i : Nat) (p : Pass) (o : Nat) :
    (s.setPass t i p).reg o = s.reg o := rfl

theorem tile_setPass_ne (s : State) {t u : Nat} (i : Nat) (p : Pass) (h : u ≠ t) :
    (s.setPass t i p).tile u = s.tile u := State.tile_modTile_ne _ _ h

/-- Arrays depend on nothing but the map of tiles. -/
theorem array_of_tiles {s s' : State} (h : s'.tiles = s.tiles) (t a : Nat) : s'.array t a = s.array t a := by
  rw [State.array, State.array, State.tile_of_tiles h]

theorem raiseCause_tiles (s : State) (t : Nat) (c : Cause) : (s.raiseCause t c).tiles = s.tiles := by
  rw [State.raiseCause]
  split
  · rfl
  · exact raise_tiles s _

/-- A command that takes a due event runs on a tile that runs the frame. -/
theorem onRun_of_runs {s : State} {t : Nat} (ht : t < s.tileCount) (hruns : s.tileRuns t = true) (f : State → State) :
    onRun s t f = .next (f s) := by
  rw [onRun, onTile_lt ht, hruns]
  rfl

theorem mem_passArrays_lt {p : Pass} {a : Nat} (h : a ∈ passArrays p) : a < 4 :=
  List.mem_range.1 (List.mem_of_mem_filter h)

/-- The arrays that run a pass are named in its descriptor words. -/
theorem passArrays_of_words {p p' : Pass} (h : p'.words = p.words) : passArrays p' = passArrays p := by
  simp only [passArrays, passAmask, passWord, h]

theorem nodup_passArrays (p : Pass) : (passArrays p).Nodup := List.nodup_range.filter _

/-! ### Accumulators and drain registers -/

theorem accOf_setAcc_same (m : MxArray) (j : Nat) (w : Wide) : accOf (setAcc m j w) j = w := mapGet_mapSet_same _ _ _ _

theorem accOf_setAcc_ne (m : MxArray) {j k : Nat} (w : Wide) (h : j ≠ k) : accOf (setAcc m k w) j = accOf m j :=
  mapGet_mapSet_ne _ _ _ h

/-- The copies of an array's 32 accumulators in a pass (R113). -/
def columnsOf (snap : SMap Wide) (a : Nat) : List Wide :=
  (List.range 32).map fun j => (mapFind snap (32 * a + j)).getD accReset

theorem columnsOf_mapPut_ne (snap : SMap Wide) {a b j : Nat} (w : Wide) (hj : j < 32) (h : a ≠ b) :
    columnsOf (mapPut snap (32 * b + j) w) a = columnsOf snap a := by
  refine List.map_congr_left fun k hk => ?_
  have hk := List.mem_range.1 hk
  rw [mapFind_mapPut, if_neg (by omega)]

/-! ### The comparison of one array (R86, R116, R118) -/

/-- A cause other than CHECK stands in a copied accumulator of the array. -/
def otherCause (p : Pass) (a : Nat) : Prop := ∃ w ∈ columnsOf p.snap a, w.cause ≠ .none ∧ w.cause ≠ .check

/-- The copied C is the sum of the array's copied accumulators. -/
def checksumAgrees (p : Pass) (a : Nat) : Prop :=
  (mapFind p.snapChk a).getD 0 = BitVec.ofInt 104 (((columnsOf p.snap a).map fun w => w.a.toInt).sum)

/-- The condition under which `compareArray` gives an array cause CHECK. -/
def arrayFails (p : Pass) (a : Nat) : Bool :=
  p.overflow.contains a || (!((columnsOf p.snap a).any fun w => w.cause != .none && w.cause != .check)
    && BitVec.ofInt 104 ((columnsOf p.snap a).foldl (fun (n : Int) w => n + w.a.toInt) 0)
      != (mapFind p.snapChk a).getD 0)

theorem arrayFails_iff (p : Pass) (a : Nat) :
    arrayFails p a = true ↔ a ∈ p.overflow ∨ (¬ otherCause p a ∧ ¬ checksumAgrees p a) := by
  have hsum : ((columnsOf p.snap a).foldl (fun (n : Int) w => n + w.a.toInt) 0)
      = ((columnsOf p.snap a).map fun w => w.a.toInt).sum := by
    rw [List.sum_eq_foldl, List.foldl_map]
  rw [arrayFails, otherCause, checksumAgrees, hsum, eq_comm (a := (mapFind p.snapChk a).getD 0)]
  simp

theorem arrayFails_eq_false_iff (p : Pass) (a : Nat) :
    arrayFails p a = false ↔ a ∉ p.overflow ∧ (otherCause p a ∨ checksumAgrees p a) := by
  rw [Bool.eq_false_iff, ne_eq, arrayFails_iff, not_or, not_and_or, not_not, not_not]

/-- A failed comparison is counted, flagged and reported to the Goose. -/
def recordCheck (t a : Nat) (e : State × Pass) : State × Pass :=
  (((e.1.incReg (MXA_CHK_FAILS t a)).orReg (MXA_EVENT t a) 2).raiseCause t .check,
    { e.2 with raised := e.2.raised ++ [(a, .check)] })

theorem compareArray_eq (s : State) (t a : Nat) (p : Pass) :
    compareArray s t a p = if arrayFails p a then recordCheck t a (poisonArray s t a p) else (s, p) := rfl

/-- What the comparisons of other arrays leave of an array: its accumulators, its registers and its copies. -/
structure CompareView where
  array : MxArray
  chkFails : BitVec 32
  event : BitVec 32
  overflow : List Nat
  snapChk : SMap (BitVec 104)
  columns : List Wide

/-- Array `a` of tile `t`, as a state and a pass show it. -/
def compareView (t a : Nat) (e : State × Pass) : CompareView where
  array := e.1.array t a
  chkFails := e.1.reg (MXA_CHK_FAILS t a)
  event := e.1.reg (MXA_EVENT t a)
  overflow := e.2.overflow
  snapChk := e.2.snapChk
  columns := columnsOf e.2.snap a

theorem arrayFails_of_view {t a : Nat} {e e' : State × Pass} (h : compareView t a e' = compareView t a e) :
    arrayFails e'.2 a = arrayFails e.2 a := by
  simp only [compareView, CompareView.mk.injEq] at h
  obtain ⟨-, -, -, hovf, hchk, hcols⟩ := h
  rw [arrayFails, arrayFails, hovf, hchk, hcols]

theorem accOf_poisonArray (s : State) (t a : Nat) (p : Pass) {j : Nat} (hj : j < 32) :
    accOf ((poisonArray s t a p).1.array t a) j
      = { accOf (s.array t a) j with cause := causeJoin (accOf (s.array t a) j).cause .check } := by
  obtain ⟨m, hm, hfold⟩ := foldl_at_mem (accOf · j)
    (f := fun m k => setAcc m k { accOf m k with cause := causeJoin (accOf m k).cause .check })
    List.nodup_range (List.mem_range.2 hj) (fun m k _ hk => accOf_setAcc_ne m _ hk.symm) (s.array t a)
  rw [poisonArray, array_setArray_same]
  exact hfold.trans (by rw [accOf_setAcc_same, hm])

theorem reg_poisonArray (s : State) (t a : Nat) (p : Pass) (o : Nat) : (poisonArray s t a p).1.reg o = s.reg o :=
  reg_setArray _ _ _ _ _

theorem columnsOf_poisonArray_ne (s : State) (t : Nat) {a b : Nat} (p : Pass) (h : b ≠ a) :
    columnsOf (poisonArray s t a p).2.snap b = columnsOf p.snap b := by
  simp only [poisonArray]
  exact foldl_keeps (columnsOf · b) (fun q j hj => columnsOf_mapPut_ne q _ (List.mem_range.1 hj) h) p.snap

section
variable (t a : Nat) (e : State × Pass)

theorem raiseCause_check (s : State) :
    s.raiseCause t .check = s.raise ⟨.check, s.tileRegion t, t, s.cycle t, 2⟩ := by
  rw [State.raiseCause, if_neg (by decide), State.raiseTile]
  rfl

theorem arrayRegs_ne (b : Nat) : MXA_CHK_FAILS t b ≠ MXA_EVENT t a := by
  simp only [MXA_EVENT, MXA_CHK_FAILS]
  omega

theorem reg_recordCheck {o : Nat} (ho : ∀ r, o ∉ hardRegs r) : (recordCheck t a e).1.reg o
    = if o = MXA_EVENT t a then e.1.reg (MXA_EVENT t a) ||| 2
      else if o = MXA_CHK_FAILS t a then
        BitVec.ofNat 32 (min ((e.1.reg (MXA_CHK_FAILS t a)).toNat + 1) (2 ^ 32 - 1))
      else e.1.reg o := by
  have hraise : ∀ s : State, (s.raiseCause t .check).reg o = s.reg o := fun s => by
    rw [raiseCause_check]
    exact (raise_hard s _ rfl).2 o (ho _)
  rw [recordCheck, hraise, State.reg_orReg, State.reg_incReg, State.reg_incReg, if_neg (arrayRegs_ne t a a).symm]

theorem tile_recordCheck (u : Nat) : (recordCheck t a e).1.tile u = e.1.tile u :=
  State.tile_of_tiles (raiseCause_tiles _ _ _) u

theorem array_recordCheck (b : Nat) : (recordCheck t a e).1.array t b = e.1.array t b :=
  array_of_tiles (raiseCause_tiles _ _ _) t b

end

/-- The event of a failed checksum is recorded in none of an array's registers. -/
theorem arrayRegs_not_mem_hardRegs (t : Nat) {a : Nat} (_ : a < 4) (r : Nat) :
    MXA_CHK_FAILS t a ∉ hardRegs r ∧ MXA_EVENT t a ∉ hardRegs r := by
  simp only [hardRegs, List.mem_cons, List.not_mem_nil, or_false, not_or, MXA_CHK_FAILS, MXA_EVENT, GOS_L_HARD,
    GOS_L_EVENT, GOS_REC_FAULT, tileBase, regionBase]
  omega

/-- The record of a failed comparison shows nothing in other arrays. -/
theorem compareView_recordCheck_ne {t a b : Nat} (hb : b < 4) (h : b ≠ a) (e : State × Pass) :
    compareView t b (recordCheck t a e) = compareView t b e := by
  have hchk := reg_recordCheck t a e fun r => (arrayRegs_not_mem_hardRegs t hb r).1
  have hevent := reg_recordCheck t a e fun r => (arrayRegs_not_mem_hardRegs t hb r).2
  rw [if_neg (arrayRegs_ne t a b), if_neg (by simp only [MXA_CHK_FAILS]; omega)] at hchk
  rw [if_neg (by simp only [MXA_EVENT]; omega), if_neg (arrayRegs_ne t b a).symm] at hevent
  rw [compareView, hchk, hevent, array_recordCheck]
  rfl

theorem compareView_poisonArray_ne (s : State) (t : Nat) {a b : Nat} (p : Pass) (h : b ≠ a) :
    compareView t b (poisonArray s t a p) = compareView t b (s, p) := by
  have hcols := columnsOf_poisonArray_ne s t p h
  simp only [poisonArray] at hcols
  simp only [compareView, poisonArray, hcols, array_setArray_ne s t _ h, reg_setArray]

/-- The comparison of one array leaves the others alone. -/
theorem compareView_compareArray_ne {t a b : Nat} (hb : b < 4) (h : b ≠ a) (e : State × Pass) :
    compareView t b (compareArray e.1 t a e.2) = compareView t b e := by
  rw [compareArray_eq]
  split
  · rw [compareView_recordCheck_ne hb h, compareView_poisonArray_ne _ _ _ h]
  · rfl

/-- The state and the pass once all arrays of the pass have been compared. -/
def compareArrays (s : State) (t : Nat) (p : Pass) : State × Pass :=
  (passArrays p).foldl (fun e a => compareArray e.1 t a e.2) (s, p)

theorem compareArrays_of_agree {t : Nat} {s : State} {p : Pass} (h : ∀ a ∈ passArrays p, arrayFails p a = false) :
    compareArrays s t p = (s, p) :=
  foldl_of_fixed fun a ha => by rw [compareArray_eq, h a ha]; rfl

section
variable {s : State} {t a : Nat} {p : Pass}

/-- The comparisons of a pass that fails in array `a` end, for `a`, as its failure alone does in a state that shows the
same of it. -/
theorem compareView_compareArrays (ha : a ∈ passArrays p) (hf : arrayFails p a = true) :
    ∃ e, compareView t a e = compareView t a (s, p)
      ∧ compareView t a (compareArrays s t p) = compareView t a (recordCheck t a (poisonArray e.1 t a e.2)) := by
  obtain ⟨e, he, hfold⟩ := foldl_at_mem (compareView t a) (nodup_passArrays p) ha
    (fun e b _ hb => compareView_compareArray_ne (mem_passArrays_lt ha) hb.symm e) (s, p)
  refine ⟨e, he, hfold.trans ?_⟩
  rw [compareArray_eq, if_pos ((arrayFails_of_view he).trans hf)]

/-- What the comparisons leave in the accumulators and registers of an array that fails (R86). -/
theorem compareArrays_of_fails (ha : a ∈ passArrays p) (hf : arrayFails p a = true) :
    let s' := (compareArrays s t p).1
    (∀ j, j < 32 → accOf (s'.array t a) j
        = { accOf (s.array t a) j with cause := causeJoin (accOf (s.array t a) j).cause .check })
      ∧ s'.reg (MXA_CHK_FAILS t a) = BitVec.ofNat 32 (min ((s.reg (MXA_CHK_FAILS t a)).toNat + 1) (2 ^ 32 - 1))
      ∧ s'.reg (MXA_EVENT t a) = s.reg (MXA_EVENT t a) ||| 2 := by
  obtain ⟨e, he, hfold⟩ := compareView_compareArrays (s := s) (t := t) ha hf
  simp only [compareView, CompareView.mk.injEq] at he hfold
  obtain ⟨harray, hchk, hevent, -⟩ := he
  obtain ⟨harray', hchk', hevent', -⟩ := hfold
  have hregs := arrayRegs_not_mem_hardRegs t (mem_passArrays_lt ha)
  refine ⟨fun j hj => ?_, ?_, ?_⟩
  · rw [harray', array_recordCheck, accOf_poisonArray _ _ _ _ hj, harray]
  · rw [hchk', reg_recordCheck _ _ _ fun r => (hregs r).1, if_neg (arrayRegs_ne t a a), if_pos rfl, reg_poisonArray,
      hchk]
  · rw [hevent', reg_recordCheck _ _ _ fun r => (hregs r).2, if_pos rfl, reg_poisonArray, hevent]

end

theorem compareArray_tile_ne {t u : Nat} (h : u ≠ t) (e : State × Pass) (a : Nat) :
    (compareArray e.1 t a e.2).1.tile u = e.1.tile u := by
  rw [compareArray_eq]
  split
  · exact (tile_recordCheck _ _ _ _).trans (tile_setArray_ne _ _ _ h)
  · rfl

/-! ### The comparison of a pass -/

theorem exec_checksumCompare {s : State} {t i : Nat} {p : Pass} (ht : t < s.tileCount) (hruns : s.tileRuns t = true)
    (hfind : findPass s t (fun p => p.copied && !p.compared && passCls p != .bf16 && passK p != 0
      && s.dueNow t (passLastU p + 1)) = some (i, p)) :
    exec (.checksumCompare t) s = .next (compareAt s t i p) := by
  have hrun : exec (.checksumCompare t) s = onRun s t fun s => checksumCompare s t := rfl
  rw [hrun, onRun_of_runs ht hruns, checksumCompare, hfind]

theorem compareAt_eq (s : State) (t i : Nat) (p : Pass) : compareAt s t i p =
    (compareArrays s t p).1.setPass t i { (compareArrays s t p).2 with compared := true } := rfl

theorem sameTilesBut_compareAt (s : State) (t i : Nat) (p : Pass) : sameTilesBut s (compareAt s t i p) [t] := by
  intro u hu
  have hu : u ≠ t := by simpa using hu
  rw [compareAt_eq, tile_setPass_ne _ _ _ hu]
  exact foldl_keeps (fun e => e.1.tile u) (fun e a _ => compareArray_tile_ne hu e a) (s, p)

/-- A pass whose arrays all agree only notes that it has been compared. -/
theorem compareAt_of_agree {s : State} {t i : Nat} {p : Pass} (h : ∀ a ∈ passArrays p, arrayFails p a = false) :
    compareAt s t i p = s.setPass t i { p with compared := true } := by
  rw [compareAt_eq, compareArrays_of_agree h]

/-- An array that fails takes CHECK in every accumulator, and its registers record it (R86). -/
theorem compareAt_of_fails {s : State} {t i a : Nat} {p : Pass} (ha : a ∈ passArrays p) (hf : arrayFails p a = true) :
    (∀ j, j < 32 → (accOf ((compareAt s t i p).array t a) j).cause = causeJoin (accOf (s.array t a) j).cause .check
        ∧ (accOf ((compareAt s t i p).array t a) j).a = (accOf (s.array t a) j).a)
      ∧ ((compareAt s t i p).reg (MXA_CHK_FAILS t a)).toNat
        = min ((s.reg (MXA_CHK_FAILS t a)).toNat + 1) (2 ^ 32 - 1)
      ∧ bit ((compareAt s t i p).reg (MXA_EVENT t a)) 1 = true := by
  obtain ⟨hacc, hchk, hevent⟩ := compareArrays_of_fails (s := s) (t := t) ha hf
  rw [compareAt_eq]
  simp only [array_setPass, reg_setPass]
  refine ⟨fun j hj => ?_, ?_, ?_⟩
  · rw [hacc j hj]
    exact ⟨rfl, rfl⟩
  · rw [hchk, toNat_sat]
  · rw [hevent, bit_or, show bit 2 1 = true by decide, Bool.or_true]

/-! ### The combination of partial sums (R83, R119) -/

/-- The value that column `j` of array `a` combines to; an overflowed array gives NaN (R116). -/
def combinedValue (p : Pass) (a j : Nat) : BitVec 32 :=
  if p.overflow.contains a then 0x7FC00000
  else bf16Combine ((List.range 32).map fun r => mapGet 0 p.snapBfParts (1024 * a + 32 * j + r))

/-- The combination of one array: its combined values, those of the pass, and the flag of R84. -/
def combineArray (t : Nat) (e : State × Pass) (a : Nat) : State × Pass :=
  let vals := (List.range 32).map (combinedValue e.2 a)
  let m := e.1.array t a
  (((e.1.setArray t a
      { m with combined := (List.range 32).foldl (fun q j => mapSet 0 q j (vals.getD j 0)) m.combined }).orReg
        (MXA_EVENT t a) 0x100),
    { e.2 with snapBf := (List.range 32).foldl (fun q j => mapSet 0 q (32 * a + j) (vals.getD j 0)) e.2.snapBf })

/-- The state and the pass once all arrays of the pass have combined. -/
def combineArrays (s : State) (t : Nat) (p : Pass) : State × Pass := (passArrays p).foldl (combineArray t) (s, p)

theorem combineAt_eq (s : State) (t i : Nat) (p : Pass) : combineAt s t i p =
    (if (passArrays (combineArrays s t p).2).isEmpty then (combineArrays s t p).1
      else (combineArrays s t p).1.raiseTile t .uncovered 0).setPass t i
        { (combineArrays s t p).2 with combined := true } := by
  rw [combineAt, List.foldl_ext _ (combineArray t) (s, p) ?hstep]
  case hstep => exact fun e a _ => rfl
  rfl

/-- A tile's region is read from DMC_ROWMAP, which is not in a tile's window. -/
theorem tileRegion_setReg (s : State) {o : Nat} (v : BitVec 32) (h : 0x40000000 ≤ o) (t : Nat) :
    (s.setReg o v).tileRegion t = s.tileRegion t := by
  have hlo : (s.setReg o v).reg DMC_ROWMAP_LO = s.reg DMC_ROWMAP_LO :=
    State.reg_setReg_ne _ _ (by simp only [DMC_ROWMAP_LO]; omega)
  have hhi : (s.setReg o v).reg DMC_ROWMAP_HI = s.reg DMC_ROWMAP_HI :=
    State.reg_setReg_ne _ _ (by simp only [DMC_ROWMAP_HI]; omega)
  simp only [State.tileRegion, State.physRow, State.usedRows, State.rowMap, hlo, hhi]

/-- What the combination of an array leaves alone: what an event of the tile is raised with, the passes in flight, and
what the pass combines by. -/
structure CombineView where
  events : List GEvent
  frame : Frame
  tileRegion : Nat
  cycle : Nat
  passes : List Pass
  words : List (BitVec 32)
  overflow : List Nat
  partials : SMap (BitVec 32)

/-- What the combinations of a pass of tile `t` leave of a state and the pass. -/
def combineView (t : Nat) (e : State × Pass) : CombineView where
  events := e.1.events
  frame := e.1.frame
  tileRegion := e.1.tileRegion t
  cycle := e.1.cycle t
  passes := (e.1.tile t).passes
  words := e.2.words
  overflow := e.2.overflow
  partials := e.2.snapBfParts

theorem combineView_combineArray (t : Nat) (e : State × Pass) (a : Nat) :
    combineView t (combineArray t e a) = combineView t e := by
  have hkept : ∀ m q, combineView t ((e.1.setArray t a m).orReg (MXA_EVENT t a) 0x100, { e.2 with snapBf := q })
      = combineView t e := by
    intro m q
    have hregion : ((e.1.setArray t a m).orReg (MXA_EVENT t a) 0x100).tileRegion t = e.1.tileRegion t :=
      (tileRegion_setReg _ _ (by simp only [MXA_EVENT, tileBase]; omega) t).trans (raise_tileRegion _ _ _ _)
    rw [combineView, hregion]
    simp [combineView, State.setArray, State.orReg, State.cycle]
  exact hkept _ _

theorem combineArray_partials (t : Nat) (e : State × Pass) (a b : Nat) :
    ((combineArray t e a).1.array t b).partials = (e.1.array t b).partials := by
  have hreg : ∀ (s : State) o v, (s.orReg o v).array t b = s.array t b := fun _ _ _ => rfl
  rw [combineArray, hreg]
  by_cases h : b = a
  · subst h
    rw [array_setArray_same]
  · rw [array_setArray_ne _ _ _ h]

theorem tile_combineArray_ne {t u : Nat} (h : u ≠ t) (e : State × Pass) (a : Nat) :
    (combineArray t e a).1.tile u = e.1.tile u := tile_setArray_ne _ _ _ h

/-- The combined values of an array go to the drain registers of its columns. -/
theorem snapBf_combineArray_same (t a : Nat) (e : State × Pass) {j : Nat} (hj : j < 32) :
    mapGet 0 (combineArray t e a).2.snapBf (32 * a + j) = combinedValue e.2 a j := by
  simp only [combineArray]
  obtain ⟨q, -, hfold⟩ := foldl_at_mem (fun q => mapGet (0 : BitVec 32) q (32 * a + j))
    (f := fun q k => mapSet 0 q (32 * a + k) (((List.range 32).map (combinedValue e.2 a)).getD k 0))
    List.nodup_range (List.mem_range.2 hj) (fun q k _ hk => mapGet_mapSet_ne _ _ _ (by omega)) e.2.snapBf
  rw [hfold, mapGet_mapSet_same, List.getD_eq_getElem _ _ (by simpa using hj), List.getElem_map, List.getElem_range]

theorem snapBf_combineArray_ne (t : Nat) {a b : Nat} (e : State × Pass) {j : Nat} (hj : j < 32) (h : a ≠ b) :
    mapGet 0 (combineArray t e b).2.snapBf (32 * a + j) = mapGet 0 e.2.snapBf (32 * a + j) := by
  simp only [combineArray]
  refine foldl_keeps (fun q => mapGet (0 : BitVec 32) q (32 * a + j)) (fun q k hk => mapGet_mapSet_ne _ _ _ ?_) _
  have hk := List.mem_range.1 hk
  omega

theorem combinedValue_of_view {t : Nat} {e e' : State × Pass} (h : combineView t e' = combineView t e) (a j : Nat) :
    combinedValue e'.2 a j = combinedValue e.2 a j := by
  simp only [combineView, CombineView.mk.injEq] at h
  obtain ⟨-, -, -, -, -, -, hovf, hparts⟩ := h
  rw [combinedValue, combinedValue, hovf, hparts]

section
variable (s : State) (t : Nat) (p : Pass)

theorem combineView_combineArrays : combineView t (combineArrays s t p) = combineView t (s, p) :=
  foldl_keeps (combineView t) (fun e a _ => combineView_combineArray t e a) (s, p)

theorem combineArrays_partials (a : Nat) : ((combineArrays s t p).1.array t a).partials = (s.array t a).partials :=
  foldl_keeps (fun e : State × Pass => (e.1.array t a).partials) (fun e b _ => combineArray_partials t e b a) (s, p)

theorem tile_combineArrays_ne {u : Nat} (h : u ≠ t) : (combineArrays s t p).1.tile u = s.tile u :=
  foldl_keeps (fun e : State × Pass => e.1.tile u) (fun e a _ => tile_combineArray_ne h e a) (s, p)

theorem snapBf_combineArrays {a j : Nat} (ha : a ∈ passArrays p) (hj : j < 32) :
    mapGet 0 (combineArrays s t p).2.snapBf (32 * a + j) = combinedValue p a j := by
  obtain ⟨y, hy, hfold⟩ := foldl_at_mem
    (fun e : State × Pass => (mapGet (0 : BitVec 32) e.2.snapBf (32 * a + j), combineView t e))
    (f := combineArray t) (nodup_passArrays p) ha
    (fun e b _ hb => by simp only [snapBf_combineArray_ne t e hj hb.symm, combineView_combineArray]) (s, p)
  have hview : combineView t y = combineView t (s, p) := congrArg Prod.snd hy
  exact (congrArg Prod.fst hfold).trans ((snapBf_combineArray_same t a y hj).trans (combinedValue_of_view hview a j))

end

/-! ### The combination of a pass -/

/-- A conditional event is held by the open frame and counted nowhere (R370, R372). -/
theorem raise_conditional {s : State} {e : GEvent} (hd : s.frame.draining = false)
    (h : evClass e.kind = .conditional) : s.raise e = { s with events := s.events ++ [e] } := by
  have hcount : localCount s e = s := by rw [localCount, h]
  rw [State.raise, hd, State.raiseFrame, hcount]
  rfl

theorem exec_bf16Combine {s : State} {t i : Nat} {p : Pass} (ht : t < s.tileCount) (hruns : s.tileRuns t = true)
    (hfind : findPass s t (fun p => p.copied && !p.combined && passCls p == .bf16 && s.dueNow t (passV p))
      = some (i, p)) : exec (.bf16Combine t) s = .next (combineAt s t i p) := by
  have hrun : exec (.bf16Combine t) s = onRun s t fun s => bf16CombineStep s t := rfl
  rw [hrun, onRun_of_runs ht hruns, bf16CombineStep, hfind]

/-- A pass that runs on an array raises UNCOVERED: no checksum covers it (R84). -/
theorem combineAt_events {s : State} {t : Nat} {p : Pass} (i : Nat) (hd : s.frame.draining = false)
    (hne : passArrays p ≠ []) :
    (combineAt s t i p).events = s.events ++ [⟨.uncovered, s.tileRegion t, t, s.cycle t, 0⟩] := by
  have hview := combineView_combineArrays s t p
  simp only [combineView, CombineView.mk.injEq] at hview
  obtain ⟨hevents, hframe, hregion, hcycle, -, hwords, -⟩ := hview
  have hne : ¬ (passArrays (combineArrays s t p).2).isEmpty = true := by
    rw [passArrays_of_words hwords]
    simpa using hne
  rw [combineAt_eq, if_neg hne, State.raiseTile, raise_conditional (by rw [hframe, hd]) rfl, hevents, hregion, hcycle]
  rfl

/-- The tiles of a state in which a pass has combined: those of its arrays' combination, with the pass replaced. -/
theorem combineAt_tiles (s : State) (t i : Nat) (p : Pass) : (combineAt s t i p).tiles
    = ((combineArrays s t p).1.setPass t i { (combineArrays s t p).2 with combined := true }).tiles := by
  have hraise : ∀ e : GEvent, ((combineArrays s t p).1.raise e).tiles = (combineArrays s t p).1.tiles := raise_tiles _
  rw [combineAt_eq]
  split
  · rfl
  · simp only [State.setPass, State.modTile, State.setTile, State.raiseTile, raise_tile, hraise]

theorem combineAt_passes (s : State) (t i : Nat) (p : Pass) : ((combineAt s t i p).tile t).passes
    = (s.tile t).passes.set i { (combineArrays s t p).2 with combined := true } := by
  have hview := combineView_combineArrays s t p
  simp only [combineView, CombineView.mk.injEq] at hview
  obtain ⟨-, -, -, -, hpasses, -⟩ := hview
  rw [State.tile_of_tiles (combineAt_tiles s t i p), passes_setPass, hpasses]

theorem combineAt_partials (s : State) (t i : Nat) (p : Pass) (a : Nat) :
    ((combineAt s t i p).array t a).partials = (s.array t a).partials := by
  rw [array_of_tiles (combineAt_tiles s t i p), array_setPass, combineArrays_partials]

theorem sameTilesBut_combineAt (s : State) (t i : Nat) (p : Pass) : sameTilesBut s (combineAt s t i p) [t] := by
  intro u hu
  have hu : u ≠ t := by simpa using hu
  rw [State.tile_of_tiles (combineAt_tiles s t i p), tile_setPass_ne _ _ _ hu, tile_combineArrays_ne _ _ _ hu]

/-! ### The statement -/

/-- Settles O18: the comparison of an array and its combination touch nothing that the other arrays of the pass decide
by, so each does in the pass what it does alone. -/
theorem checksumsAndPartials : Obligations.ChecksumsAndPartials := by
  refine ⟨fun s t i p ht hruns hfind => ?_, fun s t i p ht hruns hd hfind => ?_⟩
  · refine ⟨_, exec_checksumCompare ht hruns hfind, sameMemory_of_mems (mems_compareAt ..),
      sameTilesBut_compareAt s t i p, fun h => ?_, fun a ha h => compareAt_of_fails ha ((arrayFails_iff p a).2 h)⟩
    rw [compareAt_of_agree fun a ha => (arrayFails_eq_false_iff p a).2 (h a ha)]
    exact ⟨rfl, rfl, passes_setPass _ _ _ _, array_setPass _ _ _ _⟩
  · refine ⟨_, _, exec_bf16Combine ht hruns hfind, combineAt_passes s t i p, rfl, combineAt_events i hd,
      fun a ha j hj => ⟨snapBf_combineArrays s t p ha hj, combineAt_partials s t i p a⟩,
      sameMemory_of_mems (mems_combineAt ..), sameTilesBut_combineAt s t i p⟩

end Sys2Proof.Machine

/-! PROOFS. O19: the issue of a vector instruction. What the work of an instruction's rows keeps of the module, whatever
the instruction: the other tiles, the tile's control state, a promise once broken, and the instruction in issue. -/

namespace Sys2Proof.Machine

/-! ### The commands of the vector slot -/

theorem exec_vecOp {i : Instr} {t vop : Nat} {v : VecSlot} (h : vecOp i = some (t, vop, v)) (s : State) :
    exec i s = onIssue s t fun s => vecIssue s t vop v := by
  unfold vecOp at h
  split at h <;> cases h <;> rfl

theorem exec_vecOp_of_issuing {i : Instr} {s : State} {t vop : Nat} {v : VecSlot} (h : vecOp i = some (t, vop, v))
    (hs : issuing s t) : exec i s = .next (vecIssue s t vop v) := by
  obtain ⟨ht, hissues⟩ := hs
  rw [exec_vecOp h, onIssue, onTile_lt ht, hissues]
  rfl

/-! ### Updates of a tile's vector engine -/

section
variable (s : State) (t : Nat) (f : Vec → Vec)

@[simp] theorem State.tile_modVec_same : (s.modVec t f).tile t = { s.tile t with vec := f (s.vec t) } :=
  State.tile_modTile_same ..

@[simp] theorem State.tile_modVec_ne {u : Nat} (h : u ≠ t) : (s.modVec t f).tile u = s.tile u :=
  State.tile_modTile_ne _ _ h

@[simp] theorem State.vec_modVec_same : (s.modVec t f).vec t = f (s.vec t) := by simp [State.vec]

@[simp] theorem State.reg_modVec (o : Nat) : (s.modVec t f).reg o = s.reg o := rfl

@[simp] theorem State.latency_modVec (u : Nat) (l : Latency) : (s.modVec t f).latency u l = s.latency u l := rfl

@[simp] theorem State.cycle_modVec_same : (s.modVec t f).cycle t = s.cycle t := by simp [State.cycle]

theorem sameTilesBut_modVec : sameTilesBut s (s.modVec t f) [t] := fun u hu =>
  State.tile_modVec_ne s t f (by simpa using hu)

theorem onlyVec_modVec : onlyVec s (s.modVec t f) t :=
  ⟨rfl, sameTilesBut_modVec s t f, by rw [State.tile_modVec_same]⟩

end

theorem sameTilesBut.trans {s s' s'' : State} {ts : List Nat} (h : sameTilesBut s s' ts)
    (h' : sameTilesBut s' s'' ts) : sameTilesBut s s'' ts :=
  fun u hu => (h' u hu).trans (h u hu)

theorem sameTilesBut_of_tiles {s s' : State} (h : s'.tiles = s.tiles) (ts : List Nat) : sameTilesBut s s' ts :=
  fun u _ => State.tile_of_tiles h u

/-! ### What the work of a row keeps -/

/-- What an instruction in issue carries unchanged through its rows: VOP, slot and cycle of issue. -/
def VecRun.core (r : VecRun) : Nat × VecSlot × Nat := (r.vop, r.slot, r.issue)

/-- What a row of an instruction of tile `t` decides by and keeps: the other tiles, the tile's control state, its
promises, and the instruction in issue. -/
structure RowView where
  others : Nat → Tile
  ctl : Ctl
  broken : Bool
  run : Option (Nat × VecSlot × Nat)

/-- What a row of an instruction of tile `t` keeps of a state. -/
def rowView (t : Nat) (s : State) : RowView where
  others u := if u = t then tileReset else s.tile u
  ctl := (s.tile t).ctl
  broken := (s.tile t).broken
  run := (s.vec t).run.map VecRun.core

/-- What stays while a row neither writes a result nor meets an error in the engine: the engine too, but for what the
instruction in issue has noted. -/
structure EngineView where
  row : RowView
  vec : Vec

/-- What the operations of a row outside the engine keep of a state. -/
def engineView (t : Nat) (s : State) : EngineView := ⟨rowView t s, { s.vec t with run := none }⟩

section
variable {t : Nat} {s s' : State}

theorem rowView_of_engineView (h : engineView t s' = engineView t s) : rowView t s' = rowView t s :=
  congrArg EngineView.row h

theorem sameTilesBut_of_rowView (h : rowView t s' = rowView t s) : sameTilesBut s s' [t] := by
  intro u hu
  have hu : u ≠ t := by simpa using hu
  simpa [rowView, hu] using congrFun (congrArg RowView.others h) u

theorem ctl_of_rowView (h : rowView t s' = rowView t s) : (s'.tile t).ctl = (s.tile t).ctl := congrArg RowView.ctl h

theorem broken_of_rowView (h : rowView t s' = rowView t s) : (s'.tile t).broken = (s.tile t).broken :=
  congrArg RowView.broken h

theorem run_of_rowView (h : rowView t s' = rowView t s) :
    (s'.vec t).run.map VecRun.core = (s.vec t).run.map VecRun.core := congrArg RowView.run h

theorem vec_of_engineView (h : engineView t s' = engineView t s) :
    { s'.vec t with run := none } = { s.vec t with run := none } := congrArg EngineView.vec h

theorem engineView_of_tiles (h : s'.tiles = s.tiles) : engineView t s' = engineView t s := by
  simp only [engineView, rowView, State.vec, State.tile_of_tiles h]

@[simp] theorem engineView_modTile {f : Tile → Tile}
    (hf : ∀ x, (f x).ctl = x.ctl ∧ (f x).vec = x.vec ∧ (f x).broken = x.broken) :
    engineView t (s.modTile t f) = engineView t s := by
  obtain ⟨hctl, hvec, hbroken⟩ := hf (s.tile t)
  have hothers : ∀ u, (if u = t then tileReset else (s.modTile t f).tile u) = if u = t then tileReset else s.tile u := by
    intro u
    split
    · rfl
    · exact State.tile_modTile_ne _ _ ‹_›
  simp only [engineView, rowView, State.vec, State.tile_modTile_same, hothers, hctl, hvec, hbroken]

@[simp] theorem rowView_modVec {f : Vec → Vec}
    (hf : ∀ v, (f v).run.map VecRun.core = v.run.map VecRun.core) : rowView t (s.modVec t f) = rowView t s := by
  have hothers : ∀ u, (if u = t then tileReset else (s.modVec t f).tile u) = if u = t then tileReset else s.tile u := by
    intro u
    split
    · rfl
    · exact State.tile_modVec_ne _ _ _ ‹_›
  simp only [rowView, State.vec_modVec_same, State.tile_modVec_same, hothers, hf]

@[simp] theorem engineView_modRun {f : VecRun → VecRun}
    (hf : ∀ r, (f r).vop = r.vop ∧ (f r).slot = r.slot ∧ (f r).issue = r.issue) :
    engineView t (s.modRun t f) = engineView t s := by
  have hcore : ∀ r, (f r).core = r.core := by
    intro r
    obtain ⟨hvop, hslot, hissue⟩ := hf r
    simp only [VecRun.core, hvop, hslot, hissue]
  have hrun : ∀ v : Vec, (v.run.map f).map VecRun.core = v.run.map VecRun.core := by
    intro v
    cases v.run with
    | none => rfl
    | some r => exact congrArg some (hcore r)
  simp [engineView, State.modRun, hrun]

end

section
variable (t : Nat)

@[simp] theorem engineView_ite (c : Prop) [Decidable c] (s s' : State) :
    engineView t (if c then s else s') = if c then engineView t s else engineView t s' := apply_ite ..

@[simp] theorem rowView_ite (c : Prop) [Decidable c] (s s' : State) :
    rowView t (if c then s else s') = if c then rowView t s else rowView t s' := apply_ite ..

@[simp] theorem rowView_fst_ite {α : Type} (c : Prop) [Decidable c] (x y : State × α) :
    rowView t (if c then x else y).1 = if c then rowView t x.1 else rowView t y.1 :=
  apply_ite (fun x : State × α => rowView t x.1) ..

@[simp] theorem rowView_snd_ite {α : Type} (c : Prop) [Decidable c] (x y : α × State) :
    rowView t (if c then x else y).2 = if c then rowView t x.2 else rowView t y.2 :=
  apply_ite (fun x : α × State => rowView t x.2) ..

end

/-! ### Operations that leave the engine alone -/

section
variable (s : State) (t : Nat)

@[simp] theorem engineView_setReg (o : Nat) (w : BitVec 32) : engineView t (s.setReg o w) = engineView t s :=
  engineView_of_tiles rfl

@[simp] theorem engineView_orReg (o : Nat) (w : BitVec 32) : engineView t (s.orReg o w) = engineView t s :=
  engineView_setReg ..

@[simp] theorem engineView_incReg (o : Nat) : engineView t (s.incReg o) = engineView t s := engineView_setReg ..

@[simp] theorem engineView_raiseTile (u : Nat) (k : EvKind) (detail : Nat) :
    engineView t (s.raiseTile u k detail) = engineView t s := engineView_of_tiles (raise_tiles _ _)

@[simp] theorem engineView_raiseCause (c : Cause) : engineView t (s.raiseCause t c) = engineView t s :=
  engineView_of_tiles (raiseCause_tiles _ _ _)

@[simp] theorem engineView_spadMark (m : SMap Cause) : engineView t { s with spadMark := m } = engineView t s :=
  engineView_of_tiles rfl

@[simp] theorem engineView_free : engineView t s.free.2 = engineView t s := engineView_of_tiles rfl

@[simp] theorem engineView_hazard (h : Hazard) : engineView t (s.hazard t h) = engineView t s := by
  simp [State.hazard, hazardReport, State.setReg64]

@[simp] theorem engineView_raiseVec (c : Cause) : engineView t (raiseVec s t c) = engineView t s := by
  simp [raiseVec]

@[simp] theorem engineView_readHazard (f : Pending → Bool) : engineView t (readHazard s t f) = engineView t s := by
  simp [readHazard]

@[simp] theorem engineView_spadHazard (off len : Nat) : engineView t (spadHazard s t off len) = engineView t s := by
  simp [spadHazard]

@[simp] theorem engineView_draws (k : Nat) (base : BitVec 64) (e0 elems n : Nat) :
    engineView t (s.draws t k base e0 elems n).2 = engineView t s := by
  simp only [State.draws]
  split
  · rfl
  · split
    · rfl
    · simp

@[simp] theorem engineView_vecDraws (r : VecRun) (e0 n : Nat) :
    engineView t (vecDraws s t r e0 n).2 = engineView t s := by
  unfold vecDraws
  split
  · simp
  · rfl

@[simp] theorem engineView_foldl_fst {α β : Type} {f : State × α → β → State × α}
    (h : ∀ x b, engineView t (f x b).1 = engineView t x.1) (l : List β) (x : State × α) :
    engineView t (l.foldl f x).1 = engineView t x.1 :=
  foldl_keeps (fun x : State × α => engineView t x.1) (fun x b _ => h x b) x

@[simp] theorem engineView_wideElems (rnd : Rnd) (ds : List Nat) (ws : List Wide) :
    engineView t (wideElems s t rnd ds ws).1 = engineView t s := by
  simp [wideElems, wideElem]

@[simp] theorem engineView_queueWriteBack (word : Nat) : engineView t (queueWriteBack s t word) = engineView t s := by
  simp [queueWriteBack]

@[simp] theorem engineView_spadWordErr (word : Nat) : engineView t (spadWordErr s t word).1 = engineView t s := by
  simp only [spadWordErr]
  split
  · rfl
  · simp
  · split
    · simp
    · rfl

@[simp] theorem engineView_spadRead (off n : Nat) : engineView t (s.spadRead t off n).1 = engineView t s := by
  simp [State.spadRead]

end

/-! ### Operations of the engine -/

section
variable (s : State) (t : Nat)

@[simp] theorem rowView_incReg (o : Nat) : rowView t (s.incReg o) = rowView t s :=
  rowView_of_engineView (engineView_incReg s t o)

@[simp] theorem rowView_orReg (o : Nat) (w : BitVec 32) : rowView t (s.orReg o w) = rowView t s :=
  rowView_of_engineView (engineView_orReg s t o w)

@[simp] theorem rowView_raiseTile (u : Nat) (k : EvKind) (detail : Nat) :
    rowView t (s.raiseTile u k detail) = rowView t s := rowView_of_engineView (engineView_raiseTile s t u k detail)

@[simp] theorem rowView_free : rowView t s.free.2 = rowView t s := rowView_of_engineView (engineView_free s t)

@[simp] theorem rowView_hazard (h : Hazard) : rowView t (s.hazard t h) = rowView t s :=
  rowView_of_engineView (engineView_hazard s t h)

@[simp] theorem rowView_raiseVec (c : Cause) : rowView t (raiseVec s t c) = rowView t s :=
  rowView_of_engineView (engineView_raiseVec s t c)

@[simp] theorem rowView_readHazard (f : Pending → Bool) : rowView t (readHazard s t f) = rowView t s :=
  rowView_of_engineView (engineView_readHazard s t f)

@[simp] theorem rowView_draws (k : Nat) (base : BitVec 64) (e0 elems n : Nat) :
    rowView t (s.draws t k base e0 elems n).2 = rowView t s := rowView_of_engineView (engineView_draws ..)

@[simp] theorem rowView_vecDraws (r : VecRun) (e0 n : Nat) : rowView t (vecDraws s t r e0 n).2 = rowView t s :=
  rowView_of_engineView (engineView_vecDraws ..)

@[simp] theorem rowView_wideElems (rnd : Rnd) (ds : List Nat) (ws : List Wide) :
    rowView t (wideElems s t rnd ds ws).1 = rowView t s := rowView_of_engineView (engineView_wideElems ..)

@[simp] theorem rowView_spadRead (off n : Nat) : rowView t (s.spadRead t off n).1 = rowView t s :=
  rowView_of_engineView (engineView_spadRead ..)

@[simp] theorem rowView_spadHazard (off len : Nat) : rowView t (spadHazard s t off len) = rowView t s :=
  rowView_of_engineView (engineView_spadHazard ..)

@[simp] theorem rowView_modRun {f : VecRun → VecRun}
    (hf : ∀ r, (f r).vop = r.vop ∧ (f r).slot = r.slot ∧ (f r).issue = r.issue) :
    rowView t (s.modRun t f) = rowView t s := rowView_of_engineView (engineView_modRun hf)

@[simp] theorem rowView_foldl {β : Type} {f : State → β → State} (h : ∀ s b, rowView t (f s b) = rowView t s)
    (l : List β) (s : State) : rowView t (l.foldl f s) = rowView t s := foldl_keeps _ (fun s b _ => h s b) s

@[simp] theorem rowView_foldl_fst {α β : Type} {f : State × α → β → State × α}
    (h : ∀ x b, rowView t (f x b).1 = rowView t x.1) (l : List β) (x : State × α) :
    rowView t (l.foldl f x).1 = rowView t x.1 :=
  foldl_keeps (fun x : State × α => rowView t x.1) (fun x b _ => h x b) x

@[simp] theorem rowView_vecErr (e : EccErr) : rowView t (vecErr s t e).1 = rowView t s := by
  unfold vecErr
  split <;> simp

@[simp] theorem rowView_meetErrs (errs : SMap EccErr) (base : Nat) :
    rowView t (meetErrs s t errs base).1 = rowView t s := by simp [meetErrs]

@[simp] theorem rowView_readTreg (reg row : Nat) : rowView t (readTreg s t reg row).1 = rowView t s := by
  simp [readTreg]

/-- The words of the cache that an error marks are no part of what is in issue. -/
theorem run_markWords (es : List (Nat × Cause)) (v : Vec) : (es.foldl (fun v e =>
    if e.2 = .none then v else ocPut v e.1 { ocWord v e.1 with cause := e.2 }) v).run = v.run :=
  foldl_keeps Vec.run (fun v e _ => by split <;> rfl) v

@[simp] theorem rowView_readOcache (row : Nat) : rowView t (readOcache s t row).1 = rowView t s := by
  simp [readOcache, run_markWords]

@[simp] theorem rowView_readVals (reg row view : Nat) : rowView t (readVals s t reg row view).1 = rowView t s := by
  simp [readVals]

@[simp] theorem rowView_readCacheVals (row view : Nat) :
    rowView t (readCacheVals s t row view).1 = rowView t s := by simp [readCacheVals]

@[simp] theorem rowView_readB (v : VecSlot) (i : Nat) : rowView t (readB s t v i).1 = rowView t s := by
  unfold readB
  split <;> simp

@[simp] theorem rowView_readOwn (r : VecRun) (reg row view : Nat) :
    rowView t (readOwn s t r reg row view).1 = rowView t s := by
  unfold readOwn
  split <;> simp

@[simp] theorem rowView_readCacheRows (row n : Nat) : rowView t (readCacheRows s t row n).1 = rowView t s := by
  simp [readCacheRows]

@[simp] theorem rowView_produceLanded (w : Landed) : rowView t (produceLanded s t w).1 = rowView t s := by
  simp [produceLanded]

@[simp] theorem rowView_enqueue (due issued : Nat) (w : Landed) :
    rowView t (enqueue s t due issued w) = rowView t s := by
  simp only [enqueue]
  split <;> simp

@[simp] theorem rowView_freeWides : rowView t (freeWides s).1 = rowView t s := rowView_free s t

/-! ### Rows of instructions -/

@[simp] theorem rowView_elemwiseRow (r : VecRun) (lat : Nat) : rowView t (elemwiseRow s t r lat) = rowView t s := by
  simp [elemwiseRow]

@[simp] theorem rowView_rngRow (r : VecRun) (lat : Nat) : rowView t (rngRow s t r lat) = rowView t s := by
  simp [rngRow]

@[simp] theorem rowView_redRow (r : VecRun) (lat : Nat) : rowView t (redRow s t r lat) = rowView t s := by
  simp [redRow]

@[simp] theorem rowView_scanRow (r : VecRun) (lat : Nat) : rowView t (scanRow s t r lat) = rowView t s := by
  simp [scanRow]

@[simp] theorem rowView_segredRow (r : VecRun) (lat : Nat) : rowView t (segredRow s t r lat) = rowView t s := by
  simp [segredRow]

@[simp] theorem rowView_sortRow (r : VecRun) (lat : Nat) : rowView t (sortRow s t r lat) = rowView t s := by
  simp [sortRow]

@[simp] theorem rowView_popRow (r : VecRun) (lat : Nat) : rowView t (popRow s t r lat) = rowView t s := by
  simp only [popRow, rowView_enqueue]
  repeat' split
  all_goals simp

@[simp] theorem rowView_wideAddRow (r : VecRun) (lat : Nat) : rowView t (wideAddRow s t r lat) = rowView t s := by
  unfold wideAddRow
  repeat' split
  all_goals simp

@[simp] theorem rowView_storeRow (r : VecRun) (lat : Nat) : rowView t (storeRow s t r lat) = rowView t s := by
  simp [storeRow]

@[simp] theorem rowView_cacheStoreRow (r : VecRun) (lat : Nat) :
    rowView t (cacheStoreRow s t r lat) = rowView t s := by
  simp [cacheStoreRow]

end

/-! ### Broken promises

A row that meets an occupied port, or a pop from an empty queue, breaks a promise (R8): the rest of the view stays. -/

/-- What issuing an instruction on tile `t` keeps, whatever happens: a broken promise stays broken. -/
structure TileKept (t : Nat) (s s' : State) : Prop where
  others : sameTilesBut s s' [t]
  ctl : (s'.tile t).ctl = (s.tile t).ctl
  broken : (s.tile t).broken = true → (s'.tile t).broken = true

/-- What every row keeps: also the instruction in issue. -/
structure RowKept (t : Nat) (s s' : State) : Prop extends TileKept t s s' where
  run : (s'.vec t).run.map VecRun.core = (s.vec t).run.map VecRun.core

section
variable {t : Nat} {s s' s'' : State}

theorem TileKept.refl (t : Nat) (s : State) : TileKept t s s := ⟨fun _ _ => rfl, rfl, id⟩

theorem TileKept.trans (h : TileKept t s s') (h' : TileKept t s' s'') : TileKept t s s'' :=
  ⟨h.others.trans h'.others, h'.ctl.trans h.ctl, h'.broken ∘ h.broken⟩

theorem TileKept.modVec (h : TileKept t s s') (f : Vec → Vec) : TileKept t s (s'.modVec t f) := by
  refine h.trans ⟨sameTilesBut_modVec s' t f, ?_, ?_⟩ <;> rw [State.tile_modVec_same]
  exact id

theorem RowKept.of_view (h : rowView t s' = rowView t s) : RowKept t s s' :=
  ⟨⟨sameTilesBut_of_rowView h, ctl_of_rowView h, (broken_of_rowView h).trans⟩, run_of_rowView h⟩

theorem RowKept.refl (t : Nat) (s : State) : RowKept t s s := .of_view rfl

theorem RowKept.trans (h : RowKept t s s') (h' : RowKept t s' s'') : RowKept t s s'' :=
  ⟨h.toTileKept.trans h'.toTileKept, h'.run.trans h.run⟩

theorem RowKept.ite {c : Prop} [Decidable c] (h : RowKept t s s') (h' : RowKept t s s'') :
    RowKept t s (if c then s' else s'') := by
  split
  · exact h
  · exact h'

theorem RowKept.foldl {β : Type} {f : State → β → State} (hf : ∀ s b, RowKept t s (f s b)) (l : List β)
    (s : State) : RowKept t s (l.foldl f s) := by
  induction l generalizing s with
  | nil => exact .refl t s
  | cons x xs ih => exact (hf s x).trans (ih _)

end

section
variable (s : State) (t : Nat)

theorem broken_breakPromise (h : Hazard) : ((s.breakPromise t h).tile t).broken = true := by
  rw [State.breakPromise, State.tile_modTile_same]

theorem breakPromise_kept (h : Hazard) : RowKept t s (s.breakPromise t h) := by
  refine (RowKept.of_view (rowView_hazard s t h)).trans ⟨⟨sameTilesBut_modTile _ t _, ?_, fun _ => ?_⟩, ?_⟩
  · rw [State.breakPromise, State.tile_modTile_same, State.hazard]
  · exact broken_breakPromise s t h
  · rw [State.breakPromise, State.vec, State.tile_modTile_same, State.hazard, State.vec]

theorem takePort_kept (cyc bank : Nat) (feed : Bool) : RowKept t s (s.takePort t cyc bank feed) := by
  have hport : ∀ key n, RowKept t s (s.modTile t fun x => { x with portUse := mapSet 0 x.portUse key n }) :=
    fun key n => .of_view (rowView_of_engineView (by simp))
  unfold State.takePort
  exact RowKept.ite ((hport _ _).trans (breakPromise_kept _ t _)) (hport _ _)

theorem takePorts_kept (cyc off len : Nat) : RowKept t s (s.takePorts t cyc off len) := by
  unfold State.takePorts
  split
  · exact .refl t s
  · exact RowKept.foldl (fun s i => takePort_kept s t ..) _ s

theorem popQueue_kept : RowKept t s (popQueue s t).1 := by
  unfold popQueue
  split
  · exact breakPromise_kept ..
  · exact .of_view (by simp)

/-- A read of the scratchpad takes its ports after the check for results on their way (R132, R233). -/
theorem spadPorts_kept (cyc off len : Nat) : RowKept t s ((spadHazard s t off len).takePorts t cyc off len) :=
  (RowKept.of_view (rowView_spadHazard s t off len)).trans (takePorts_kept ..)

theorem loadRow_kept (r : VecRun) (lat : Nat) : RowKept t s (loadRow s t r lat) := by
  refine (spadPorts_kept s t (r.issue + r.row) (vecAddr r) (rowBytes ((fmtOfCode (vFmt r.slot)).getD .fp32)
    (viewCount r.slot.view.toNat))).trans (.of_view ?_)
  simp only [loadRow, rowView_enqueue]
  split <;> simp

theorem cacheLoadRow_kept (r : VecRun) (lat : Nat) : RowKept t s (cacheLoadRow s t r lat) :=
  (spadPorts_kept s t (r.issue + r.row) (vecAddr r) 256).trans (.of_view (by simp [cacheLoadRow]))

theorem vecRowOf_kept (r : VecRun) : RowKept t s (vecRowOf s t r) := by
  unfold vecRowOf
  dsimp only
  generalize s.latency t (vecLatency r.vop (vAxis r.slot)) = lat
  refine RowKept.ite (.of_view (rowView_elemwiseRow ..)) (RowKept.ite (.of_view (rowView_rngRow ..)) ?_)
  split
  · exact .of_view (rowView_redRow ..)
  · exact .of_view (rowView_scanRow ..)
  · exact .of_view (rowView_segredRow ..)
  · exact .of_view (rowView_sortRow ..)
  · exact .of_view (rowView_sortRow ..)
  · exact .of_view (rowView_popRow ..)
  · exact .of_view (rowView_wideAddRow ..)
  · exact .of_view (rowView_popRow ..)
  · exact loadRow_kept ..
  · exact .of_view (rowView_storeRow ..)
  · exact cacheLoadRow_kept ..
  · exact .of_view (rowView_cacheStoreRow ..)

end

/-! ### The issue of an instruction -/

/-- Whether an instruction takes an entry of the finished-tile queue at its issue (R130). -/
def takesEntry (vop : Nat) (v : VecSlot) : Bool := vop == 0x40 || (vop == 0x41 && vmode v 53 1 == 0)

/-- The queue's part of an issue: the state, and the entry taken. -/
def takeEntry (s : State) (t vop : Nat) (v : VecSlot) : State × Option QEntry :=
  if takesEntry vop v then popQueue s t else (s, none)

/-- An issue while rows of another instruction are left breaks a promise (R131). -/
def checkOverlap (s : State) (t : Nat) : State :=
  if (s.vec t).run.isSome then s.breakPromise t .slotOverlap else s

/-- The scan carries that an instruction latches at its issue (R141). -/
def carryAtIssue (s : State) (t vop : Nat) (v : VecSlot) : Option (List Elem) :=
  if vop = 0x39 ∧ vChain v ∧ vAxis v ≠ 0 ∧ vSeg v ≠ 2 then
    some (viewVals v.view.toNat (rowOf (s.vec t).carry 0))
  else none

/-- An instruction as it is in issue before its first row. -/
def issueRun (s : State) (t vop : Nat) (v : VecSlot) (ind : Nat) : VecRun :=
  ⟨vop, v, (takeEntry s t vop v).1.cycle t, 0, ind,
    s.cursorBase t (fld (s.reg (VEC_RNG_CFG t v.rstr.toNat)) 6 2), carryAtIssue s t vop v,
    [], [], [], (takeEntry s t vop v).2, [], []⟩

/-- The state in which instruction `r` is in issue. -/
def State.withRun (s : State) (t : Nat) (r : VecRun) : State := s.modVec t fun x => { x with run := some r }

/-- The end of a row: the instruction goes on with its next row, unless this was its last. -/
def endRow (s : State) (t : Nat) (r : VecRun) : State :=
  s.modVec t fun v => { v with run := if lastRow r then none else v.run.map fun q => { q with row := r.row + 1 } }

/-- The iteration index that an instruction latches at its issue (R174). -/
def issueIndex (s : State) (t vop : Nat) (v : VecSlot) : Nat :=
  if decide (0x48 ≤ vop) && decide (vop ≤ 0x4B) then indexOf (s.tile t).ctl (vInd v) else 0

section
variable {s : State} {t vop : Nat} {v : VecSlot}

theorem checkOverlap_of_free (h : (s.vec t).run = none) : checkOverlap s t = s := by
  simp [checkOverlap, h]

theorem broken_checkOverlap (h : (s.vec t).run.isSome = true) : ((checkOverlap s t).tile t).broken = true := by
  rw [checkOverlap, if_pos h]
  exact broken_breakPromise ..

theorem checkOverlap_kept (s : State) (t : Nat) : RowKept t s (checkOverlap s t) :=
  RowKept.ite (breakPromise_kept ..) (.refl t s)

theorem takeEntry_kept (s : State) (t vop : Nat) (v : VecSlot) : RowKept t s (takeEntry s t vop v).1 := by
  unfold takeEntry
  split
  · exact popQueue_kept s t
  · exact .refl t s

theorem issueRun_issue (s : State) (t vop : Nat) (v : VecSlot) (ind : Nat) :
    (issueRun s t vop v ind).issue = s.cycle t := congrArg Ctl.cycle (takeEntry_kept s t vop v).ctl

theorem vecIssue_of_malformed (h : vecMalformed vop v = true) : vecIssue s t vop v = badBundle s t := by
  rw [vecIssue, if_pos h]

theorem vecIssue_of_wellFormed (h : vecMalformed vop v = false) :
    vecIssue s t vop v = vecStart s t vop v (issueIndex s t vop v) := by
  rw [vecIssue, if_neg (by simp [h]), issueIndex]

theorem vecStart_of_no_row (ind : Nat) (h : v.count = 0) :
    vecStart s t vop v ind = (checkOverlap s t).modVec t fun x => { x with run := none } := by
  have hcount : v.count.toNat = 0 := by rw [h]; rfl
  rw [vecStart, if_pos hcount, checkOverlap]

theorem vecRow_withRun (s : State) (t : Nat) (r : VecRun) :
    vecRow (s.withRun t r) t = endRow (vecRowOf (s.withRun t r) t r) t r := by
  rw [vecRow, State.withRun, State.vec_modVec_same]
  rfl

theorem vecStart_of_rows (ind : Nat) (h : v.count ≠ 0) :
    vecStart s t vop v ind = let s1 := checkOverlap s t
      let r := issueRun s1 t vop v ind
      endRow (vecRowOf ((takeEntry s1 t vop v).1.withRun t r) t r) t r := by
  have hcount : v.count.toNat ≠ 0 := fun e => h (BitVec.eq_of_toNat_eq e)
  rw [vecStart, if_neg hcount]
  exact vecRow_withRun _ t _

end

/-! ### The statement -/

section
variable {s : State} {t vop : Nat} {v : VecSlot}

/-- A malformed bundle only notes itself (R175). -/
theorem badBundle_spec (s : State) (t : Nat) :
    bit ((badBundle s t).reg (TIL_EVENT t)) 0 = true ∧ (badBundle s t).tiles = s.tiles := by
  have hregs : TIL_EVENT t ∉ hardRegs ((s.orReg (TIL_EVENT t) 1).tileRegion t) := by
    simp only [hardRegs, List.mem_cons, List.not_mem_nil, or_false, not_or, TIL_EVENT, GOS_L_HARD, GOS_L_EVENT,
      GOS_REC_FAULT, tileBase, regionBase]
    omega
  have hreg : (badBundle s t).reg (TIL_EVENT t) = (s.orReg (TIL_EVENT t) 1).reg (TIL_EVENT t) :=
    (raise_hard _ ⟨.badBundle, _, t, _, 0⟩ rfl).2 _ hregs
  refine ⟨?_, raise_tiles _ _⟩
  rw [hreg]
  exact bit_orReg _ _ (by decide)

/-- An instruction in issue keeps its VOP, its slot and its cycle through a row, and goes on with the next. -/
theorem run_endRow {s s' : State} {r : VecRun} (h : RowKept t (s.withRun t r) s') :
    (lastRow r = true → ((endRow s' t r).vec t).run = none)
    ∧ (lastRow r = false → ∃ q, ((endRow s' t r).vec t).run = some q ∧ q.core = r.core ∧ q.row = r.row + 1) := by
  have hrun : (s'.vec t).run.map VecRun.core = some r.core := by
    rw [h.run, State.withRun, State.vec_modVec_same]
    rfl
  obtain ⟨q, hq, hcore⟩ := Option.map_eq_some_iff.1 hrun
  refine ⟨fun hlast => ?_, fun hlast => ⟨{ q with row := r.row + 1 }, ?_, hcore, rfl⟩⟩
  · rw [endRow, State.vec_modVec_same, hlast]
    rfl
  · rw [endRow, State.vec_modVec_same, hlast, hq]
    rfl

/-- What an issue of at least one row does, in any state of the engine (R131). -/
theorem vecStart_spec (s : State) (t vop : Nat) (v : VecSlot) (ind : Nat) (h : v.count ≠ 0) :
    let s' := vecStart s t vop v ind
    TileKept t (checkOverlap s t) s' ∧ (v.count = 1 → (s'.vec t).run = none)
      ∧ (1 < v.count.toNat → ∃ q, (s'.vec t).run = some q ∧ q.core = (vop, v, s.cycle t) ∧ q.row = 1) := by
  rw [vecStart_of_rows ind h]
  dsimp only
  generalize hr : issueRun (checkOverlap s t) t vop v ind = r
  have hrow : r.row = 0 := by rw [← hr]; rfl
  have hslot : r.slot = v := by rw [← hr]; rfl
  have hcore : r.core = (vop, v, s.cycle t) := by
    have hissue : r.issue = s.cycle t := by
      rw [← hr, issueRun_issue]
      exact congrArg Ctl.cycle (checkOverlap_kept s t).ctl
    rw [← hissue, ← hr]
    rfl
  have hkept := vecRowOf_kept ((takeEntry (checkOverlap s t) t vop v).1.withRun t r) t r
  obtain ⟨hlast, hmore⟩ := run_endRow hkept
  refine ⟨?_, fun hone => hlast ?_, fun hmany => ?_⟩
  · exact ((((takeEntry_kept _ t vop v).toTileKept.modVec _).trans hkept.toTileKept).modVec _)
  · rw [lastRow, hrow, hslot, hone]
    rfl
  · obtain ⟨q, hq, hqcore, hqrow⟩ := hmore (by simp only [lastRow, hrow, hslot, beq_eq_false_iff_ne]; omega)
    exact ⟨q, hq, hqcore.trans hcore, by rw [hqrow, hrow]⟩

end

/-- Settles O19: a row of any instruction keeps the other tiles, broken promises and the instruction in issue. -/
theorem vectorInstructionsIssue : Obligations.VectorInstructionsIssue := by
  intro i s t vop v hop hs
  refine ⟨_, exec_vecOp_of_issuing hop hs, ?_⟩
  cases hbad : vecMalformed vop v with
  | true =>
    obtain ⟨hevent, htiles⟩ := badBundle_spec s t
    rw [vecIssue_of_malformed hbad]
    exact ⟨fun _ => ⟨hevent, State.tile_of_tiles htiles t, sameMemory_of_mems (mems_badBundle s t)⟩, by simp, by simp,
      by simp, by simp, sameTilesBut_of_tiles htiles _⟩
  | false =>
    rw [vecIssue_of_wellFormed hbad]
    by_cases hcount : v.count = 0
    · rw [vecStart_of_no_row _ hcount]
      have hkept : TileKept t s ((checkOverlap s t).modVec t fun x => { x with run := none }) :=
        (checkOverlap_kept s t).toTileKept.modVec _
      refine ⟨by simp, fun _ _ hfree => ?_, by simp [hcount], by simp [hcount], fun _ hrun => ?_, hkept.others⟩
      · rw [checkOverlap_of_free hfree]
        refine ⟨onlyVec_modVec .., ?_⟩
        rw [State.vec_modVec_same, ← hfree]
      · rw [State.tile_modVec_same]
        exact broken_checkOverlap hrun
    · obtain ⟨hkept, hone, hmany⟩ := vecStart_spec s t vop v (issueIndex s t vop v) hcount
      refine ⟨by simp, fun _ h0 => absurd h0 hcount, fun _ => hone, fun _ hn => ?_, fun _ hrun => ?_, ?_⟩
      · obtain ⟨q, hq, hcore, hrow⟩ := hmany hn
        obtain ⟨hvop, hslot, hissue⟩ : q.vop = vop ∧ q.slot = v ∧ q.issue = s.cycle t := by
          simpa [VecRun.core] using hcore
        exact ⟨q, hq, hvop, hslot, hissue, hrow⟩
      · exact hkept.broken (broken_checkOverlap hrun)
      · exact (checkOverlap_kept s t).others.trans hkept.others

end Sys2Proof.Machine

/-! PROOFS. The issue of a vector instruction on a clean engine: what its reads return, and the results it leaves on
their way. -/

namespace Sys2Proof.Machine

/-! ### Poison causes (R81) -/

@[simp] theorem causeJoin_none_left (c : Cause) : causeJoin .none c = c := rfl

@[simp] theorem causeJoin_none_right (c : Cause) : causeJoin c .none = c := by
  cases c <;> rfl

theorem causeJoin_eq_none_iff (a b : Cause) : causeJoin a b = .none ↔ a = .none ∧ b = .none := by
  cases a <;> cases b <;> decide

/-! ### A clean engine -/

/-- Nothing is on its way to the registers of tile `t`'s engine, none of its words has an error, and the tile has
broken no promise. -/
structure EngineClean (s : State) (t : Nat) : Prop where
  broken : (s.tile t).broken = false
  pending : (s.vec t).pending = []
  tregErr : (s.vec t).tregErr = []
  ocacheErr : (s.vec t).ocacheErr = []

/-- The engine of tile `t` is the same but for what is in issue, and so are its promises. -/
structure EngineKept (t : Nat) (s s' : State) : Prop where
  vec : { s'.vec t with run := none } = { s.vec t with run := none }
  broken : (s'.tile t).broken = (s.tile t).broken

/-- The values of row `row` of register `reg` in a view. -/
def regRow (s : State) (t reg row view : Nat) : List Elem := viewVals view (rowOf (s.vec t).treg (2048 * reg + 64 * row))

/-- The values of row `row` of the cache in a view. -/
def cacheRow (s : State) (t row view : Nat) : List Elem :=
  viewVals view ((List.range 64).map fun k => ocWord (s.vec t) (64 * (row % 256) + k))

theorem getD_regRow (s : State) (t reg row view c : Nat) :
    (regRow s t reg row view).getD c elemReset = regValue s t reg row view c := rfl

theorem getD_cacheRow (s : State) (t row view c : Nat) :
    (cacheRow s t row view).getD c elemReset = cacheValue s t row view c := rfl

section
variable {s s' s'' : State} {t : Nat}

theorem EngineKept.refl (t : Nat) (s : State) : EngineKept t s s := ⟨rfl, rfl⟩

theorem EngineKept.trans (h : EngineKept t s s') (h' : EngineKept t s' s'') : EngineKept t s s'' :=
  ⟨h'.vec.trans h.vec, h'.broken.trans h.broken⟩

theorem EngineKept.of_view (h : engineView t s' = engineView t s) : EngineKept t s s' :=
  ⟨vec_of_engineView h, broken_of_rowView (rowView_of_engineView h)⟩

theorem EngineKept.modRun (f : Option VecRun → Option VecRun) :
    EngineKept t s (s.modVec t fun v => { v with run := f v.run }) := by
  constructor <;> simp

theorem EngineKept.treg (h : EngineKept t s s') : (s'.vec t).treg = (s.vec t).treg := (congrArg Vec.treg h.vec :)

theorem EngineKept.pending (h : EngineKept t s s') : (s'.vec t).pending = (s.vec t).pending :=
  (congrArg Vec.pending h.vec :)

theorem EngineKept.queue (h : EngineKept t s s') : (s'.vec t).queue = (s.vec t).queue := (congrArg Vec.queue h.vec :)

theorem EngineKept.ocache (h : EngineKept t s s') : (s'.vec t).ocache = (s.vec t).ocache := (congrArg Vec.ocache h.vec :)

theorem EngineKept.ocWord (h : EngineKept t s s') (k : Nat) :
    Machine.ocWord (s'.vec t) k = Machine.ocWord (s.vec t) k := (congrArg (Machine.ocWord · k) h.vec :)

theorem EngineKept.regRow (h : EngineKept t s s') (reg row view : Nat) :
    Machine.regRow s' t reg row view = Machine.regRow s t reg row view := by
  rw [Machine.regRow, h.treg, Machine.regRow]

theorem EngineKept.cacheRow (h : EngineKept t s s') (row view : Nat) :
    Machine.cacheRow s' t row view = Machine.cacheRow s t row view := by
  simp only [Machine.cacheRow, h.ocWord]

theorem EngineClean.of_kept (hc : EngineClean s t) (h : EngineKept t s s') : EngineClean s' t where
  broken := h.broken.trans hc.broken
  pending := h.pending.trans hc.pending
  tregErr := (congrArg Vec.tregErr h.vec :).trans hc.tregErr
  ocacheErr := (congrArg Vec.ocacheErr h.vec :).trans hc.ocacheErr

theorem engineClean_of_vecClean (h : vecClean s t) : EngineClean s t := by
  obtain ⟨-, hbroken, -, hpending, htreg, hocache⟩ := h
  exact ⟨hbroken, hpending, htreg, hocache⟩

/-! ### Reads of a clean engine -/

theorem readHazard_of_clean (hc : EngineClean s t) (f : Pending → Bool) : readHazard s t f = s := by
  simp [readHazard, hc.pending]

theorem readTreg_of_clean (hc : EngineClean s t) (reg row : Nat) :
    readTreg s t reg row = (s, rowOf (s.vec t).treg (2048 * reg + 64 * row)) := by
  simp [readTreg, meetErrs, hc.tregErr]

theorem readOcache_of_clean (hc : EngineClean s t) (row : Nat) :
    readOcache s t row = (s, (List.range 64).map fun c => ocWord (s.vec t) (64 * (row % 256) + c)) := by
  simp [readOcache, meetErrs, hc.ocacheErr]

theorem readVals_of_clean (hc : EngineClean s t) (reg row view : Nat) :
    readVals s t reg row view = (s, regRow s t reg row view) := by
  simp only [readVals, readHazard_of_clean hc, readTreg_of_clean hc, regRow]

theorem readCacheVals_of_clean (hc : EngineClean s t) (row view : Nat) :
    readCacheVals s t row view = (s, cacheRow s t row view) := by
  simp only [readCacheVals, readHazard_of_clean hc, readOcache_of_clean hc, cacheRow]

/-! ### Results on their way -/

/-- A result put on its way by a tile that has broken no promise. -/
def State.send (s : State) (t : Nat) (p : Pending) : State :=
  s.modVec t fun v => { v with pending := v.pending ++ [p] }

theorem enqueue_of_promise (hb : (s.tile t).broken = false) {due issued : Nat} {w : Landed}
    (hfree : ∀ p ∈ (s.vec t).pending, p.due = due → collides p.what w = false) :
    enqueue s t due issued w = s.send t ⟨due, issued, w⟩ := by
  have hany : ((s.vec t).pending.any fun p => p.due == due && collides p.what w) = false := by
    simpa [List.any_eq_false] using hfree
  simp [enqueue, produceLanded, hb, hany, State.send]

theorem enqueue_of_clean (hc : EngineClean s t) (due issued : Nat) (w : Landed) :
    enqueue s t due issued w = s.send t ⟨due, issued, w⟩ :=
  enqueue_of_promise hc.broken (by simp [hc.pending])

theorem onlyVec.trans (h : onlyVec s s' t) (h' : onlyVec s' s'' t) : onlyVec s s'' t := by
  obtain ⟨hstate, hothers, htile⟩ := h
  obtain ⟨hstate', hothers', htile'⟩ := h'
  refine ⟨?_, hothers.trans hothers', ?_⟩
  · exact (congrArg (fun x : State => { x with tiles := s.tiles }) hstate' :).trans hstate
  · exact (congrArg (fun x : Tile => { x with vec := (s.tile t).vec }) htile' :).trans htile

/-! ### The issue on a clean engine -/

variable {vop : Nat} {v : VecSlot}

/-- An instruction of a clean engine as it is in issue before its first row. -/
def firstRow (s : State) (t vop : Nat) (v : VecSlot) : VecRun := issueRun s t vop v (issueIndex s t vop v)

@[simp] theorem firstRow_vop : (firstRow s t vop v).vop = vop := rfl

@[simp] theorem firstRow_slot : (firstRow s t vop v).slot = v := rfl

@[simp] theorem firstRow_row : (firstRow s t vop v).row = 0 := rfl

@[simp] theorem firstRow_seenA : (firstRow s t vop v).seenA = [] := rfl

@[simp] theorem firstRow_own : (firstRow s t vop v).own = [] := rfl

@[simp] theorem firstRow_issue : (firstRow s t vop v).issue = s.cycle t := issueRun_issue ..

@[simp] theorem firstRow_popped : (firstRow s t vop v).popped = (takeEntry s t vop v).2 := rfl

/-- The state in which the first row of an instruction is processed. -/
def startState (s : State) (t vop : Nat) (v : VecSlot) : State :=
  (takeEntry s t vop v).1.withRun t (firstRow s t vop v)

/-- The state after the first row of an instruction, from the state in which the row's work is done. -/
def issued (s : State) (t vop : Nat) (v : VecSlot) (s' : State) : State := endRow s' t (firstRow s t vop v)

theorem exec_of_issues {i : Instr} (hop : vecOp i = some (t, vop, v)) (h : vecIssues s t vop v) :
    exec i s = .next (issued s t vop v (vecRowOf (startState s t vop v) t (firstRow s t vop v))) := by
  obtain ⟨⟨hissuing, -, hrun, -⟩, hgood, hcount⟩ := h
  rw [exec_vecOp_of_issuing hop hissuing, vecIssue_of_wellFormed hgood, vecStart_of_rows _ hcount,
    checkOverlap_of_free hrun]
  rfl

theorem startState_of_no_entry (h : takesEntry vop v = false) :
    startState s t vop v = s.withRun t (firstRow s t vop v) := by
  rw [startState, takeEntry, if_neg (by simp [h])]

theorem engineKept_withRun (r : VecRun) : EngineKept t s (s.withRun t r) := EngineKept.modRun fun _ => some r

theorem onlyVec_withRun (r : VecRun) : onlyVec s (s.withRun t r) t := onlyVec_modVec ..

theorem onlyVec_send (p : Pending) : onlyVec s (s.send t p) t := onlyVec_modVec ..

theorem onlyVec_issued : onlyVec s' (issued s t vop v s') t := onlyVec_modVec ..

@[simp] theorem reg_withRun (r : VecRun) (o : Nat) : (s.withRun t r).reg o = s.reg o := rfl

@[simp] theorem latency_withRun (r : VecRun) (l : Latency) : (s.withRun t r).latency t l = s.latency t l := rfl

/-- The results of an instruction's first row are on their way once the row's work is done. -/
theorem vecSends_issued {lat : Nat} {ws : List Landed}
    (hpending : (s'.vec t).pending = ws.map fun w => ⟨s.cycle t + lat, s.cycle t, w⟩)
    (htreg : (s'.vec t).treg = (s.vec t).treg) (hocache : (s'.vec t).ocache = (s.vec t).ocache) :
    vecSends s (issued s t vop v s') t v lat ws := by
  refine ⟨?_, fun hone => ?_, ?_, ?_⟩ <;> rw [issued, endRow, State.vec_modVec_same]
  · exact hpending
  · simp [lastRow, hone]
  · exact htreg
  · exact hocache

/-- A row of a clean engine that sends one result, after work that leaves the engine alone. -/
theorem vecSends_enqueue (hc : EngineClean s t) (hk : EngineKept t s s') {lat due : Nat} {w : Landed}
    (hdue : due = s.cycle t + lat) :
    vecSends s (issued s t vop v (enqueue s' t due (s.cycle t) w)) t v lat [w] := by
  rw [enqueue_of_clean (hc.of_kept hk)]
  refine vecSends_issued ?_ ?_ ?_ <;> rw [State.send, State.vec_modVec_same]
  · simp [hk.pending, hc.pending, hdue]
  · exact hk.treg
  · exact hk.ocache

/-- A result that a clean engine puts on its way changes nothing but the engine. -/
theorem onlyVec_sent (hc : EngineClean s' t) (due issue : Nat) (w : Landed) :
    onlyVec s' (issued s t vop v (enqueue s' t due issue w)) t := by
  rw [enqueue_of_clean hc]
  exact (onlyVec_send _).trans onlyVec_issued

theorem onlyVec_enqueue (hc : EngineClean s t) (hk : EngineKept t s s') (ho : onlyVec s s' t) (due issue : Nat)
    (w : Landed) : onlyVec s (issued s t vop v (enqueue s' t due issue w)) t :=
  ho.trans (onlyVec_sent (hc.of_kept hk) ..)

end

end Sys2Proof.Machine

/-! PROOFS. O20: elementwise instructions and conversions. -/

namespace Sys2Proof.Machine

/-! ### Rows, values and lanes -/

theorem getD_mapIdx {α β : Type} (f : Nat → α → β) (d : α) (d' : β) {l : List α} {i : Nat} (h : i < l.length) :
    (l.mapIdx f).getD i d' = f i (l.getD i d) := by
  simp [h]

theorem getD_flatMap_pair {α : Type} (g : α → α) (d : α) {l : List α} {i : Nat} (h : i < 2 * l.length) :
    (l.flatMap fun a => [a, g a]).getD i d = if i % 2 = 1 then g (l.getD (i / 2) d) else l.getD (i / 2) d := by
  induction l generalizing i with
  | nil => simp at h
  | cons a l ih =>
    rcases i with _ | _ | i
    · rfl
    · rfl
    · have hi : i < 2 * l.length := by simpa [Nat.mul_add] using h
      have hhalf : (i + 1 + 1) / 2 = i / 2 + 1 := by omega
      have hodd : (i + 1 + 1) % 2 = i % 2 := by omega
      simpa [hhalf, hodd] using ih hi

theorem length_rowOf (m : SMap Elem) (base : Nat) : (rowOf m base).length = 64 := by simp [rowOf]

theorem length_viewVals (view : Nat) {row : List Elem} (h : row.length = 64) :
    (viewVals view row).length = viewCount view := by
  unfold viewVals viewCount
  split
  · simp [List.length_flatMap, apply_ite List.length, h]
  · simp [h]

theorem length_regRow (s : State) (t reg row view : Nat) : (regRow s t reg row view).length = viewCount view :=
  length_viewVals view (length_rowOf _ _)

theorem length_cacheRow (s : State) (t row view : Nat) : (cacheRow s t row view).length = viewCount view :=
  length_viewVals view (by simp)

theorem getD_map_range {α : Type} (f : Nat → α) (d : α) {n i : Nat} (h : i < n) :
    ((List.range n).map f).getD i d = f i := by
  simp [h]

/-! ### The latencies (R133) -/

/-- Only VRED and VSCAN have a latency by their axis. -/
theorem vecLatency_axis {vop : Nat} (hred : vop ≠ 0x38) (hscan : vop ≠ 0x39) (axis : Nat) :
    vecLatency vop axis = vecLatency vop 0 := by
  unfold vecLatency
  split
  · rfl
  · split
    · rfl
    · split <;> simp_all

theorem latency_of_same (s : State) (t n : Nat) (p : Option Nat) : s.latency t ⟨n, n, p⟩ = n := by
  unfold State.latency
  split
  · rfl
  · split <;> simp

/-! ### Elementwise instructions (R134, R136) -/

section
variable {s : State} {t vop : Nat} {v : VecSlot}

/-- The values of source b in the first row (R182). -/
def sourceRow (s : State) (t : Nat) (v : VecSlot) : List Elem :=
  if v.bsrc = 0 then regRow s t v.vb.toNat v.row.toNat v.view.toNat else cacheRow s t v.orow.toNat v.view.toNat

theorem getD_sourceRow (s : State) (t : Nat) (v : VecSlot) (c : Nat) :
    (sourceRow s t v).getD c elemReset = sourceB s t v c := by
  unfold sourceRow sourceB
  split <;> rfl

theorem readB_of_clean (hc : EngineClean s t) (v : VecSlot) : readB s t v 0 = (s, sourceRow s t v) := by
  have hsrc : v.bsrc = 0 ∨ v.bsrc = 1 ∨ v.bsrc = 2 ∨ v.bsrc = 3 := by
    generalize v.bsrc = b
    revert b
    decide
  rcases hsrc with h | h | h | h <;>
    simp [readB, sourceRow, h, readVals_of_clean hc, readCacheVals_of_clean hc]

theorem sourceRow_of_kept {s' : State} (h : EngineKept t s s') : sourceRow s' t v = sourceRow s t v := by
  simp only [sourceRow, h.regRow, h.cacheRow]

/-- The values that an elementwise instruction reads as a, b and c in its first row: none where it reads none, and
the shift count of SHAMT in place of b (R184). -/
def operandA (s : State) (t vop : Nat) (v : VecSlot) : List Elem :=
  if (elemReads vop).1 then regRow s t v.va.toNat v.row.toNat v.view.toNat else []

def operandB (s : State) (t vop : Nat) (v : VecSlot) : List Elem :=
  if shiftImm vop v then List.replicate 64 ⟨BitVec.ofNat 32 (vmode v 53 5), .none⟩
  else if (elemReads vop).2.1 then sourceRow s t v else []

def operandC (s : State) (t vop : Nat) (v : VecSlot) : List Elem :=
  if (elemReads vop).2.2 then regRow s t v.vc.toNat v.row.toNat v.view.toNat else []

theorem elemwiseRow_of_clean (hc : EngineClean s t) {r : VecRun} (hrow : r.row = 0) (hvop : r.vop ≠ 0x20) (lat : Nat) :
    elemwiseRow s t r lat = enqueue s t (r.issue + lat) r.issue (.treg r.slot.vd.toNat r.slot.row.toNat
      (rowLanes (viewRow r.slot.view.toNat (elemRow r (operandA s t r.vop r.slot) (operandB s t r.vop r.slot)
        (operandC s t r.vop r.slot))))) := by
  simp only [elemwiseRow, readVals_of_clean hc, readB_of_clean hc, hrow, hvop, if_false, Nat.add_zero,
    ← apply_ite (Prod.mk s), operandA, operandB, operandC]

/-- What an elementwise operation writes at position `p` from the values at it (R134, R136): the value that `elemRow`
computes, in the instruction's first row. -/
def elemValue (vop : Nat) (v : VecSlot) (p : Nat) (x y z : BitVec 32) : BitVec 32 :=
  if vop = 0x1A then BitVec.ofNat 32 (vmode v 52 32 + 64 * v.row.toNat + p)
  else if vop ≤ 0x0B then floatOp vop v.view.toNat (vmode v 52 2) (vRnd v) x y z
  else if vop ≤ 0x19 then intOp vop (vmode v 52 2) x y
  else transcend (v.view.toNat == 2) vop x

theorem length_elemRow (r : VecRun) (a b c : List Elem) : (elemRow r a b c).length = viewCount r.slot.view.toNat := by
  simp [elemRow]

theorem getD_elemRow {r : VecRun} (hrow : r.row = 0) (a b c : List Elem) {p : Nat} (hp : p < viewCount r.slot.view.toNat) :
    (elemRow r a b c).getD p elemReset = ⟨elemValue r.vop r.slot p (a.getD p elemReset).bits (b.getD p elemReset).bits
        (c.getD p elemReset).bits,
      causeJoin (causeJoin (if (elemReads r.vop).1 then (a.getD p elemReset).cause else .none)
        (if (elemReads r.vop).2.1 then (b.getD p elemReset).cause else .none))
        (if (elemReads r.vop).2.2 then (c.getD p elemReset).cause else .none)⟩ := by
  rw [elemRow, getD_map_range _ _ hp]
  simp only [elemValue, hrow, Nat.add_zero, Elem.mk.injEq]
  refine ⟨trivial, ?_⟩
  rcases elemReads r.vop with ⟨ra, rb, rc⟩
  cases ra <;> cases rb <;> cases rc <;> simp [causeJoinAll]

/-- The four comparisons of two float values (R134). -/
theorem floatCmp_eq (a b : FVal) : floatCmp 0 a b = (valCmp a b == some .eq) ∧ floatCmp 1 a b = (valCmp a b != some .eq)
    ∧ floatCmp 2 a b = (valCmp a b == some .lt)
    ∧ floatCmp 3 a b = (valCmp a b == some .lt || valCmp a b == some .eq) := by
  unfold floatCmp
  generalize valCmp a b = o
  rcases o with _ | (_ | _ | _) <;> decide

theorem vmode_lt (v : VecSlot) (lo w : Nat) : vmode v lo w < 2 ^ w := Nat.mod_lt _ (Nat.two_pow_pos w)

theorem floatOp_abs (view cmp : Nat) (rnd : Rnd) (a b c : BitVec 32) :
    floatOp 0x07 view cmp rnd a b c = a &&& (if view = 2 then 0xFFFF7FFF else 0x7FFFFFFF) := by
  by_cases h : view = 2 <;> simp [floatOp, h]

/-- The shifts take their count from SHAMT or from the low bits of b (R184). -/
theorem intOp_shift (cmp : Nat) (a b : BitVec 32) (v : VecSlot) :
    let n := if vmode v 52 1 = 1 then vmode v 53 5 else b.toNat % 32
    let y := if vmode v 52 1 = 1 then BitVec.ofNat 32 (vmode v 53 5) else b
    intOp 0x16 cmp a y = a <<< n ∧ intOp 0x17 cmp a y = a >>> n ∧ intOp 0x18 cmp a y = a.sshiftRight n := by
  have hcount := vmode_lt v 53 5
  have hy : (if vmode v 52 1 = 1 then BitVec.ofNat 32 (vmode v 53 5) else b).toNat % 32
      = if vmode v 52 1 = 1 then vmode v 53 5 else b.toNat % 32 := by
    split
    · rw [BitVec.toNat_ofNat]
      omega
    · rfl
  simp only [intOp, hy, and_self]

/-- The table of R134 and R136, one row for each instruction: what `elementResult` says of an instruction is what its
VOP makes of the values that it reads. -/
theorem elementResult_eq {i : Instr} (hop : vecOp i = some (t, vop, v)) (hsome : (elementResult i v 0 0 0 0).isSome = true)
    (p : Nat) (a b c : BitVec 32) : elementResult i v p a b c = some (
      elemValue vop v p (if (elemReads vop).1 then a else 0)
        (if shiftImm vop v then BitVec.ofNat 32 (vmode v 53 5) else if (elemReads vop).2.1 then b else 0)
        (if (elemReads vop).2.2 then c else 0),
      (elemReads vop).1, (elemReads vop).2.1 && !shiftImm vop v, (elemReads vop).2.2) := by
  have hcmp : vmode v 52 2 = 0 ∨ vmode v 52 2 = 1 ∨ vmode v 52 2 = 2 ∨ vmode v 52 2 = 3 := by
    have := vmode_lt v 52 2
    omega
  have hbit : (vmode v 52 1 == 1) = decide (vmode v 52 1 = 1) := rfl
  obtain ⟨hshl, hshr, hsra⟩ := intOp_shift (vmode v 52 2) a b v
  unfold vecOp at hop
  split at hop <;> cases hop
  case h_7 => simp [elementResult, elemValue, elemReads, shiftImm, floatOp_abs]
  case h_9 => rcases hcmp with h | h | h | h <;>
    simp [elementResult, elemValue, elemReads, shiftImm, floatOp, h, floatCmp_eq]
  case h_18 => simp [elementResult, elemValue, elemReads, shiftImm, hshl, hbit]
  case h_19 => simp [elementResult, elemValue, elemReads, shiftImm, hshr, hbit]
  case h_20 => simp [elementResult, elemValue, elemReads, shiftImm, hsra, hbit]
  case h_21 => rcases hcmp with h | h | h | h <;>
    simp [elementResult, elemValue, elemReads, shiftImm, intOp, intCmp, h, BitVec.slt, BitVec.sle]
  all_goals simp [elementResult, elemValue, elemReads, shiftImm, floatOp, intOp] at hsome ⊢

theorem vop_of_elementResult {i : Instr} (hop : vecOp i = some (t, vop, v))
    (hsome : (elementResult i v 0 0 0 0).isSome = true) : vop ≤ 0x2C ∧ vop ≠ 0x20 := by
  unfold vecOp at hop
  split at hop <;> cases hop
  all_goals simp [elementResult] at hsome ⊢

theorem vecViewOk_of_wellFormed (h : vecMalformed vop v = false) : vecViewOk vop v.view.toNat = true := by
  simp only [vecMalformed, Bool.or_eq_false_iff, Bool.not_eq_false'] at h
  obtain ⟨⟨⟨⟨⟨⟨⟨⟨hview, -⟩, -⟩, -⟩, -⟩, -⟩, -⟩, -⟩, -⟩ := h
  exact hview

/-- The shifts are defined in the INT32 view only (R134). -/
theorem view_of_shiftImm (h : vecMalformed vop v = false) (hs : shiftImm vop v = true) : v.view.toNat = 1 := by
  have hview := vecViewOk_of_wellFormed h
  simp only [shiftImm, Bool.and_eq_true, decide_eq_true_eq] at hs
  obtain ⟨⟨hlo, hhi⟩, -⟩ := hs
  unfold vecViewOk at hview
  rwa [if_neg (by omega), if_neg (by omega), if_pos (by omega), beq_iff_eq] at hview

theorem elemReads_of_shiftImm (hs : shiftImm vop v = true) : elemReads vop = (true, true, false) := by
  simp only [shiftImm, Bool.and_eq_true, decide_eq_true_eq] at hs
  obtain ⟨⟨hlo, hhi⟩, -⟩ := hs
  interval_cases vop <;> rfl

/-- The values that the row of an elementwise instruction reads at a position: those of a, b and c that it reads. -/
theorem getD_operands (hgood : vecMalformed vop v = false) {p : Nat} (hp : p < viewCount v.view.toNat) :
    (operandA s t vop v).getD p elemReset
        = (if (elemReads vop).1 then regValue s t v.va.toNat v.row.toNat v.view.toNat p else elemReset)
      ∧ (operandB s t vop v).getD p elemReset = (if shiftImm vop v then ⟨BitVec.ofNat 32 (vmode v 53 5), .none⟩
          else if (elemReads vop).2.1 then sourceB s t v p else elemReset)
      ∧ (operandC s t vop v).getD p elemReset
        = (if (elemReads vop).2.2 then regValue s t v.vc.toNat v.row.toNat v.view.toNat p else elemReset) := by
  refine ⟨?_, ?_, ?_⟩
  · unfold operandA
    split <;> rfl
  · unfold operandB
    split
    · rename_i hs
      rw [view_of_shiftImm hgood hs] at hp
      rw [List.getD_replicate _ (by simpa [viewCount] using hp)]
    · split
      · exact getD_sourceRow s t v p
      · rfl
  · unfold operandC
    split <;> rfl

/-- Each value of the first row of an elementwise instruction is the operation of the values at its position, with the
causes of those that it reads (R125, R134). -/
theorem elemRow_values {i : Instr} (hop : vecOp i = some (t, vop, v))
    (hsome : (elementResult i v 0 0 0 0).isSome = true) (hgood : vecMalformed vop v = false) {r : VecRun}
    (hr : r.row = 0) (hvop : r.vop = vop) (hslot : r.slot = v) {p : Nat} (hp : p < viewCount v.view.toNat) :
    let a := regValue s t v.va.toNat v.row.toNat v.view.toNat p
    let b := sourceB s t v p
    let c := regValue s t v.vc.toNat v.row.toNat v.view.toNat p
    let e := (elemRow r (operandA s t vop v) (operandB s t vop v) (operandC s t vop v)).getD p elemReset
    ∃ x ra rb rc, elementResult i v p a.bits b.bits c.bits = some (x, ra, rb, rc) ∧ e.bits = x
      ∧ e.cause = causeJoin (causeJoin (if ra then a.cause else .none) (if rb then b.cause else .none))
        (if rc then c.cause else .none) := by
  obtain ⟨ha, hb, hc⟩ := getD_operands (s := s) (t := t) hgood hp
  subst hvop hslot
  refine ⟨_, _, _, _, elementResult_eq hop hsome p _ _ _, ?_, ?_⟩ <;> rw [getD_elemRow hr _ _ _ hp, ha, hb, hc]
  · simp only [apply_ite Elem.bits]
    rfl
  · have hzero : ∀ (c : Bool) (x y : Elem), (if c then (if c then x else y).cause else Cause.none)
        = if c then x.cause else .none := fun c x y => by cases c <;> rfl
    cases hs : shiftImm r.vop r.slot with
    | true => simp [elemReads_of_shiftImm hs]
    | false => simp [hzero]

theorem vecRowOf_elementwise {r : VecRun} (h : r.vop ≤ 0x2C) :
    vecRowOf s t r = elemwiseRow s t r (s.latency t (vecLatency r.vop 0)) := by
  rw [vecRowOf, if_pos h, vecLatency_axis (by omega) (by omega)]

/-- The first row of an elementwise instruction: one result, in the frame of its engine. -/
theorem elementwise_issues {i : Instr} (hop : vecOp i = some (t, vop, v)) (h : vecIssues s t vop v)
    (hle : vop ≤ 0x2C) (hcvt : vop ≠ 0x20) :
    let res := elemRow (firstRow s t vop v) (operandA s t vop v) (operandB s t vop v) (operandC s t vop v)
    ∃ s', exec i s = .next s' ∧ onlyVec s s' t ∧ vecSends s s' t v (s.latency t (vecLatency vop 0))
      [.treg v.vd.toNat v.row.toNat (rowLanes (viewRow v.view.toNat res))] := by
  have hc := engineClean_of_vecClean h.1
  have hk : EngineKept t s (s.withRun t (firstRow s t vop v)) := engineKept_withRun _
  have hentry : takesEntry vop v = false := by
    simp only [takesEntry, Bool.or_eq_false_iff, Bool.and_eq_false_iff, beq_eq_false_iff_ne]
    omega
  refine ⟨_, exec_of_issues hop h, ?_⟩
  rw [startState_of_no_entry hentry]
  rw [vecRowOf_elementwise hle, elemwiseRow_of_clean (hc.of_kept hk) firstRow_row hcvt]
  simp only [operandA, operandB, operandC, hk.regRow, sourceRow_of_kept hk, firstRow_vop, firstRow_slot, firstRow_issue,
    latency_withRun]
  exact ⟨onlyVec_enqueue hc hk (onlyVec_withRun _) .., vecSends_enqueue hc hk rfl⟩

theorem latency_float (s : State) (t : Nat) (h : vop ≤ 0x0B) : s.latency t (vecLatency vop 0) = 4 := by
  have hlat : vecLatency vop 0 = ⟨4, 4, none⟩ := if_pos h
  rw [hlat, latency_of_same]

theorem latency_int (s : State) (t : Nat) (hlo : 0x10 ≤ vop) (hhi : vop ≤ 0x1A) :
    s.latency t (vecLatency vop 0) = 2 := by
  have hlat : vecLatency vop 0 = ⟨2, 2, none⟩ := (if_neg (by omega)).trans (if_pos hhi)
  rw [hlat, latency_of_same]

/-! ### Conversions (R135) -/

theorem vecDraws_of_not_sr {r : VecRun} (h : vRnd r.slot ≠ .sr) (s : State) (t e0 n : Nat) :
    vecDraws s t r e0 n = ([], s) := by
  rw [vecDraws, if_neg h]

theorem elemwiseRow_convert (hc : EngineClean s t) {r : VecRun} (hrow : r.row = 0) (hvop : r.vop = 0x20)
    (hrnd : vRnd r.slot ≠ .sr) (lat : Nat) :
    elemwiseRow s t r lat = enqueue s t (r.issue + lat) r.issue (.treg r.slot.vd.toNat r.slot.row.toNat
      (rowLanes (viewRow (vTview r.slot) (cvtRow r.slot.view.toNat (vTview r.slot) (vRnd r.slot) []
        (regRow s t r.slot.va.toNat r.slot.row.toNat r.slot.view.toNat))))) := by
  have hreads : elemReads 0x20 = (true, false, false) := rfl
  have himm : ∀ v, shiftImm 0x20 v = false := fun _ => rfl
  simp only [elemwiseRow, hvop, hreads, himm, readVals_of_clean hc, hrow, vecDraws_of_not_sr hrnd, Nat.add_zero,
    if_true]
  rfl

theorem length_cvtRow (view tview : Nat) (rnd : Rnd) (ds : List Nat) {vs : List Elem}
    (h : vs.length = viewCount view) : (cvtRow view tview rnd ds vs).length = viewCount tview := by
  unfold cvtRow viewCount at *
  split_ifs at * <;> simp_all

/-- The value of the source that value `p` of a converted row is made from (R135). -/
def cvtSource (view tview p : Nat) : Nat :=
  if view = 2 ∧ tview ≠ 2 then 2 * p else if view ≠ 2 ∧ tview = 2 then p / 2 else p

theorem getD_cvtRow (view tview : Nat) (rnd : Rnd) {vs : List Elem} (h : vs.length = viewCount view) {p : Nat}
    (hp : p < viewCount tview) : (cvtRow view tview rnd [] vs).getD p elemReset =
      let e := cvtVal view tview rnd 0 (vs.getD (cvtSource view tview p) elemReset)
      if view ≠ 2 ∧ tview = 2 ∧ p % 2 = 1 then ⟨0, e.cause⟩ else e := by
  have hconv : ∀ {l : List Elem} {q : Nat}, q < l.length →
      (l.mapIdx fun i e => cvtVal view tview rnd (([] : List Nat).getD i 0) e).getD q elemReset
        = cvtVal view tview rnd 0 (l.getD q elemReset) := fun hq => getD_mapIdx _ _ _ hq
  rw [viewCount] at h hp
  dsimp only
  by_cases hv : view = 2
  · rw [if_pos hv] at h
    rw [if_neg (by simp [hv])]
    by_cases ht : tview = 2
    · have hsrc : cvtSource view tview p = p := by simp [cvtSource, hv, ht]
      rw [if_pos ht] at hp
      rw [hsrc, cvtRow, if_neg (by simp [ht]), if_neg (by simp [hv]), hconv (by omega)]
    · have hsrc : cvtSource view tview p = 2 * p := by simp [cvtSource, hv, ht]
      rw [if_neg ht] at hp
      rw [hsrc, cvtRow, if_pos ⟨hv, ht⟩, hconv (by simpa using hp), getD_map_range _ _ hp]
  · rw [if_neg hv] at h
    by_cases ht : tview = 2
    · have hsrc : cvtSource view tview p = p / 2 := by simp [cvtSource, hv, ht]
      rw [if_pos ht] at hp
      rw [hsrc, cvtRow, if_neg (by simp [hv]), if_pos ⟨hv, ht⟩, getD_flatMap_pair (fun e : Elem => ⟨0, e.cause⟩) _
        (by simp only [List.length_mapIdx]; omega), hconv (by omega)]
      simp only [hv, ht, ne_eq, not_false_eq_true, true_and]
    · have hsrc : cvtSource view tview p = p := by simp [cvtSource, hv, ht]
      rw [if_neg ht] at hp
      rw [if_neg (by simp [ht]), hsrc, cvtRow, if_neg (by simp [hv]), if_neg (by simp [ht]), hconv (by omega)]

/-- The first row of VCVT: one result, in the frame of its engine. -/
theorem vcvt_issues (h : vecIssues s t 0x20 v) (hrnd : vRnd v ≠ .sr) :
    let res := cvtRow v.view.toNat (vTview v) (vRnd v) [] (regRow s t v.va.toNat v.row.toNat v.view.toNat)
    ∃ s', exec (.vcvt t v) s = .next s' ∧ onlyVec s s' t
      ∧ vecSends s s' t v 3 [.treg v.vd.toNat v.row.toNat (rowLanes (viewRow (vTview v) res))] := by
  have hc := engineClean_of_vecClean h.1
  have hk : EngineKept t s (s.withRun t (firstRow s t 0x20 v)) := engineKept_withRun _
  refine ⟨_, exec_of_issues rfl h, ?_⟩
  rw [startState_of_no_entry rfl, vecRowOf_elementwise (by simp),
    elemwiseRow_convert (hc.of_kept hk) firstRow_row firstRow_vop hrnd]
  simp only [hk.regRow, firstRow_vop, firstRow_slot, firstRow_issue, latency_withRun]
  exact ⟨onlyVec_enqueue hc hk (onlyVec_withRun _) .., vecSends_enqueue hc hk (congrArg _ (latency_of_same ..))⟩

end

/-! ### The statement -/

/-- Settles O20: the result row is `elemRow` or `cvtRow` of the values that the registers hold. -/
theorem elementwiseAndConversion : Obligations.ElementwiseAndConversion := by
  refine ⟨fun i s t vop v hop h hsome => ?_, fun s t v h hrnd => ?_⟩
  · obtain ⟨hle, hcvt⟩ := vop_of_elementResult hop hsome
    obtain ⟨s', hexec, honly, hsends⟩ := elementwise_issues hop h hle hcvt
    refine ⟨s', _, hexec, honly, hsends, latency_float s t, latency_int s t, length_elemRow .., fun p hp => ?_⟩
    exact elemRow_values hop hsome h.2.1 firstRow_row firstRow_vop firstRow_slot (by rwa [length_elemRow] at hp)
  · obtain ⟨s', hexec, honly, hsends⟩ := vcvt_issues h hrnd
    have hlen := length_cvtRow v.view.toNat (vTview v) (vRnd v) [] (length_regRow s t v.va.toNat v.row.toNat v.view.toNat)
    refine ⟨s', _, hexec, honly, hsends, hlen, fun p hp => ?_⟩
    rw [getD_cvtRow _ _ _ (length_regRow ..) (by rwa [hlen] at hp), getD_regRow]
    dsimp only
    constructor
    · rw [apply_ite Elem.bits, cvtVal, apply_ite (BitVec.ofNat 32)]
      rfl
    · rw [apply_ite Elem.cause, ite_self]
      rfl

end Sys2Proof.Machine

/-! PROOFS. O21: the special values of the transcendental operations, and the random instructions. -/

namespace Sys2Proof.Machine

/-! ### Special values (R136) -/

theorem transFp32_of_fixed {vop : Nat} {x b : BitVec 32} {v : FVal} (hx : fp32Val x = v)
    (hc : transCase vop v = .fixed b) : transFp32 vop x = b := by
  rw [transFp32, hx, hc]

theorem fp32Val_posInf : fp32Val 0x7F800000 = .inf false := by decide

theorem fp32Val_negInf : fp32Val 0xFF800000 = .inf true := by decide

/-- The operations at a zero of either sign. -/
theorem transCase_zero (n : Bool) (e : Int) :
    transCase 0x21 (.fin n 0 e) = .fixed fp32One ∧ transCase 0x22 (.fin n 0 e) = .fixed fp32One
    ∧ transCase 0x23 (.fin n 0 e) = .fixed (fp32Signed true fp32Inf)
    ∧ transCase 0x24 (.fin n 0 e) = .fixed (fp32Signed true fp32Inf)
    ∧ transCase 0x25 (.fin n 0 e) = .fixed (fp32Signed n fp32Inf)
    ∧ transCase 0x26 (.fin n 0 e) = .fixed (fp32Signed n fp32Inf)
    ∧ transCase 0x27 (.fin n 0 e) = .fixed (fp32Signed n 0) ∧ transCase 0x28 (.fin n 0 e) = .fixed (fp32Signed n 0)
    ∧ transCase 0x2A (.fin n 0 e) = .fixed (fp32Signed n 0)
    ∧ transCase 0x2B (.fin n 0 e) = .fixed (fp32Signed n 0) := by
  simp [transCase, isIntegerVal]

/-- VLOG, VLOG2, VRSQRT and VSQRT of a negative value are NaN. -/
theorem transCase_negative {m : Nat} (hm : m ≠ 0) (e : Int) :
    transCase 0x23 (.fin true m e) = .fixed fp32NaN ∧ transCase 0x24 (.fin true m e) = .fixed fp32NaN
    ∧ transCase 0x26 (.fin true m e) = .fixed fp32NaN ∧ transCase 0x27 (.fin true m e) = .fixed fp32NaN := by
  simp [transCase, hm]

theorem fp32Val_one : fp32Val 0x3F800000 = .fin false (2 ^ 23) (-23) := by decide

/-- The logarithms of 1 are +0. -/
theorem transCase_log_one :
    transCase 0x23 (.fin false (2 ^ 23) (-23)) = .fixed 0 ∧ transCase 0x24 (.fin false (2 ^ 23) (-23)) = .fixed 0 := by
  have hone : valCmp (.fin false (2 ^ 23) (-23)) (.fin false 1 0) = some .eq := by decide
  constructor
  · unfold transCase
    simp only [hone]
    rfl
  · unfold transCase
    simp only [hone]
    rfl

theorem isIntegerVal_iff (m : Nat) (e : Int) : isIntegerVal m e = true ↔ 0 ≤ e ∨ 2 ^ (-e).toNat ∣ m := by
  simp [isIntegerVal, Nat.dvd_iff_mod_eq_zero]

theorem transCase_sinpi {n : Bool} {m : Nat} {e : Int} (h : isIntegerVal m e = true) :
    transCase 0x2B (.fin n m e) = .fixed (fp32Signed n 0) := by
  simp [transCase, h]

theorem transCase_cospi {n : Bool} {m : Nat} {e : Int} (h : isIntegerVal m (e + 1) = true)
    (hint : isIntegerVal m e = false) : transCase 0x2C (.fin n m e) = .fixed 0 := by
  simp [transCase, h, hint]

theorem trans_zero {x : BitVec 32} (hx : x = 0 ∨ x = 0x80000000) :
      transFp32 0x21 x = 0x3F800000 ∧ transFp32 0x22 x = 0x3F800000 ∧ transFp32 0x23 x = 0xFF800000
      ∧ transFp32 0x24 x = 0xFF800000 ∧ transFp32 0x25 x = (x ||| 0x7F800000) ∧ transFp32 0x26 x = (x ||| 0x7F800000)
      ∧ transFp32 0x27 x = x ∧ transFp32 0x28 x = x ∧ transFp32 0x2A x = x ∧ transFp32 0x2B x = x := by
  obtain ⟨n, hval, hinf, hzero⟩ : ∃ n, fp32Val x = .fin n 0 (-149) ∧ fp32Signed n fp32Inf = (x ||| 0x7F800000)
      ∧ fp32Signed n 0 = x := by
    rcases hx with rfl | rfl
    · exact ⟨false, by decide⟩
    · exact ⟨true, by decide⟩
  obtain ⟨h21, h22, h23, h24, h25, h26, h27, h28, h2A, h2B⟩ := transCase_zero n (-149)
  have hone : fp32One = 0x3F800000 := rfl
  have hneg : fp32Signed true fp32Inf = 0xFF800000 := by decide
  simp only [transFp32, hval, h21, h22, h23, h24, h25, h26, h27, h28, h2A, h2B, hinf, hzero, hone, hneg, and_self]

theorem trans_infinities :
    transFp32 0x21 0xFF800000 = 0 ∧ transFp32 0x22 0xFF800000 = 0 ∧ transFp32 0x21 0x7F800000 = 0x7F800000
    ∧ transFp32 0x22 0x7F800000 = 0x7F800000 := by
  simp only [transFp32, fp32Val_posInf, fp32Val_negInf]
  decide

theorem trans_specials :
    transFp32 0x23 0x7F800000 = 0x7F800000 ∧ transFp32 0x24 0x7F800000 = 0x7F800000 ∧ transFp32 0x23 0x3F800000 = 0
    ∧ transFp32 0x24 0x3F800000 = 0 ∧ transFp32 0x25 0x7F800000 = 0 ∧ transFp32 0x25 0xFF800000 = 0x80000000
    ∧ transFp32 0x26 0x7F800000 = 0 ∧ transFp32 0x28 0x7F800000 = 0x3F800000 ∧ transFp32 0x28 0xFF800000 = 0xBF800000
    ∧ transFp32 0x29 0xFF800000 = 0 ∧ transFp32 0x29 0x7F800000 = 0x3F800000 ∧ transFp32 0x2A 0x7F800000 = 0x3F800000
    ∧ transFp32 0x2A 0xFF800000 = 0xBF800000 ∧ transFp32 0x2B 0x7F800000 = 0x7FC00000
    ∧ transFp32 0x2B 0xFF800000 = 0x7FC00000 ∧ transFp32 0x2C 0x7F800000 = 0x7FC00000
    ∧ transFp32 0x2C 0xFF800000 = 0x7FC00000 := by
  obtain ⟨hlog, hlog2⟩ := transCase_log_one
  simp only [transFp32, fp32Val_posInf, fp32Val_negInf, fp32Val_one, hlog, hlog2]
  decide

/-! ### Draws of a stream (R94, R96) -/

section
variable {s : State} {t k : Nat}

/-- The draw that a stream gives `n` positions on. -/
def drawAt (s : State) (t k n : Nat) : BitVec 32 :=
  rngDraw (s.rngKey t k) (s.reg (VEC_RNG_ID t k)) ((s.rngOf t k).cur + BitVec.ofNat 64 n)

/-- A stream moved on by `n` draws. -/
def advanceStream (s : State) (t k n : Nat) : State :=
  s.modTile t fun x => { x with
    rng := mapSet rngReset x.rng k { s.rngOf t k with cur := (s.rngOf t k).cur + BitVec.ofNat 64 n } }

/-- An enabled stream that is not BOUND gives its next draws and moves on by as many. -/
theorem draws_of_enabled (hen : bit (s.reg (VEC_RNG_CFG t k)) 31 = true) (hbind : s.rngBind t k ≠ 1)
    (base : BitVec 64) (e0 elems n : Nat) : s.draws t k base e0 elems n
      = ((List.range (elems * n)).map fun i => (drawAt s t k i).toNat, advanceStream s t k (elems * n)) := by
  have hfree : ¬ fld (s.reg (VEC_RNG_CFG t k)) 4 2 = 1 := hbind
  unfold State.draws
  rw [if_neg (by simp [hen]), if_neg hfree]
  rfl

theorem rngOf_advanceStream (s : State) (t k n : Nat) :
    ((advanceStream s t k n).rngOf t k).cur = (s.rngOf t k).cur + BitVec.ofNat 64 n := by
  rw [advanceStream, State.rngOf, State.tile_modTile_same, mapGet_mapSet_same]

theorem rngOf_of_onlyVec {s s' : State} (h : onlyVec s s' t) (k : Nat) : s'.rngOf t k = s.rngOf t k :=
  (congrArg (fun x : Tile => mapGet rngReset x.rng k) h.2.2 :)

theorem engineKept_advanceStream (n : Nat) : EngineKept t s (advanceStream s t k n) :=
  .of_view (engineView_modTile fun _ => ⟨rfl, rfl, rfl⟩)

end

theorem onlyTiles.trans {s s' s'' : State} (h : onlyTiles s s') (h' : onlyTiles s' s'') : onlyTiles s s'' :=
  (congrArg (fun x : State => { x with tiles := s.tiles }) h' :).trans h

/-! ### Random instructions (R137, R95) -/

section
variable {s : State} {t vop : Nat} {v : VecSlot}

/-- Draws that an element takes. -/
def drawsPer (vop : Nat) : Nat := if vop = 0x32 then 2 else 1

/-- What a random instruction writes to column `c` of its first row. -/
def randomElem (s : State) (t vop : Nat) (v : VecSlot) (c : Nat) : Elem :=
  match vop with
  | 0x30 => ⟨fp32Bits .rne (.fin false ((drawAt s t v.rstr.toNat c).toNat / 256 + vmode v 52 1) (-24)), .none⟩
  | 0x31 => ⟨if (drawAt s t v.rstr.toNat c).toNat < rngThreshold (fp32Val (cacheValue s t v.orow.toNat 0 c).bits)
      then 0x3F800000 else 0, (cacheValue s t v.orow.toNat 0 c).cause⟩
  | _ => ⟨rngNormal (drawAt s t v.rstr.toNat (2 * c)).toNat (drawAt s t v.rstr.toNat (2 * c + 1)).toNat, .none⟩

theorem rngUnit_ite (d : BitVec 32) (v : VecSlot) : (if vmode v 52 1 = 1 then rngUnitPos d else rngUnit d)
    = .fin false (d.toNat / 256 + vmode v 52 1) (-24) := by
  have hbit : vmode v 52 1 = 0 ∨ vmode v 52 1 = 1 := by
    have := vmode_lt v 52 1
    omega
  rcases hbit with h | h <;> simp [h, rngUnit, rngUnitPos]

theorem rngRow_of_clean (hc : EngineClean s t) {r : VecRun} (hrow : r.row = 0)
    (hen : bit (s.reg (VEC_RNG_CFG t r.slot.rstr.toNat)) 31 = true) (hbind : s.rngBind t r.slot.rstr.toNat ≠ 1)
    (hvop : r.vop = 0x30 ∨ r.vop = 0x31 ∨ r.vop = 0x32) (lat : Nat) :
    rngRow s t r lat = enqueue (advanceStream s t r.slot.rstr.toNat (64 * drawsPer r.vop)) t (r.issue + lat) r.issue
      (.treg r.slot.vd.toNat r.slot.row.toNat (rowLanes ((List.range 64).map (randomElem s t r.vop r.slot)))) := by
  have hdraw : ∀ {n i : Nat}, i < n → ((List.range n).map fun i => (drawAt s t r.slot.rstr.toNat i).toNat).getD i 0
      = (drawAt s t r.slot.rstr.toNat i).toNat := fun hi => getD_map_range _ _ hi
  rcases hvop with h | h | h
  · simp only [rngRow, h, if_false, draws_of_enabled hen hbind, hrow, drawsPer, Nat.add_zero, Nat.reduceEqDiff]
    rw [List.map_congr_left (l := List.range 64) (g := randomElem s t 0x30 r.slot)]
    intro c hcol
    rw [hdraw (by simpa using hcol), BitVec.ofNat_toNat, BitVec.setWidth_eq, rngUnit_ite]
    rfl
  · simp only [rngRow, h, if_true, readCacheVals_of_clean hc, draws_of_enabled hen hbind, hrow, drawsPer, Nat.add_zero,
      Nat.reduceEqDiff, if_false]
    rw [List.map_congr_left (l := List.range 64) (g := randomElem s t 0x31 r.slot)]
    intro c hcol
    rw [hdraw (by simpa using hcol), getD_cacheRow, viewBool]
    simp [randomElem]
  · simp only [rngRow, h, if_true, draws_of_enabled hen hbind, hrow, drawsPer, Nat.add_zero, Nat.reduceEqDiff, if_false]
    rw [List.map_congr_left (l := List.range 64) (g := randomElem s t 0x32 r.slot)]
    intro c hcol
    have hcol : c < 64 := by simpa using hcol
    rw [hdraw (by omega), hdraw (by omega)]
    rfl

theorem vecRowOf_random {r : VecRun} (hlo : 0x30 ≤ r.vop) (hhi : r.vop ≤ 0x32) :
    vecRowOf s t r = rngRow s t r (s.latency t (vecLatency r.vop 0)) := by
  rw [vecRowOf, if_neg (by omega), if_pos hhi, vecLatency_axis (by omega) (by omega)]

/-- What is in issue is no part of what the draws and the cache give. -/
theorem randomElem_withRun (r : VecRun) : randomElem (s.withRun t r) t vop v = randomElem s t vop v := by
  have hdraw : ∀ k n, drawAt (s.withRun t r) t k n = drawAt s t k n := by
    intro k n
    simp only [drawAt, State.rngKey, rngOf_of_onlyVec (onlyVec_withRun r), reg_withRun]
  have hcache : ∀ c, cacheValue (s.withRun t r) t v.orow.toNat 0 c = cacheValue s t v.orow.toNat 0 c := fun c =>
    congrArg (·.getD c elemReset) ((engineKept_withRun r).cacheRow _ _)
  funext c
  simp only [randomElem, hdraw, hcache]

/-- The first row of a random instruction, from an enabled stream that is not BOUND. -/
theorem random_issues {i : Instr} (hop : vecOp i = some (t, vop, v)) (hlo : 0x30 ≤ vop) (hhi : vop ≤ 0x32)
    (h : vecIssues s t vop v) (hen : bit (s.reg (VEC_RNG_CFG t v.rstr.toNat)) 31 = true)
    (hbind : s.rngBind t v.rstr.toNat ≠ 1) :
    ∃ s', exec i s = .next s' ∧ onlyTiles s s' ∧ sameTilesBut s s' [t]
      ∧ vecSends s s' t v (s.latency t (vecLatency vop 0))
        [.treg v.vd.toNat v.row.toNat (rowLanes ((List.range 64).map (randomElem s t vop v)))]
      ∧ (s'.rngOf t v.rstr.toNat).cur = (s.rngOf t v.rstr.toNat).cur + BitVec.ofNat 64 (64 * drawsPer vop) := by
  have hc := engineClean_of_vecClean h.1
  have hk : EngineKept t s (s.withRun t (firstRow s t vop v)) := engineKept_withRun _
  have ho : onlyVec s (s.withRun t (firstRow s t vop v)) t := onlyVec_withRun _
  have hentry : takesEntry vop v = false := by
    simp only [takesEntry, Bool.or_eq_false_iff, Bool.and_eq_false_iff, beq_eq_false_iff_ne]
    omega
  have hvop : vop = 0x30 ∨ vop = 0x31 ∨ vop = 0x32 := by omega
  refine ⟨_, exec_of_issues hop h, ?_⟩
  rw [startState_of_no_entry hentry, vecRowOf_random hlo hhi,
    rngRow_of_clean (hc.of_kept hk) firstRow_row hen hbind hvop, randomElem_withRun]
  simp only [firstRow_vop, firstRow_slot, firstRow_issue, latency_withRun]
  generalize hx : s.withRun t (firstRow s t vop v) = x at *
  have hkept : EngineKept t s (advanceStream x t v.rstr.toNat (64 * drawsPer vop)) :=
    hk.trans (engineKept_advanceStream _)
  have hsent := fun due w => onlyVec_sent (s := s) (vop := vop) (v := v) (hc.of_kept hkept) due (s.cycle t) w
  refine ⟨?_, ?_, vecSends_enqueue hc hkept rfl, ?_⟩
  · exact ho.1.trans ((onlyTiles_modTile x t _).trans (hsent _ _).1)
  · exact ho.2.1.trans (sameTilesBut.trans (sameTilesBut_modTile x t _) (hsent _ _).2.1)
  · rw [rngOf_of_onlyVec (hsent _ _), rngOf_advanceStream, rngOf_of_onlyVec ho]

end

/-! ### The statement -/

/-- Settles O21: the table of R136, and a random row made of the next draws of its stream. -/
theorem transcendentalsAndRandom : Obligations.TranscendentalsAndRandom := by
  refine ⟨⟨fun vop x _ _ hx => transFp32_of_fixed hx rfl, trans_infinities, fun x => trans_zero, fun x m e hx hm => ?_,
    trans_specials, fun x n m e hx => ⟨fun h => ?_, fun h hint => ?_⟩⟩, ?_⟩
  · obtain ⟨h23, h24, h26, h27⟩ := transCase_negative hm e
    exact ⟨transFp32_of_fixed hx h23, transFp32_of_fixed hx h24, transFp32_of_fixed hx h26, transFp32_of_fixed hx h27⟩
  · rw [transFp32_of_fixed hx (transCase_sinpi ((isIntegerVal_iff m e).2 h))]
    cases n <;> rfl
  · have hfrac : isIntegerVal m e = false := by
      rwa [← Bool.not_eq_true, isIntegerVal_iff]
    exact transFp32_of_fixed hx (transCase_cospi ((isIntegerVal_iff m (e + 1)).2 h) hfrac)
  · intro i s t vop v hop hlo hhi h k hen hbind
    obtain ⟨s', hexec, honly, hothers, hsends, hcur⟩ := random_issues hop hlo hhi h hen hbind
    refine ⟨s', _, hexec, honly, hothers, hsends, hcur, by simp, fun c hcol => ?_⟩
    rw [getD_map_range _ _ hcol]
    refine ⟨fun hvop => ?_, fun hvop => ?_, fun hvop => ?_⟩ <;> subst hvop <;> exact ⟨rfl, rfl⟩

end Sys2Proof.Machine

/-! PROOFS. O22: the pairwise tree, and VRED, VSCAN and VSEGRED of a clean engine. -/

namespace Sys2Proof.Machine

/-! ### The pairwise tree (R138) -/

section
variable {α : Type} (op : α → α → α) (pad : α)

/-- The first `k` levels of the pairwise tree. -/
def treeLevels (k : Nat) (xs : List α) : List α := (List.range k).foldl (fun xs _ => pairUp op xs) xs

theorem treeLevels_succ (k : Nat) (xs : List α) : treeLevels op (k + 1) xs = pairUp op (treeLevels op k xs) := by
  simp [treeLevels, List.range_succ]

theorem length_pairUp (n : Nat) {xs : List α} (h : xs.length = 2 * n) : (pairUp op xs).length = n := by
  induction n generalizing xs with
  | zero => obtain rfl := List.length_eq_zero_iff.1 h; rfl
  | succ n ih =>
    match xs, h with
    | a :: b :: rest, h => simp [pairUp, ih (xs := rest) (by simpa [Nat.mul_add] using h)]

theorem pairUp_append (n : Nat) {xs : List α} (h : xs.length = 2 * n) (ys : List α) :
    pairUp op (xs ++ ys) = pairUp op xs ++ pairUp op ys := by
  induction n generalizing xs with
  | zero => obtain rfl := List.length_eq_zero_iff.1 h; rfl
  | succ n ih =>
    match xs, h with
    | a :: b :: rest, h => simp [pairUp, ih (xs := rest) (by simpa [Nat.mul_add] using h)]

theorem length_treeLevels (j k : Nat) {xs : List α} (h : xs.length = 2 ^ (j + k)) :
    (treeLevels op k xs).length = 2 ^ j := by
  induction k generalizing j with
  | zero => exact h
  | succ k ih =>
    rw [treeLevels_succ]
    exact length_pairUp op _ (by rw [ih (j + 1) (by rw [h]; congr 1; omega), Nat.pow_succ'])

theorem treeLevels_append (j k : Nat) {xs ys : List α} (hx : xs.length = 2 ^ (j + k)) :
    treeLevels op k (xs ++ ys) = treeLevels op k xs ++ treeLevels op k ys := by
  induction k generalizing j with
  | zero => rfl
  | succ k ih =>
    have hx : xs.length = 2 ^ (j + 1 + k) := by rw [hx]; congr 1; omega
    have hlen : (treeLevels op k xs).length = 2 * 2 ^ j := by rw [length_treeLevels op (j + 1) k hx, Nat.pow_succ']
    rw [treeLevels_succ, ih (j + 1) hx, pairUp_append op (2 ^ j) hlen, treeLevels_succ, treeLevels_succ]

theorem ceilLog2_of_between {n k : Nat} (hlo : 2 ^ k < n) (hhi : n ≤ 2 ^ (k + 1)) : ceilLog2 n = k + 1 := by
  have hpos := Nat.two_pow_pos k
  have hlog : (n - 1).log2 = k := (Nat.log2_eq_iff (by omega)).2 ⟨by omega, by omega⟩
  rw [ceilLog2, if_neg (by omega), hlog]

theorem ceilLog2_two_pow (k : Nat) : ceilLog2 (2 ^ k) = k := by
  cases k with
  | zero => rfl
  | succ k => exact ceilLog2_of_between (Nat.pow_lt_pow_right (by decide) (by omega)) le_rfl

/-- A sequence of 2^k values needs no padding. -/
theorem reduceTree_of_two_pow {k : Nat} {xs : List α} (h : xs.length = 2 ^ k) :
    reduceTree op pad xs = (treeLevels op k xs).headD pad := by
  simp [reduceTree, h, ceilLog2_two_pow, treeLevels]

theorem treeLevels_eq_single {k : Nat} {xs : List α} (h : xs.length = 2 ^ k) :
    treeLevels op k xs = [reduceTree op pad xs] := by
  have hlen : (treeLevels op k xs).length = 1 := length_treeLevels op 0 k (by rw [h, Nat.zero_add])
  obtain ⟨x, hx⟩ := List.length_eq_one_iff.1 hlen
  rw [reduceTree_of_two_pow op pad h, hx]
  rfl

theorem reduceTree_single (x : α) : reduceTree op pad [x] = x := rfl

/-- The tree of 2^(k + 1) values joins the trees of its halves. -/
theorem reduceTree_append {k : Nat} {xs ys : List α} (hx : xs.length = 2 ^ k) (hy : ys.length = 2 ^ k) :
    reduceTree op pad (xs ++ ys) = op (reduceTree op pad xs) (reduceTree op pad ys) := by
  have hlen : (xs ++ ys).length = 2 ^ (k + 1) := by rw [List.length_append, hx, hy, Nat.pow_succ']; omega
  rw [reduceTree_of_two_pow op pad hlen, treeLevels_succ, treeLevels_append op 0 k (by rw [hx, Nat.zero_add]),
    treeLevels_eq_single op pad hx, treeLevels_eq_single op pad hy]
  rfl

/-- A shorter sequence is padded with the identity to the next power of two. -/
theorem reduceTree_padded {k : Nat} {xs : List α} (hlo : 2 ^ k < xs.length) (hhi : xs.length ≤ 2 ^ (k + 1)) :
    reduceTree op pad xs = reduceTree op pad (xs ++ List.replicate (2 ^ (k + 1) - xs.length) pad) := by
  have hlen : (xs ++ List.replicate (2 ^ (k + 1) - xs.length) pad).length = 2 ^ (k + 1) := by
    rw [List.length_append, List.length_replicate]; omega
  rw [reduceTree_of_two_pow op pad hlen, reduceTree, ceilLog2_of_between hlo hhi]
  rfl

end

/-! ### Reductions (R138) -/

section
variable {s : State} {t : Nat} {v : VecSlot}

theorem map_getD_range {α : Type} (d : α) (l : List α) : (List.range l.length).map (fun c => l.getD c d) = l := by
  exact List.ext_getElem (by simp) fun i _ h => by simp [h]

/-- A row of a register is the list of its values. -/
theorem regRow_eq_map (s : State) (t reg row view : Nat) :
    (List.range (viewCount view)).map (fun c => regValue s t reg row view c) = regRow s t reg row view := by
  rw [← length_regRow s t reg row view]
  exact map_getD_range elemReset _

theorem cacheRow_eq_map (s : State) (t row : Nat) :
    (List.range 64).map (fun c => cacheValue s t row 1 c) = cacheRow s t row 1 := by
  have hlen : 64 = (cacheRow s t row 1).length := (length_cacheRow s t row 1).symm
  rw [hlen]
  exact map_getD_range elemReset _

theorem engineKept_modRun (f : VecRun → VecRun) : EngineKept t s (s.modRun t f) := EngineKept.modRun (Option.map f)

theorem onlyVec_modRun (f : VecRun → VecRun) : onlyVec s (s.modRun t f) t := onlyVec_modVec ..

theorem redRow_of_clean (hc : EngineClean s t) {r : VecRun} (hrow : r.row = 0) (hseen : r.seenA = []) (lat : Nat) :
    redRow s t r lat =
      let v := r.slot
      let view := v.view.toNat
      let a := regRow s t v.va.toNat v.row.toNat view
      if vAxis v = 0 then enqueue s t (r.issue + lat) r.issue (.treg v.vd.toNat v.row.toNat
        [valueLane view (vDcol v) (reduceTree (ropElem (vRop v) view) ⟨ropIdentity (vRop v) view, .none⟩ a)])
      else
        let s1 := s.modRun t fun q => { q with seenA := [a] }
        if lastRow r then enqueue s1 t (r.issue + lat) r.issue (.treg v.vd.toNat (vDrow v) (rowLanes (viewRow view a)))
        else s1 := by
  simp only [redRow, readVals_of_clean hc, hrow, hseen, Nat.add_zero, List.nil_append, columnOf, List.map_cons,
    List.map_nil, reduceTree_single, getD_regRow, regRow_eq_map]

theorem vecRowOf_red {r : VecRun} (h : r.vop = 0x38) :
    vecRowOf s t r = redRow s t r (s.latency t (vecLatency 0x38 (vAxis r.slot))) := by
  simp [vecRowOf, h]


/-- The tree of the values that an instruction reduces (R138). -/
def redTree (v : VecSlot) (a : List Elem) : Elem :=
  reduceTree (ropElem (vRop v) v.view.toNat) ⟨ropIdentity (vRop v) v.view.toNat, .none⟩ a

theorem issueRow_of_issues {vop : Nat} {i : Instr} (hop : vecOp i = some (t, vop, v)) (h : vecIssues s t vop v)
    (hentry : takesEntry vop v = false) : exec i s = .next (issued s t vop v
      (vecRowOf (s.withRun t (firstRow s t vop v)) t (firstRow s t vop v))) := by
  rw [exec_of_issues hop h, startState_of_no_entry hentry]

theorem lastRow_firstRow {vop : Nat} : lastRow (firstRow s t vop v) = true ↔ v.count.toNat = 1 := by
  simp only [lastRow, firstRow_row, firstRow_slot, beq_iff_eq]
  omega

/-- The first row of VRED along ROW, and along COL over one row or more. -/
theorem vred_row (h : vecIssues s t 0x38 v) {s1 : State} (hs1 : s1 = s.withRun t (firstRow s t 0x38 v)) :
    let a := regRow s t v.va.toNat v.row.toNat v.view.toNat
    let s2 := s1.modRun t fun q => { q with seenA := [a] }
    let lat := s.latency t (vecLatency 0x38 (vAxis v))
    vecRowOf s1 t (firstRow s t 0x38 v) =
      if vAxis v = 0 then enqueue s1 t (s.cycle t + lat) (s.cycle t) (.treg v.vd.toNat v.row.toNat
        [valueLane v.view.toNat (vDcol v) (redTree v a)])
      else if v.count.toNat = 1 then enqueue s2 t (s.cycle t + lat) (s.cycle t) (.treg v.vd.toNat (vDrow v)
        (rowLanes (viewRow v.view.toNat a)))
      else s2 := by
  have hc := engineClean_of_vecClean h.1
  have hk : EngineKept t s s1 := hs1 ▸ engineKept_withRun _
  rw [vecRowOf_red firstRow_vop, redRow_of_clean (hc.of_kept hk) firstRow_row firstRow_seenA]
  simp only [hk.regRow, firstRow_slot, firstRow_issue, lastRow_firstRow, redTree]
  rw [hs1, latency_withRun]

theorem vred_issues (h : vecIssues s t 0x38 v) :
    let a := regRow s t v.va.toNat v.row.toNat v.view.toNat
    ∃ s', exec (.vred t v) s = .next s' ∧ onlyVec s s' t
      ∧ (vAxis v = 0 → vecSends s s' t v (s.latency t (vecLatency 0x38 0))
          [.treg v.vd.toNat v.row.toNat [valueLane v.view.toNat (vDcol v) (redTree v a)]])
      ∧ (vAxis v = 1 → v.count = 1 → vecSends s s' t v (s.latency t (vecLatency 0x38 1))
          [.treg v.vd.toNat (vDrow v) (rowLanes (viewRow v.view.toNat a))]) := by
  have hc := engineClean_of_vecClean h.1
  have hk : EngineKept t s (s.withRun t (firstRow s t 0x38 v)) := engineKept_withRun _
  have ho : onlyVec s (s.withRun t (firstRow s t 0x38 v)) t := onlyVec_withRun _
  refine ⟨_, issueRow_of_issues rfl h rfl, ?_⟩
  rw [vred_row h rfl]
  by_cases hrow : vAxis v = 0
  · rw [if_pos hrow, hrow]
    exact ⟨onlyVec_enqueue hc hk ho .., fun _ => vecSends_enqueue hc hk rfl, by simp⟩
  · rw [if_neg hrow]
    have hk2 := hk.trans (engineKept_modRun fun q => { q with
      seenA := [regRow s t v.va.toNat v.row.toNat v.view.toNat] })
    have ho2 := ho.trans (onlyVec_modRun fun q => { q with
      seenA := [regRow s t v.va.toNat v.row.toNat v.view.toNat] })
    by_cases hcount : v.count.toNat = 1
    · rw [if_pos hcount]
      refine ⟨onlyVec_enqueue hc hk2 ho2 .., fun h0 => absurd h0 hrow, fun hcol _ => ?_⟩
      rw [hcol]
      exact vecSends_enqueue hc hk2 rfl
    · rw [if_neg hcount]
      exact ⟨ho2.trans onlyVec_issued, fun h0 => absurd h0 hrow, fun _ h1 => absurd (congrArg BitVec.toNat h1) hcount⟩

end
/-! ### Scans (R139, R141) -/

section
variable {α : Type} (op : α → α → α) (f : Nat → α)

/-- The values that take part in the scan's result at place `i` after `k` passes: the 2^k values that end there. -/
def scanWindow : Nat → Nat → α
  | 0, i => f i
  | k + 1, i => if i < 2 ^ k then scanWindow k i else op (scanWindow k (i - 2 ^ k)) (scanWindow k i)

/-- One pass over a sequence of which no flag is set. -/
theorem scanPass_unflagged (d n : Nat) : scanPass op d ((List.range n).map fun i => (f i, false))
    = (List.range n).map fun i => (if i < d then f i else op (f (i - d)) (f i), false) := by
  refine List.ext_getElem (by simp [scanPass]) fun i _ hi => ?_
  have hi : i < n := by simpa using hi
  by_cases hd : i < d
  · simp [scanPass, hd]
  · simp [scanPass, List.getElem_append, hd]

theorem scanPasses_unflagged (k n : Nat) :
    (List.range k).foldl (fun xs j => scanPass op (2 ^ j) xs) ((List.range n).map fun i => (f i, false))
      = (List.range n).map fun i => (scanWindow op f k i, false) := by
  induction k with
  | zero => rfl
  | succ k ih =>
    rw [List.range_succ, List.foldl_append, ih, List.foldl_cons, List.foldl_nil, scanPass_unflagged]
    rfl

theorem scanSeq_unflagged (k : Nat) : scanSeq op ((List.range (2 ^ k)).map fun i => (f i, false))
    = (List.range (2 ^ k)).map fun i => (scanWindow op f k i, false) := by
  rw [scanSeq, List.length_map, List.length_range, ceilLog2_two_pow, scanPasses_unflagged]

end

/-- The sum of the first `n` values. -/
def prefixSum (a : Nat → Elem) (n : Nat) : BitVec 32 := ((List.range n).map fun k => (a k).bits).sum

theorem prefixSum_succ (a : Nat → Elem) (n : Nat) : prefixSum a (n + 1) = prefixSum a n + (a n).bits := by
  simp [prefixSum, List.range_succ]

section
variable (a : Nat → Elem)

/-- The inputs of a scan that uses no coefficients. -/
def plainInput (i : Nat) : Elem × Elem := (elemReset, a i)

/-- A window of the scan of INT32 sums holds the sum of its values. -/
theorem bits_scanWindow (k i : Nat) : (scanWindow (scanOp 0 1) (plainInput a) k i).2.bits
    = prefixSum a (i + 1) - prefixSum a (i + 1 - 2 ^ k) := by
  induction k generalizing i with
  | zero => simp [scanWindow, plainInput, prefixSum_succ]
  | succ k ih =>
    have hpow := Nat.pow_succ' (m := 2) (n := k)
    rw [scanWindow]
    split
    next hi =>
      have h0 : i + 1 - 2 ^ k = 0 := by omega
      have h1 : i + 1 - 2 ^ (k + 1) = 0 := by omega
      rw [ih, h0, h1]
    next hi =>
      have h0 : i - 2 ^ k + 1 = i + 1 - 2 ^ k := by omega
      have h1 : i + 1 - 2 ^ k - 2 ^ k = i + 1 - 2 ^ (k + 1) := by omega
      have hop : ∀ x y, (scanOp 0 1 x y).2.bits = x.2.bits + y.2.bits := fun _ _ => rfl
      rw [hop, ih, ih, h0, h1, sub_add_sub_cancel']

/-- A window of the scan is poisoned by each of its values, and by no other. -/
theorem cause_scanWindow (k i : Nat) : (scanWindow (scanOp 0 1) (plainInput a) k i).2.cause = .none
    ↔ ∀ j, i < j + 2 ^ k → j ≤ i → (a j).cause = .none := by
  induction k generalizing i with
  | zero =>
    refine ⟨fun h j hlo hhi => ?_, fun h => h i (by omega) le_rfl⟩
    obtain rfl : j = i := by omega
    exact h
  | succ k ih =>
    have hpow := Nat.pow_succ' (m := 2) (n := k)
    rw [scanWindow]
    split
    next hi =>
      rw [ih]
      exact ⟨fun h j _ hhi => h j (by omega) hhi, fun h j _ hhi => h j (by omega) hhi⟩
    next hi =>
      have hop : ∀ x y, (scanOp 0 1 x y).2.cause = causeJoin x.2.cause y.2.cause := fun _ _ => rfl
      rw [hop, causeJoin_eq_none_iff, ih, ih]
      constructor
      · rintro ⟨hlow, hhigh⟩ j hlo hhi
        by_cases hj : i < j + 2 ^ k
        · exact hhigh j hj hhi
        · exact hlow j (by omega) (by omega)
      · exact fun h => ⟨fun j hlo hhi => h j (by omega) (by omega), fun j hlo hhi => h j (by omega) hhi⟩

end

/-- A scanned value without head, in a scan without segments. -/
def plainScanIn (e : Elem) : ScanIn := ⟨(elemReset, e), false, true, .none⟩

@[simp] theorem joinCause_none (e : Elem) : joinCause .none e = e := by
  rw [joinCause, causeJoin_none_right]

/-- The inclusive scan of one row along ROW, without segments: the scan of its values. -/
theorem scanRows_plain {v : VecSlot} (haxis : vAxis v = 0) (hexcl : vExcl v = false) (a : Nat → Elem) (k : Nat) :
    scanRows v none [((List.range (2 ^ k)).map a).map plainScanIn] = ([(List.range (2 ^ k)).map fun i =>
      (scanWindow (scanOp (vRop v) v.view.toNat) (plainInput a) k i).2], []) := by
  have hin : (((List.range (2 ^ k)).map a).map plainScanIn).map (scanEnter (scanIdentity (vRop v) v.view.toNat))
      = (List.range (2 ^ k)).map fun i => (plainInput a i, false) := by
    simp [plainScanIn, scanEnter, plainInput, Function.comp_def]
  simp only [scanRows, haxis, hexcl, List.map_cons, List.map_nil]
  rw [hin, scanSeq_unflagged]
  simp [scanOut, scanChain, plainScanIn, List.zip_map', Function.comp_def]

section
variable {s : State} {t : Nat} {v : VecSlot}

/-- What VSCAN of INT32 sums writes to column `i`. -/
def scanSum (s : State) (t : Nat) (v : VecSlot) (i : Nat) : Elem :=
  (scanWindow (scanOp 0 1) (plainInput fun c => regValue s t v.va.toNat v.row.toNat 1 c) 6 i).2

theorem scanRow_of_clean (hc : EngineClean s t) {r : VecRun} (hslot : r.slot = v) (hrow : r.row = 0)
    (hcarry : r.carryIn = none) (hview : v.view = 1) (hrop : vRop v = 0) (haxis : vAxis v = 0) (hseg : vSeg v = 0)
    (hexcl : vExcl v = false) (lat : Nat) : scanRow s t r lat = enqueue
      (s.modRun t fun q => { q with seenA := [regRow s t v.va.toNat v.row.toNat 1], seenB := [[]], seenF := [[]] }) t
      (r.issue + lat) r.issue
      (.treg v.vd.toNat v.row.toNat (rowLanes ((List.range 64).map (scanSum s t v)))) := by
  have hview1 : v.view.toNat = 1 := by rw [hview]; rfl
  have hin : ∀ xs : List Elem, scanInputs v [xs.map fun e => (elemReset, e)] [[]] [] = [xs.map plainScanIn] := by
    intro xs
    simp [scanInputs, hseg, plainScanIn, Function.comp_def]
  have hout : scanRows v none [(regRow s t v.va.toNat v.row.toNat 1).map plainScanIn]
      = ([(List.range 64).map (scanSum s t v)], []) := by
    have h := scanRows_plain haxis hexcl (fun c => regValue s t v.va.toNat v.row.toNat 1 c) 6
    rwa [hrop, hview1, show 2 ^ 6 = viewCount 1 from rfl, regRow_eq_map] at h
  simp only [scanRow, hslot, hrow, hcarry, hview1, hrop, haxis, hseg, readVals_of_clean hc, Nat.add_zero, Nat.reduceEqDiff,
    if_false, if_true, true_or, List.zip_cons_cons, List.zip_nil_right, List.map_cons, List.map_nil, Option.map_none, hin,
    hout, or_true, List.length_singleton, List.range_one, List.foldl_cons, List.foldl_nil, viewRow, OfNat.one_ne_ofNat]

theorem vecRowOf_scan {r : VecRun} (h : r.vop = 0x39) :
    vecRowOf s t r = scanRow s t r (s.latency t (vecLatency 0x39 (vAxis r.slot))) := by
  simp [vecRowOf, h]

theorem firstRow_carryIn_of_row {vop : Nat} (haxis : vAxis v = 0) : (firstRow s t vop v).carryIn = none := by
  simp [firstRow, issueRun, carryAtIssue, haxis]

theorem vscan_issues (h : vecIssues s t 0x39 v) (hview : v.view = 1) (hrop : vRop v = 0) (haxis : vAxis v = 0)
    (hseg : vSeg v = 0) (hexcl : vExcl v = false) :
    ∃ s', exec (.vscan t v) s = .next s' ∧ onlyVec s s' t
      ∧ vecSends s s' t v (s.latency t (vecLatency 0x39 0))
        [.treg v.vd.toNat v.row.toNat (rowLanes ((List.range 64).map (scanSum s t v)))] := by
  have hc := engineClean_of_vecClean h.1
  have hk : EngineKept t s (s.withRun t (firstRow s t 0x39 v)) := engineKept_withRun _
  have ho : onlyVec s (s.withRun t (firstRow s t 0x39 v)) t := onlyVec_withRun _
  have hsum : scanSum (s.withRun t (firstRow s t 0x39 v)) t v = scanSum s t v := by
    have hval : ∀ c, regValue (s.withRun t (firstRow s t 0x39 v)) t v.va.toNat v.row.toNat 1 c
        = regValue s t v.va.toNat v.row.toNat 1 c := fun c => congrArg (·.getD c elemReset) (hk.regRow _ _ _)
    funext i
    simp only [scanSum, hval]
  refine ⟨_, issueRow_of_issues rfl h rfl, ?_⟩
  rw [vecRowOf_scan firstRow_vop, scanRow_of_clean (hc.of_kept hk) firstRow_slot firstRow_row
    (firstRow_carryIn_of_row haxis) hview hrop haxis hseg hexcl, hsum, firstRow_slot, firstRow_issue, haxis, latency_withRun]
  exact ⟨onlyVec_enqueue hc (hk.trans (engineKept_modRun _)) (ho.trans (onlyVec_modRun _)) ..,
    vecSends_enqueue hc (hk.trans (engineKept_modRun _)) rfl⟩

/-- The window of the last pass over 64 values goes back to the first. -/
theorem scanSum_values {i : Nat} (hi : i < 64) :
    let a := fun c => regValue s t v.va.toNat v.row.toNat 1 c
    (scanSum s t v i).bits = prefixSum a (i + 1)
      ∧ ((scanSum s t v i).cause = .none ↔ ∀ k, k ≤ i → (a k).cause = .none) := by
  have hstart : i + 1 - 2 ^ 6 = 0 := by omega
  refine ⟨?_, (cause_scanWindow _ 6 i).trans ⟨fun h k hk => h k (by omega) hk, fun h k _ hk => h k hk⟩⟩
  rw [scanSum, bits_scanWindow, hstart]
  exact sub_zero _

end

/-! ### Segmented reductions (R142) -/

/-- The elements of segment `n` of a sequence. -/
def segment (lens : List Nat) (xs : List Elem) (n : Nat) : List Elem := (xs.drop (lens.take n).sum).take (lens.getD n 0)

theorem segReduce_eq_map (op : Elem → Elem → Elem) (pad : Elem) (lens : List Nat) (xs : List Elem) :
    segReduce op pad lens xs = (List.range lens.length).map fun n => reduceTree op pad (segment lens xs n) := by
  induction lens generalizing xs with
  | nil => rfl
  | cons l lens ih =>
    rw [segReduce, ih, List.length_cons, List.range_succ_eq_map, List.map_cons, List.map_map]
    simp [segment, Function.comp_def]

theorem trimLens_eq (lens : List Nat) : trimLens lens = lens.rdropWhile (· == 0) := rfl

/-- Trimming keeps the lengths up to the last positive one. -/
theorem trimLens_prefix (lens : List Nat) : trimLens lens <+: lens := List.rdropWhile_prefix ..

theorem lt_length_trimLens {lens : List Nat} {n : Nat} (h : 0 < lens.getD n 0) : n < (trimLens lens).length := by
  induction lens using List.reverseRecOn with
  | nil => simp at h
  | append_singleton lens l ih =>
    have hn : n < lens.length ∨ n = lens.length := by
      by_contra hge
      rw [List.getD_eq_default _ _ (by rw [List.length_append, List.length_singleton]; omega)] at h
      exact absurd h (by decide)
    rw [trimLens_eq, List.rdropWhile_concat]
    split
    next hl =>
      rcases hn with hn | rfl
      · exact ih (by rwa [List.getD_append _ _ _ _ hn] at h)
      · simp_all
    next => simpa using (by omega : n < lens.length + 1)

theorem last_trimLens {lens : List Nat} {i : Nat} (h : i < (trimLens lens).length) :
    ∃ n, i ≤ n ∧ n < lens.length ∧ 0 < lens.getD n 0 := by
  have hne : trimLens lens ≠ [] := List.ne_nil_of_length_pos (by omega)
  have hlast : (trimLens lens).getLast hne ≠ 0 := fun e =>
    List.rdropWhile_last_not (· == 0) lens hne (beq_iff_eq.2 e)
  have hle := (trimLens_prefix lens).length_le
  refine ⟨(trimLens lens).length - 1, by omega, by omega, ?_⟩
  rw [List.getLast_eq_getElem, (trimLens_prefix lens).getElem] at hlast
  rw [List.getD_eq_getElem _ _ (by omega)]
  exact Nat.pos_of_ne_zero hlast

/-- Within the trimmed lengths the segments are those of the lengths. -/
theorem segment_trimLens {lens : List Nat} {n : Nat} (h : n < (trimLens lens).length) (xs : List Elem) :
    segment (trimLens lens) xs n = segment lens xs n := by
  obtain ⟨rest, hrest⟩ := trimLens_prefix lens
  have htake : lens.take n = (trimLens lens).take n := by
    conv_lhs => rw [← hrest, List.take_append_of_le_length h.le]
  have hget : lens.getD n 0 = (trimLens lens).getD n 0 := by
    conv_lhs => rw [← hrest, List.getD_append _ _ _ _ h]
  rw [segment, segment, htake, hget]

section
variable {s : State} {t : Nat} {v : VecSlot}

/-- The lengths of the segments, as the row of the cache at OROW gives them. -/
def segLens (s : State) (t : Nat) (v : VecSlot) : List Nat := lengthsOf (cacheRow s t v.orow.toNat 1)

/-- The lanes that VSEGRED writes: one for each segment up to the last that has an element. -/
def segLanes (s : State) (t : Nat) (v : VecSlot) : List Lane :=
  (List.range (trimLens (segLens s t v)).length).map fun n => valueLane v.view.toNat n
    (joinCause (segCause (cacheRow s t v.orow.toNat 1) (some n))
      (redTree v (segment (segLens s t v) (regRow s t v.va.toNat v.row.toNat v.view.toNat) n)))

theorem segredRow_of_clean (hc : EngineClean s t) {r : VecRun} (hslot : r.slot = v) (hrow : r.row = 0)
    (hseen : r.seenA = []) (hlast : lastRow r = true) (lat : Nat) : segredRow s t r lat = enqueue
      (s.modRun t fun q => { q with seenA := [regRow s t v.va.toNat v.row.toNat v.view.toNat] }) t (r.issue + lat)
      r.issue (.treg v.vd.toNat (vDrow v) (segLanes s t v)) := by
  have hlanes : (segReduce (ropElem (vRop v) v.view.toNat) ⟨ropIdentity (vRop v) v.view.toNat, .none⟩
      (trimLens (segLens s t v)) (regRow s t v.va.toNat v.row.toNat v.view.toNat)).mapIdx
        (fun i e => valueLane v.view.toNat i (joinCause (segCause (cacheRow s t v.orow.toNat 1) (some i)) e))
      = segLanes s t v := by
    rw [segReduce_eq_map]
    refine List.ext_getElem (by simp [segLanes]) fun i hi _ => ?_
    have hi : i < (trimLens (segLens s t v)).length := by simpa using hi
    simp only [segLanes, List.getElem_mapIdx, List.getElem_map, List.getElem_range, segment_trimLens hi, redTree]
  simp only [segredRow, hslot, hrow, hseen, hlast, readVals_of_clean hc, readCacheVals_of_clean hc, Nat.add_zero,
    List.nil_append, List.flatten_singleton, if_true]
  rw [← hlanes, segLens]

theorem vecRowOf_segred {r : VecRun} (h : r.vop = 0x3A) :
    vecRowOf s t r = segredRow s t r (s.latency t (vecLatency 0x3A 0)) := by
  rw [← vecLatency_axis (by decide) (by decide) (vAxis r.slot)]
  simp [vecRowOf, h]

theorem vsegred_issues (h : vecIssues s t 0x3A v) (hcount : v.count = 1) :
    ∃ s', exec (.vsegred t v) s = .next s' ∧ onlyVec s s' t
      ∧ vecSends s s' t v (s.latency t (vecLatency 0x3A 0)) [.treg v.vd.toNat (vDrow v) (segLanes s t v)] := by
  have hc := engineClean_of_vecClean h.1
  have hk : EngineKept t s (s.withRun t (firstRow s t 0x3A v)) := engineKept_withRun _
  have ho : onlyVec s (s.withRun t (firstRow s t 0x3A v)) t := onlyVec_withRun _
  have hlanes : segLanes (s.withRun t (firstRow s t 0x3A v)) t v = segLanes s t v := by
    simp only [segLanes, segLens, hk.cacheRow, hk.regRow]
  refine ⟨_, issueRow_of_issues rfl h rfl, ?_⟩
  rw [vecRowOf_segred firstRow_vop, segredRow_of_clean (hc.of_kept hk) firstRow_slot firstRow_row firstRow_seenA
    (lastRow_firstRow.2 (by rw [hcount]; rfl)), hlanes, firstRow_issue, latency_withRun]
  exact ⟨onlyVec_enqueue hc (hk.trans (engineKept_modRun _)) (ho.trans (onlyVec_modRun _)) ..,
    vecSends_enqueue hc (hk.trans (engineKept_modRun _)) rfl⟩

theorem causeJoinAll_of_none {cs : List Cause} (h : ∀ c ∈ cs, c = .none) : causeJoinAll cs = .none := by
  rw [List.eq_replicate_of_mem h]
  induction cs.length with
  | zero => rfl
  | succ n ih => exact ih

theorem length_segLens : (segLens s t v).length = 64 := by
  rw [segLens, lengthsOf, List.length_map, length_cacheRow]
  rfl

/-- Lengths without poison give the elements of their segments no cause. -/
theorem segCause_of_clean (hlens : ∀ c, c < 64 → (cacheValue s t v.orow.toNat 1 c).cause = .none) (n : Nat) :
    segCause (cacheRow s t v.orow.toNat 1) (some n) = .none := by
  refine causeJoinAll_of_none fun c hcause => ?_
  obtain ⟨e, he, rfl⟩ := List.mem_map.1 hcause
  rw [← cacheRow_eq_map] at he
  obtain ⟨c, hc, rfl⟩ := List.mem_map.1 (List.mem_of_mem_take he)
  exact hlens c (List.mem_range.1 hc)

/-- The length of segment `n`. -/
def segLen (s : State) (t : Nat) (v : VecSlot) (n : Nat) : Nat :=
  ((cacheRow s t v.orow.toNat 1).getD n elemReset).bits.toInt.toNat

theorem segLens_eq_map : segLens s t v = (List.range 64).map (segLen s t v) := by
  rw [segLens, lengthsOf]
  conv_lhs => rw [← cacheRow_eq_map, List.map_map]
  rfl

theorem getD_segLens {n : Nat} (h : n < 64) : (segLens s t v).getD n 0 = segLen s t v n := by
  rw [segLens_eq_map, getD_map_range _ _ h]

theorem segment_segLens {n : Nat} (h : n < 64) (xs : List Elem) : segment (segLens s t v) xs n
    = (xs.drop ((List.range n).map (segLen s t v)).sum).take (segLen s t v n) := by
  rw [segment, getD_segLens h, segLens_eq_map, ← List.map_take, List.take_range, Nat.min_eq_left h.le]

theorem elem_valueLane (view col : Nat) (e : Elem) :
    (⟨(valueLane view col e).bits, (valueLane view col e).cause⟩ : Elem) = e := rfl

theorem segLanes_segment (hview : v.view ≠ 2)
    (hlens : ∀ c, c < 64 → (cacheValue s t v.orow.toNat 1 c).cause = .none) {n : Nat} (hlen : 0 < segLen s t v n)
    (hn : n < 64) : ∃ l ∈ segLanes s t v, l.idx = n ∧ l.half = none ∧ (⟨l.bits, l.cause⟩ : Elem)
      = redTree v (((regRow s t v.va.toNat v.row.toNat v.view.toNat).drop ((List.range n).map (segLen s t v)).sum).take
        (segLen s t v n)) := by
  have hview2 : v.view.toNat ≠ 2 := fun e => hview (BitVec.eq_of_toNat_eq e)
  refine ⟨_, List.mem_map.2 ⟨n, List.mem_range.2 (lt_length_trimLens (by rwa [getD_segLens hn])), rfl⟩, rfl, ?_,
    (elem_valueLane ..).trans ?_⟩
  · rw [valueLane, if_neg hview2]
  · rw [segCause_of_clean hlens, joinCause_none, segment_segLens hn]

theorem segLanes_bound {l : Lane} (h : l ∈ segLanes s t v) : ∃ n, l.idx ≤ n ∧ n < 64 ∧ 0 < segLen s t v n := by
  obtain ⟨i, hi, rfl⟩ := List.mem_map.1 h
  obtain ⟨n, hle, hlt, hlen⟩ := last_trimLens (List.mem_range.1 hi)
  have hn : n < 64 := by rwa [length_segLens] at hlt
  exact ⟨n, hle, hn, by rwa [getD_segLens hn] at hlen⟩

end

/-! ### The statement -/

/-- Settles O22: the tree by its halves, the scan by the windows that its passes double, and the segments by their
lengths. -/
theorem reductionsScansAndTree : Obligations.ReductionsScansAndTree := by
  refine ⟨⟨fun op pad k _ _ => reduceTree_append op pad, reduceTree_single, fun op pad k _ => reduceTree_padded op pad⟩,
    fun s t v h => ?_, fun s t v h hview hrop haxis hseg hexcl => ?_, fun s t v h hview hcount => ?_⟩
  · dsimp only
    rw [regRow_eq_map]
    exact vred_issues h
  · obtain ⟨s', hexec, honly, hsends⟩ := vscan_issues h hview hrop haxis hseg hexcl
    refine ⟨s', _, hexec, honly, hsends, by simp, fun c hcol => ?_⟩
    rw [getD_map_range _ _ hcol]
    exact scanSum_values hcol
  · have hcols : 64 = viewCount v.view.toNat := by
      have hview2 : v.view.toNat ≠ 2 := fun e => hview (BitVec.eq_of_toNat_eq e)
      rw [viewCount, if_neg hview2]
    have hregs := regRow_eq_map s t v.va.toNat v.row.toNat v.view.toNat
    rw [← hcols] at hregs
    obtain ⟨s', hexec, honly, hsends⟩ := vsegred_issues h hcount
    dsimp only
    rw [hregs, cacheRow_eq_map]
    exact fun hlens => ⟨s', _, hexec, honly, hsends, fun n => segLanes_segment hview hlens, fun l => segLanes_bound⟩

end Sys2Proof.Machine

/-! PROOFS. O23: sorts and merges, pops of the finished-tile queue, and wide areas. -/

namespace Sys2Proof.Machine

/-! ### The order of the pairs (R143) -/

/-- Rules 1 and 2: by key, then by the lower index. -/
theorem pairBefore_iff (p q : SortPair) : pairBefore p q = true ↔ keyRank q.key.bits < keyRank p.key.bits
    ∨ keyRank q.key.bits = keyRank p.key.bits ∧ p.index.bits.toInt < q.index.bits.toInt := by
  simp [pairBefore, BitVec.slt]

theorem pairBefore_asymm {p q : SortPair} (h : pairBefore p q = true) : pairBefore q p = false := by
  rw [← Bool.not_eq_true, pairBefore_iff]
  rw [pairBefore_iff] at h
  omega

/-- What comes strictly before a pair comes strictly before all that it does not come strictly after. -/
theorem pairBefore_of_not_before {p q x : SortPair} (h : pairBefore p q = true) (hx : pairBefore x q = false) :
    pairBefore p x = true := by
  rw [pairBefore_iff] at h ⊢
  rw [← Bool.not_eq_true, pairBefore_iff] at hx
  omega

/-- The descending order of R143 on pairs with their places: equal pairs by their place. -/
def placedBefore (p q : Nat × SortPair) : Prop :=
  pairBefore p.2 q.2 = true ∨ (pairBefore q.2 p.2 = false ∧ p.1 < q.1)

theorem not_before_of_placedBefore {p q : Nat × SortPair} (h : placedBefore p q) : pairBefore q.2 p.2 = false :=
  h.elim pairBefore_asymm And.left

/-- `sortInsert` on pairs with their places. -/
def placedInsert (p : Nat × SortPair) : List (Nat × SortPair) → List (Nat × SortPair)
  | [] => [p]
  | q :: rest => if pairBefore p.2 q.2 then p :: q :: rest else q :: placedInsert p rest

/-- `sortPairs` on pairs with their places. -/
def placedSort (l : List (Nat × SortPair)) : List (Nat × SortPair) := l.foldl (fun acc p => placedInsert p acc) []

theorem map_placedInsert (p : Nat × SortPair) (l : List (Nat × SortPair)) :
    (placedInsert p l).map Prod.snd = sortInsert p.2 (l.map Prod.snd) := by
  induction l with
  | nil => rfl
  | cons q rest ih =>
    simp only [placedInsert, sortInsert, List.map_cons]
    split
    · rfl
    · rw [List.map_cons, ih]

theorem perm_placedInsert (p : Nat × SortPair) (l : List (Nat × SortPair)) : (placedInsert p l).Perm (p :: l) := by
  induction l with
  | nil => exact .refl _
  | cons q rest ih =>
    rw [placedInsert]
    split
    · exact .refl _
    · exact (ih.cons q).trans (.swap p q rest)

/-- A pair goes behind every pair of a lower place that it does not come strictly before (rule 3). -/
theorem pairwise_placedInsert {p : Nat × SortPair} {l : List (Nat × SortPair)} (h : l.Pairwise placedBefore)
    (hp : ∀ q ∈ l, q.1 < p.1) : (placedInsert p l).Pairwise placedBefore := by
  induction l with
  | nil => exact List.pairwise_singleton _ _
  | cons q rest ih =>
    obtain ⟨hq, hrest⟩ := List.pairwise_cons.1 h
    rw [placedInsert]
    split
    next hbefore =>
      refine List.pairwise_cons.2 ⟨fun x hx => .inl ?_, h⟩
      rcases List.mem_cons.1 hx with rfl | hx
      · exact hbefore
      · exact pairBefore_of_not_before hbefore (not_before_of_placedBefore (hq x hx))
    next hbefore =>
      refine List.pairwise_cons.2 ⟨fun x hx => ?_, ih hrest fun x hx => hp x (List.mem_cons_of_mem _ hx)⟩
      rcases List.mem_cons.1 ((perm_placedInsert p rest).mem_iff.1 hx) with rfl | hx
      · exact .inr ⟨by simpa using hbefore, hp q List.mem_cons_self⟩
      · exact hq x hx

theorem placedSort_concat (l : List (Nat × SortPair)) (p : Nat × SortPair) :
    placedSort (l ++ [p]) = placedInsert p (placedSort l) := by simp [placedSort]

theorem map_placedSort (l : List (Nat × SortPair)) : (placedSort l).map Prod.snd = sortPairs (l.map Prod.snd) := by
  induction l using List.reverseRecOn with
  | nil => rfl
  | append_singleton l p ih => rw [placedSort_concat, map_placedInsert, ih]; simp [sortPairs]

theorem perm_placedSort (l : List (Nat × SortPair)) : (placedSort l).Perm l := by
  induction l using List.reverseRecOn with
  | nil => exact .refl _
  | append_singleton l p ih =>
    rw [placedSort_concat]
    exact (perm_placedInsert p _).trans ((ih.cons p).trans (List.perm_append_singleton p l).symm)

theorem pairwise_placedSort {l : List (Nat × SortPair)} (h : l.Pairwise fun p q => p.1 < q.1) :
    (placedSort l).Pairwise placedBefore := by
  induction l using List.reverseRecOn with
  | nil => exact .nil
  | append_singleton l p ih =>
    obtain ⟨hl, -, hp⟩ := List.pairwise_append.1 h
    rw [placedSort_concat]
    exact pairwise_placedInsert (ih hl) fun q hq => hp q ((perm_placedSort l).mem_iff.1 hq) p List.mem_cons_self

/-- Pairs with their places, in the order of the places. -/
def placed (ps : List SortPair) : List (Nat × SortPair) := (List.range ps.length).zip ps

theorem map_placed (ps : List SortPair) : (placed ps).map Prod.snd = ps := by
  simp [placed, List.map_snd_zip]

theorem pairwise_placed (ps : List SortPair) : (placed ps).Pairwise fun p q => p.1 < q.1 := by
  have h : ((placed ps).map Prod.fst).Pairwise (· < ·) := by
    rw [placed, List.map_fst_zip (by simp)]
    exact List.pairwise_lt_range
  exact List.pairwise_map.1 h

/-! ### VSORT and VMERGE -/

section
variable {s s' : State} {t vop : Nat} {v : VecSlot}

/-- A result of a tile that has broken no promise, also one that meets another on its way. -/
theorem enqueue_eq_send (hb : (s.tile t).broken = false) (due issued : Nat) (w : Landed) :
    ∃ s1, engineView t s1 = engineView t s ∧ enqueue s t due issued w = s1.send t ⟨due, issued, w⟩ := by
  refine ⟨if (s.vec t).pending.any (fun p => p.due == due && collides p.what w) then s.hazard t .writeCollide else s,
    by simp, ?_⟩
  simp [enqueue, produceLanded, hb, State.send]

theorem readOwn_of_clean (hc : EngineClean s t) {r : VecRun} (hown : r.own = []) (reg row view : Nat) :
    readOwn s t r reg row view = (s, regRow s t reg row view) := by
  rw [readOwn, hown, List.find?_nil, readVals_of_clean hc]

/-- The pairs of a row of keys and a row of indices. -/
def pairRow (s : State) (t keys indices row : Nat) : List SortPair :=
  (List.range 64).map fun c => ⟨regValue s t keys row 0 c, regValue s t indices row 1 c⟩

theorem pairsOf_regRow (keys indices row : Nat) :
    pairsOf (regRow s t keys row 0) (regRow s t indices row 1) = pairRow s t keys indices row := by
  rw [← regRow_eq_map, ← regRow_eq_map, pairsOf, show viewCount 0 = viewCount 1 from rfl, List.zip_map', List.map_map]
  rfl

/-- The pairs that VSORT or VMERGE orders. -/
def sortInput (s : State) (t vop : Nat) (v : VecSlot) : List SortPair :=
  pairRow s t v.va.toNat v.vb.toNat v.row.toNat
    ++ if vop = 0x3D then pairRow s t v.vc.toNat (vVe v) (vRow2 v) else []

/-- The key results and the index results of the first 64 pairs of an order. -/
def keyResult (v : VecSlot) (out : List SortPair) : Landed :=
  .treg v.vd.toNat v.row.toNat (rowLanes ((out.take 64).map fun p => ⟨p.key.bits, pairCause p⟩))

def indexResult (v : VecSlot) (out : List SortPair) : Landed :=
  .treg (vVf v) v.row.toNat (rowLanes ((out.take 64).map fun p => ⟨p.index.bits, pairCause p⟩))

theorem sortRow_of_clean (hc : EngineClean s t) {r : VecRun} (hrow : r.row = 0) (hown : r.own = [])
    (hvop : r.vop = 0x3C ∨ r.vop = 0x3D) (lat : Nat) :
    let out := sortPairs (sortInput s t r.vop r.slot)
    sortRow s t r lat = enqueue (enqueue s t (r.issue + lat) r.issue (keyResult r.slot out)) t (r.issue + lat) r.issue
      (indexResult r.slot out) := by
  rcases hvop with h | h <;>
    simp only [sortRow, readVals_of_clean hc, readOwn_of_clean hc hown, hrow, h, pairsOf_regRow, Nat.add_zero,
      Nat.reduceEqDiff, if_true, if_false, sortInput, List.append_nil, keyResult, indexResult]

theorem vecRowOf_sort {r : VecRun} (hvop : r.vop = 0x3C ∨ r.vop = 0x3D) :
    vecRowOf s t r = sortRow s t r (s.latency t (vecLatency r.vop 0)) := by
  rw [← vecLatency_axis (by omega) (by omega) (vAxis r.slot)]
  rcases hvop with h | h <;> simp [vecRowOf, h]

/-- Two results of one row of a clean engine. -/
theorem vecSends_two (hc : EngineClean s t) (hk : EngineKept t s s') {lat due : Nat} {w w' : Landed}
    (hdue : due = s.cycle t + lat) : vecSends s
      (issued s t vop v (enqueue (enqueue s' t due (s.cycle t) w) t due (s.cycle t) w')) t v lat [w, w'] := by
  have hb : ((s'.send t ⟨due, s.cycle t, w⟩).tile t).broken = false := by
    rw [State.send, State.tile_modVec_same]
    exact (hc.of_kept hk).broken
  obtain ⟨s1, hview, hsend⟩ := enqueue_eq_send hb due (s.cycle t) w'
  have hk1 : EngineKept t (s'.send t ⟨due, s.cycle t, w⟩) s1 := .of_view hview
  rw [enqueue_of_clean (hc.of_kept hk), hsend]
  refine vecSends_issued ?_ ?_ ?_ <;> rw [State.send, State.vec_modVec_same]
  · simp [hk1.pending, State.send, hk.pending, hc.pending, hdue]
  · exact hk1.treg.trans (by rw [State.send, State.vec_modVec_same]; exact hk.treg)
  · exact hk1.ocache.trans (by rw [State.send, State.vec_modVec_same]; exact hk.ocache)

/-- Two results for different places change nothing but the engine. -/
theorem onlyVec_two (hc : EngineClean s t) (hk : EngineKept t s s') (ho : onlyVec s s' t) (due issue : Nat)
    {w w' : Landed} (hfree : collides w w' = false) :
    onlyVec s (issued s t vop v (enqueue (enqueue s' t due issue w) t due issue w')) t := by
  have hc' := hc.of_kept hk
  have hb : ((s'.send t ⟨due, issue, w⟩).tile t).broken = false := by
    rw [State.send, State.tile_modVec_same]
    exact hc'.broken
  have hpending : ∀ p ∈ ((s'.send t ⟨due, issue, w⟩).vec t).pending, p.due = due → collides p.what w' = false := by
    intro p hp _
    rw [State.send, State.vec_modVec_same] at hp
    obtain rfl : p = ⟨due, issue, w⟩ := by simpa [hc'.pending] using hp
    exact hfree
  rw [enqueue_of_clean hc', enqueue_of_promise hb hpending]
  exact ho.trans ((onlyVec_send _).trans ((onlyVec_send _).trans onlyVec_issued))

theorem sort_issues {i : Instr} (hop : vecOp i = some (t, vop, v)) (hvop : vop = 0x3C ∨ vop = 0x3D)
    (h : vecIssues s t vop v) :
    let out := sortPairs (sortInput s t vop v)
    ∃ s', exec i s = .next s' ∧ (v.vd.toNat ≠ vVf v → onlyVec s s' t)
      ∧ vecSends s s' t v (s.latency t (vecLatency vop 0)) [keyResult v out, indexResult v out] := by
  have hc := engineClean_of_vecClean h.1
  have hk : EngineKept t s (s.withRun t (firstRow s t vop v)) := engineKept_withRun _
  have ho : onlyVec s (s.withRun t (firstRow s t vop v)) t := onlyVec_withRun _
  have hentry : takesEntry vop v = false := by
    rcases hvop with rfl | rfl <;> rfl
  have hinput : sortInput (s.withRun t (firstRow s t vop v)) t vop v = sortInput s t vop v := by
    have hval : ∀ reg row view c, regValue (s.withRun t (firstRow s t vop v)) t reg row view c
        = regValue s t reg row view c := fun reg row view c => congrArg (·.getD c elemReset) (hk.regRow _ _ _)
    simp only [sortInput, pairRow, hval]
  refine ⟨_, issueRow_of_issues hop h hentry, ?_⟩
  rw [vecRowOf_sort hvop, sortRow_of_clean (hc.of_kept hk) firstRow_row firstRow_own hvop]
  simp only [firstRow_vop, firstRow_slot, firstRow_issue, latency_withRun, hinput]
  refine ⟨fun hne => onlyVec_two hc hk ho _ _ ?_, vecSends_two hc hk rfl⟩
  simp [collides, keyResult, indexResult, hne]

end

/-! ### Results of an entry of the queue (R130) -/

section
variable {s s' : State} {t vop : Nat} {v : VecSlot}

/-- An issue writes no memory, and changes nothing of the other tiles. -/
theorem issued_frame {i : Instr} (hop : vecOp i = some (t, vop, v)) (h : vecIssues s t vop v) :
    let s' := issued s t vop v (vecRowOf (startState s t vop v) t (firstRow s t vop v))
    sameMemory s s' ∧ sameTilesBut s s' [t] := by
  obtain ⟨⟨hissuing, -, hrun, -⟩, hgood, hcount⟩ := id h
  have heq : Host.Outcome.next (vecIssue s t vop v) = .next _ :=
    (exec_vecOp_of_issuing hop hissuing).symm.trans (exec_of_issues hop h)
  rw [← Host.Outcome.next.inj heq]
  obtain ⟨hkept, -⟩ := vecStart_spec s t vop v (issueIndex s t vop v) hcount
  rw [checkOverlap_of_free hrun, ← vecIssue_of_wellFormed hgood] at hkept
  exact ⟨sameMemory_of_mems (mems_vecIssue ..), hkept.others⟩

/-- The engine once the oldest entry of the queue is taken. -/
theorem vec_startState_of_entry (hpop : takesEntry vop v = true) {e : QEntry} {rest : List QEntry}
    (hq : (s.vec t).queue = e :: rest) : (startState s t vop v).vec t
      = { s.vec t with queue := rest, run := some (firstRow s t vop v) } := by
  rw [startState, takeEntry, if_pos hpop, State.withRun, State.vec_modVec_same]
  simp only [popQueue, hq, State.vec_modVec_same]

theorem firstRow_popped_of_entry (hpop : takesEntry vop v = true) {e : QEntry} {rest : List QEntry}
    (hq : (s.vec t).queue = e :: rest) : (firstRow s t vop v).popped = some e := by
  simp [takeEntry, hpop, popQueue, hq]

theorem latency_startState (l : Latency) (hpop : takesEntry vop v = true) {e : QEntry} {rest : List QEntry}
    (hq : (s.vec t).queue = e :: rest) : (startState s t vop v).latency t l = s.latency t l := by
  simp [startState, takeEntry, hpop, popQueue, hq]

theorem engineClean_startState (hc : EngineClean s t) (hpop : takesEntry vop v = true) {e : QEntry} {rest : List QEntry}
    (hq : (s.vec t).queue = e :: rest) : EngineClean (startState s t vop v) t := by
  have hvec := vec_startState_of_entry hpop hq
  refine ⟨?_, ?_, ?_, ?_⟩
  · rw [startState, takeEntry, if_pos hpop, State.withRun, State.tile_modVec_same]
    simp only [popQueue, hq, State.tile_modVec_same]
    exact hc.broken
  all_goals rw [hvec]
  · exact hc.pending
  · exact hc.tregErr
  · exact hc.ocacheErr

/-- A row that sends one result, of an instruction that took an entry of the queue. -/
theorem vecSends_popped (hc : EngineClean s t) (hpop : takesEntry vop v = true) {e : QEntry} {rest : List QEntry}
    (hq : (s.vec t).queue = e :: rest) (hk : EngineKept t (startState s t vop v) s') {lat due : Nat} {w : Landed}
    (hdue : due = s.cycle t + lat) :
    let s2 := issued s t vop v (enqueue s' t due (s.cycle t) w)
    (s2.vec t).queue = rest ∧ vecSends s s2 t v lat [w] := by
  have hc' := engineClean_startState (vop := vop) (v := v) hc hpop hq
  have hvec := vec_startState_of_entry (vop := vop) (v := v) hpop hq
  rw [enqueue_of_clean (hc'.of_kept hk)]
  refine ⟨?_, vecSends_issued ?_ ?_ ?_⟩
  · rw [issued, endRow, State.vec_modVec_same, State.send, State.vec_modVec_same]
    exact hk.queue.trans (by rw [hvec])
  all_goals rw [State.send, State.vec_modVec_same]
  · simp [hk.pending, hc'.pending, hdue]
  · exact hk.treg.trans (by rw [hvec])
  · exact hk.ocache.trans (by rw [hvec])

/-! ### VQPOP -/

theorem vecRowOf_pop {r : VecRun} (hvop : r.vop = 0x40 ∨ r.vop = 0x42) :
    vecRowOf s t r = popRow s t r (s.latency t (vecLatency r.vop 0)) := by
  rw [← vecLatency_axis (by omega) (by omega) (vAxis r.slot)]
  rcases hvop with h | h <;> simp [vecRowOf, h]

/-- An instruction that takes an entry of an empty queue has broken a promise. -/
theorem broken_issued_of_empty (hpop : takesEntry vop v = true) (hq : (s.vec t).queue = []) :
    ((issued s t vop v (vecRowOf (startState s t vop v) t (firstRow s t vop v))).tile t).broken = true := by
  have hstart : ((startState s t vop v).tile t).broken = true := by
    rw [startState, takeEntry, if_pos hpop, State.withRun, State.tile_modVec_same]
    simp only [popQueue, hq]
    exact broken_breakPromise ..
  rw [issued, endRow, State.tile_modVec_same]
  exact (vecRowOf_kept _ t _).broken hstart

theorem popRow_of_narrow {r : VecRun} (hvop : r.vop = 0x40) (hrow : r.row = 0) {es : List Elem}
    (hpopped : r.popped = some (.narrow es)) (lat : Nat) : popRow s t r lat = enqueue s t (r.issue + lat) r.issue
      (.treg r.slot.vd.toNat r.slot.row.toNat (rowLanes (es.take 64))) := by
  simp [popRow, hvop, hrow, hpopped]

theorem vqpop_issues (h : vecIssues s t 0x40 v) :
    ∃ s', exec (.vqpop t v) s = .next s' ∧ sameMemory s s' ∧ sameTilesBut s s' [t]
      ∧ ((s.vec t).queue = [] → (s'.tile t).broken = true)
      ∧ ∀ es rest, (s.vec t).queue = .narrow es :: rest → (s'.vec t).queue = rest
          ∧ vecSends s s' t v 2 [.treg v.vd.toNat v.row.toNat (rowLanes (es.take 64))] := by
  have hc := engineClean_of_vecClean h.1
  obtain ⟨hmem, hothers⟩ := issued_frame (i := .vqpop t v) rfl h
  refine ⟨_, exec_of_issues rfl h, hmem, hothers, broken_issued_of_empty rfl, fun es rest hq => ?_⟩
  rw [vecRowOf_pop (.inl rfl), popRow_of_narrow rfl firstRow_row (firstRow_popped_of_entry rfl hq), firstRow_slot,
    firstRow_issue, latency_startState _ rfl hq]
  exact vecSends_popped hc rfl hq (.refl t _) (congrArg _ (latency_of_same ..))

end

/-! ### Wide areas (R128) -/

section
variable {s s' : State} {t vop : Nat} {v : VecSlot}

/-- The words of `n` rows of the cache from `row`. -/
def cacheArea (s : State) (t row n : Nat) : List Elem :=
  (List.range (64 * n)).map fun j => ocWord (s.vec t) (64 * ((row + j / 64) % 256) + j % 64)

theorem cacheArea_succ (row n : Nat) : cacheArea s t row (n + 1) = cacheArea s t row n
    ++ (List.range 64).map fun c => ocWord (s.vec t) (64 * ((row + n) % 256) + c) := by
  rw [cacheArea, Nat.mul_succ, List.range_add, List.map_append, List.map_map]
  refine congrArg _ (List.map_congr_left fun c hc => ?_)
  have hc : c < 64 := List.mem_range.1 hc
  have hdiv : (64 * n + c) / 64 = n := by omega
  have hmod : (64 * n + c) % 64 = c := by omega
  simp only [Function.comp_apply, hdiv, hmod]

theorem readCacheRows_of_clean (hc : EngineClean s t) (row n : Nat) :
    readCacheRows s t row n = (s, cacheArea s t row n) := by
  induction n with
  | zero => rfl
  | succ n ih =>
    rw [readCacheRows] at ih
    rw [readCacheRows, List.range_succ, List.foldl_append, ih, cacheArea_succ]
    simp only [List.foldl_cons, List.foldl_nil, readHazard_of_clean hc, readOcache_of_clean hc]

/-- The wide words of an area, of which each row of the cache holds 16. -/
theorem wideOfRow_cacheArea (row n : Nat) :
    wideOfRow (cacheArea s t row n) = (List.range (16 * n)).map (areaWord s t row) := by
  have hlen : (cacheArea s t row n).length = 64 * n := by simp [cacheArea]
  have hcount : 64 * n / 4 = 16 * n := by omega
  rw [wideOfRow, hlen, hcount]
  refine List.map_congr_left fun k hk => ?_
  have hk : k < 16 * n := List.mem_range.1 hk
  have hwords : ((cacheArea s t row n).drop (4 * k)).take 4
      = (List.range 4).map fun q => ocWord (s.vec t) (64 * ((row + k / 16) % 256) + 4 * (k % 16) + q) := by
    refine List.ext_getElem (by simp [hlen]; omega) fun q hq _ => ?_
    have hq : q < 4 := by
      rw [List.length_take] at hq
      omega
    have hdiv : (4 * k + q) / 64 = k / 16 := by omega
    have hmod : (4 * k + q) % 64 = 4 * (k % 16) + q := by omega
    simp [cacheArea, hdiv, hmod, Nat.add_assoc]
  rw [hwords, areaWord]

/-- A fold that puts one value for each item to the end of a list. -/
theorem foldl_snd_append {α β γ : Type} {f : α × List γ → β → α × List γ} {g : β → γ}
    (hf : ∀ x b, (f x b).2 = x.2 ++ [g b]) (l : List β) (x : α × List γ) : (l.foldl f x).2 = x.2 ++ l.map g := by
  induction l generalizing x with
  | nil => simp
  | cons b l ih => simp [ih, hf]

/-! ### VWCVT (R77) -/

/-- A wide word converted without draws. -/
def wideValue (rnd : Rnd) (w : Wide) : Elem := ⟨BitVec.ofNat 32 (wideToElem .fp32 rnd 0 w), (drainCheck w).1.cause⟩

theorem wideElems_of_no_draws (s : State) (t : Nat) (rnd : Rnd) (ws : List Wide) :
    (wideElems s t rnd [] ws).2 = ws.map (wideValue rnd) := by
  rw [wideElems, foldl_snd_append (g := fun p => wideValue rnd p.1) fun _ _ => rfl, List.nil_append]
  exact (List.map_map (f := Prod.fst) (g := wideValue rnd)).symm.trans (by rw [List.map_fst_zip (by simp)])

theorem popRow_of_area (hc : EngineClean s t) {r : VecRun} (hvop : r.vop = 0x42) (hrow : r.row = 0)
    (hrnd : vRnd r.slot ≠ .sr) (lat : Nat) : ∃ s1, engineView t s1 = engineView t s
      ∧ popRow s t r lat = enqueue s1 t (r.issue + lat) r.issue (.treg r.slot.vd.toNat r.slot.row.toNat
        (rowLanes ((List.range 64).map fun n => wideValue (vRnd r.slot) (areaWord s t r.slot.orow.toNat n)))) := by
  refine ⟨(wideElems s t (vRnd r.slot) [] ((List.range 64).map (areaWord s t r.slot.orow.toNat))).1, by simp, ?_⟩
  simp only [popRow, hvop, hrow, if_true, readCacheRows_of_clean hc, vecDraws_of_not_sr hrnd, wideOfRow_cacheArea,
    wideElems_of_no_draws, Nat.mul_zero, Nat.add_zero, Nat.reduceMul, List.map_map, Function.comp_def]

theorem areaWord_of_kept (h : EngineKept t s s') (row n : Nat) : areaWord s' t row n = areaWord s t row n := by
  simp only [areaWord, h.ocWord]

theorem vwcvt_issues (h : vecIssues s t 0x42 v) (hrnd : vRnd v ≠ .sr) :
    ∃ s', exec (.vwcvt t v) s = .next s' ∧ sameMemory s s' ∧ sameTilesBut s s' [t]
      ∧ vecSends s s' t v (s.latency t (vecLatency 0x42 0)) [.treg v.vd.toNat v.row.toNat
        (rowLanes ((List.range 64).map fun n => wideValue (vRnd v) (areaWord s t v.orow.toNat n)))] := by
  have hc := engineClean_of_vecClean h.1
  have hk : EngineKept t s (s.withRun t (firstRow s t 0x42 v)) := engineKept_withRun _
  obtain ⟨hmem, hothers⟩ := issued_frame (i := .vwcvt t v) rfl h
  refine ⟨_, exec_of_issues rfl h, hmem, hothers, ?_⟩
  obtain ⟨s1, hview, hrow⟩ := popRow_of_area (hc.of_kept hk) (r := firstRow s t 0x42 v) rfl rfl hrnd
    (s.latency t (vecLatency 0x42 0))
  rw [startState_of_no_entry rfl, vecRowOf_pop (.inr rfl), latency_withRun, firstRow_vop, hrow, firstRow_issue]
  simp only [areaWord_of_kept hk]
  exact vecSends_enqueue hc (hk.trans (.of_view hview)) rfl

/-! ### VWADD (R79) -/

/-- What VWADD of an entry of the queue makes of the area at OROW. -/
def addedArea (s : State) (t : Nat) (v : VecSlot) (ws : List Wide) : List Wide :=
  if vmode v 52 1 = 1 then ws
  else (((List.range 128).map (areaWord s t v.orow.toNat)).zip ws).map fun p => (wideAdd p.1 p.2).1

/-- The sums of pairs of wide words, each with the causes that it newly sets. -/
def addWords (s : State) (t : Nat) (ps : List (Wide × Wide)) : State × List Wide :=
  ps.foldl (fun acc p => ((wideAdd p.1 p.2).2.foldl (fun s c => raiseVec s t c) acc.1, acc.2 ++ [(wideAdd p.1 p.2).1]))
    (s, [])

theorem engineView_addWords (s : State) (ps : List (Wide × Wide)) :
    engineView t (addWords s t ps).1 = engineView t s :=
  foldl_keeps (fun x : State × List Wide => engineView t x.1)
    (fun x _ _ => foldl_keeps (engineView t) (fun s c _ => engineView_raiseVec s t c) x.1) (s, [])

theorem addWords_snd (s : State) (ps : List (Wide × Wide)) :
    (addWords s t ps).2 = ps.map fun p => (wideAdd p.1 p.2).1 := foldl_snd_append (fun _ _ => rfl) ps (s, [])

theorem wideAddRow_of_entry (hc : EngineClean s t) {r : VecRun} (hrow : r.row = 0) (hsrc : vmode r.slot 53 1 = 0)
    {ws : List Wide} (hpopped : r.popped = some (.wide ws)) (lat : Nat) : ∃ s1, engineView t s1 = engineView t s
      ∧ wideAddRow s t r lat = enqueue s1 t (r.issue + lat) r.issue
        (.ocache r.slot.orow.toNat (wideLanes (addedArea s t r.slot ws))) := by
  have hsrc' : vmode r.slot 53 1 ≠ 1 := by omega
  unfold wideAddRow addedArea
  dsimp only
  rw [if_neg (by simp [hrow]), if_neg hsrc', hpopped]
  by_cases hclear : vmode r.slot 52 1 = 1
  · exact ⟨s, rfl, by simp [hclear]⟩
  · refine ⟨_, engineView_addWords s (((List.range 128).map (areaWord s t r.slot.orow.toNat)).zip ws), ?_⟩
    simp only [hclear, if_false, readCacheRows_of_clean hc, wideOfRow_cacheArea, ← addWords_snd s (t := t)]
    rfl

theorem vecRowOf_wideAdd {r : VecRun} (h : r.vop = 0x41) :
    vecRowOf s t r = wideAddRow s t r (s.latency t (vecLatency 0x41 0)) := by
  rw [← vecLatency_axis (by decide) (by decide) (vAxis r.slot)]
  simp [vecRowOf, h]

theorem addedArea_startState (hpop : takesEntry vop v = true) {e : QEntry} {rest : List QEntry}
    (hq : (s.vec t).queue = e :: rest) (ws : List Wide) :
    addedArea (startState s t vop v) t v ws = addedArea s t v ws := by
  have hword : ∀ k, ocWord ((startState s t vop v).vec t) k = ocWord (s.vec t) k := by
    intro k
    rw [vec_startState_of_entry hpop hq]
    rfl
  have harea : areaWord (startState s t vop v) t v.orow.toNat = areaWord s t v.orow.toNat := by
    funext n
    simp only [areaWord, hword]
  rw [addedArea, harea, addedArea]

theorem vwadd_issues (h : vecIssues s t 0x41 v) (hsrc : vmode v 53 1 = 0) {ws : List Wide} {rest : List QEntry}
    (hq : (s.vec t).queue = .wide ws :: rest) : ∃ s', exec (.vwadd t v) s = .next s' ∧ (s'.vec t).queue = rest
      ∧ vecSends s s' t v 5 [.ocache v.orow.toNat (wideLanes (addedArea s t v ws))] := by
  have hc := engineClean_of_vecClean h.1
  have hpop : takesEntry 0x41 v = true := by simp [takesEntry, hsrc]
  obtain ⟨s1, hview, hrow⟩ := wideAddRow_of_entry (engineClean_startState hc hpop hq) (r := firstRow s t 0x41 v)
    firstRow_row hsrc (firstRow_popped_of_entry hpop hq) (s.latency t (vecLatency 0x41 0))
  refine ⟨_, exec_of_issues rfl h, ?_⟩
  rw [vecRowOf_wideAdd firstRow_vop, latency_startState _ hpop hq, hrow, firstRow_issue, firstRow_slot,
    addedArea_startState hpop hq]
  exact vecSends_popped hc hpop hq (.of_view hview) (congrArg _ (latency_of_same ..))

theorem length_addedArea {ws : List Wide} (hlen : ws.length = 128) : (addedArea s t v ws).length = 128 := by
  unfold addedArea
  split
  · exact hlen
  · simp [hlen]

theorem getD_addedArea {ws : List Wide} (hlen : ws.length = 128) {n : Nat} (hn : n < 128) :
    (addedArea s t v ws).getD n accReset = if vmode v 52 1 = 1 then ws.getD n accReset
      else (wideAdd (areaWord s t v.orow.toNat n) (ws.getD n accReset)).1 := by
  unfold addedArea
  split
  · rfl
  · simp [hlen, hn]

end

/-! ### The statement -/

/-- Settles O23: a stable insertion sort of pairs with their places, and rows of a state from which the queue's oldest
entry is taken. -/
theorem sortsQueuesAndAreas : Obligations.SortsQueuesAndAreas := by
  refine ⟨fun i s t vop v hop hvop h => ?_, fun s t v h => vqpop_issues h, fun s t v ws rest h hsrc hq hlen => ?_,
    fun s t v h hrnd => ?_⟩
  · obtain ⟨s', hexec, honly, hsends⟩ := sort_issues hop hvop h
    refine ⟨s', placedSort (placed (sortInput s t vop v)), hexec, honly, ?_, perm_placedSort _,
      pairwise_placedSort (pairwise_placed _)⟩
    have hout : sortPairs (sortInput s t vop v) = (placedSort (placed (sortInput s t vop v))).map Prod.snd := by
      rw [map_placedSort, map_placed]
    rw [hout] at hsends
    simpa only [keyResult, indexResult, ← List.map_take, List.map_map, Function.comp_def] using hsends
  · obtain ⟨s', hexec, hrest, hsends⟩ := vwadd_issues h hsrc hq
    exact ⟨s', _, hexec, hrest, hsends, length_addedArea hlen, fun n => getD_addedArea hlen⟩
  · obtain ⟨s', hexec, hmem, hothers, hsends⟩ := vwcvt_issues h hrnd
    exact ⟨s', _, hexec, hmem, hothers, hsends, by simp, fun c hcol => getD_map_range _ _ hcol⟩

end Sys2Proof.Machine

/-! PROOFS. O24, the memory instructions: FP32 words through their format, bytes through words, and the rows of VLD, VST,
VOCLD and VOCST on a clean engine. -/

namespace Sys2Proof.Machine

/-! ### FP32 words (R90) -/

theorem log2_of_normal {m : Nat} (h : m < 2 ^ 23) : (2 ^ 23 + m).log2 = 23 :=
  (Nat.log2_eq_iff (by omega)).2 ⟨by omega, by omega⟩

/-- The value of an FP32 word by its fields. -/
theorem floatVal_fp32 (x : Nat) : floatVal fp32F x =
    if x / 2 ^ 23 % 256 = 255 then if x % 2 ^ 23 = 0 then .inf (x / 2 ^ 31 % 2 == 1) else .nan
    else if x / 2 ^ 23 % 256 = 0 then .fin (x / 2 ^ 31 % 2 == 1) (x % 2 ^ 23) (-149)
    else .fin (x / 2 ^ 31 % 2 == 1) (2 ^ 23 + x % 2 ^ 23) ((x / 2 ^ 23 % 256 : Nat) - 150) := by
  have hexp : (-149 + ((x / 2 ^ 23 % 256 : Nat) : Int) - 1) = (x / 2 ^ 23 % 256 : Nat) - 150 := by omega
  rw [← hexp]
  simp only [floatVal, fp32F, Nat.reducePow, Nat.add_one_sub_one, BEq.rfl, Bool.and_true, Nat.reduceAdd,
    Bool.and_eq_true, beq_iff_eq, reduceCtorEq, and_false, if_false, Nat.cast_ofNat, Int.reduceSub, Int.reduceNeg,
    Int.natCast_emod, Int.natCast_ediv]
  exact if_congr decide_eq_true_iff rfl rfl

/-- A value whose significand is a multiple of its last place takes the code of that significand. -/
theorem floatBits_fin {rnd : Rnd} {r m : Nat} {n : Bool} {q : Int} (hm : m ≠ 0)
    (hq : max (q + m.log2 - 23) (-149) = q) (hlt : m < 2 ^ 24) (hhi : q ≤ 104) :
    floatBits fp32F rnd r (.fin n m q)
      = (if n then 2 ^ 31 else 0) + if m < 2 ^ 23 then m else (q + 149).toNat * 2 ^ 23 + m := by
  have hround : roundAt rnd n r m q q = (m, false) := by simp [roundAt]
  have hmax : ¬ maxCode fp32F < if m < 2 ^ 23 then m else (q + 149).toNat * 2 ^ 23 + m := by
    have hmaxCode : maxCode fp32F = 2139095039 := by decide
    rw [hmaxCode]
    split <;> omega
  have hbits : floatBits fp32F rnd r (.fin n m q) = let p := roundAt rnd n r m q (max (q + m.log2 - 23) (-149))
      let code := if p.1 < 2 ^ 23 then p.1 else (max (q + m.log2 - 23) (-149) + 149).toNat * 2 ^ 23 + p.1
      if maxCode fp32F < code then
        if overflowsToInf fp32F rnd n p.2 then (if n then 2 ^ 31 else 0) + 255 * 2 ^ 23
        else (if n then 2 ^ 31 else 0) + maxCode fp32F
      else (if n then 2 ^ 31 else 0) + code := by
    unfold floatBits
    dsimp only
    rw [if_neg hm]
    rfl
  rw [hbits, hq, hround]
  exact if_neg hmax

/-- A word of FP32 that is no NaN is what its value rounds to, in every mode. -/
theorem floatBits_floatVal {x : Nat} (hx : x < 2 ^ 32) (hnan : floatVal fp32F x ≠ .nan) (rnd : Rnd) (r : Nat) :
    floatBits fp32F rnd r (floatVal fp32F x) = x := by
  rw [floatVal_fp32] at hnan ⊢
  have hsign : (if (x / 2 ^ 31 % 2 == 1) = true then 2 ^ 31 else 0) = x / 2 ^ 31 * 2 ^ 31 := by
    by_cases h : x / 2 ^ 31 % 2 = 1
    · rw [if_pos (beq_iff_eq.2 h)]
      omega
    · rw [if_neg fun hb => h (beq_iff_eq.1 hb)]
      omega
  have hm : x % 2 ^ 23 < 2 ^ 23 := Nat.mod_lt _ (by decide)
  split
  next he =>
    rw [if_pos he] at hnan
    split
    next h0 =>
      have hinf : floatBits fp32F rnd r (.inf (x / 2 ^ 31 % 2 == 1))
          = (if (x / 2 ^ 31 % 2 == 1) = true then 2 ^ 31 else 0) + 255 * 2 ^ 23 := rfl
      rw [hinf, hsign]
      omega
    next h0 => exact absurd (if_neg h0) hnan
  next he =>
    split
    next h0 =>
      by_cases hz : x % 2 ^ 23 = 0
      · have hzero : floatBits fp32F rnd r (.fin (x / 2 ^ 31 % 2 == 1) 0 (-149))
            = if (x / 2 ^ 31 % 2 == 1) = true then 2 ^ 31 else 0 := rfl
        rw [hz, hzero, hsign]
        omega
      · have hlog : (x % 2 ^ 23).log2 < 23 := (Nat.log2_lt hz).2 hm
        rw [floatBits_fin hz (by omega) (by omega) (by decide), hsign, if_pos hm]
        omega
    next h0 =>
      rw [floatBits_fin (by omega) (by rw [log2_of_normal hm]; omega) (by omega) (by omega), hsign, if_neg (by omega)]
      omega

/-! ### Words and their bytes (R10) -/

theorem leNat_lt (bs : List (BitVec 8)) : leNat bs < 256 ^ bs.length := by
  induction bs with
  | nil => simp [leNat]
  | cons b bs ih =>
    rw [leNat, List.length_cons, Nat.pow_succ']
    have hb := b.isLt
    omega

theorem leNat_leBytes (n x : Nat) : leNat (leBytes n x) = x % 256 ^ n := by
  induction n generalizing x with
  | zero => simp [leBytes, leNat, Nat.mod_one]
  | succ n ih =>
    rw [leBytes, leNat, ih, BitVec.toNat_ofNat, Nat.pow_succ' (m := 256)]
    exact (Nat.mod_mul (x := x) (a := 256) (b := 256 ^ n)).symm

theorem length_leBytes (n x : Nat) : (leBytes n x).length = n := by
  induction n generalizing x with
  | zero => rfl
  | succ n ih => rw [leBytes, List.length_cons, ih]

/-- A stretch of a sequence given by its places. -/
theorem take_drop_map_range {α : Type} (f : Nat → α) {n k m : Nat} (h : k + m ≤ n) :
    (((List.range n).map f).drop k).take m = (List.range m).map fun b => f (k + b) := by
  refine List.ext_getElem (by simp; omega) fun i hi _ => ?_
  simp

/-- The pieces of a sequence cut into pieces of one length. -/
theorem take_drop_flatMap {α β : Type} (g : α → List β) {n : Nat} (hg : ∀ a, (g a).length = n) (d : α) {l : List α}
    {c : Nat} (hc : c < l.length) : ((l.flatMap g).drop (n * c)).take n = g (l.getD c d) := by
  induction l generalizing c with
  | nil => simp at hc
  | cons a l ih =>
    cases c with
    | zero => simp [← hg a]
    | succ c =>
      have hdrop : n * (c + 1) = (g a).length + n * c := by rw [hg, Nat.mul_succ, Nat.add_comm]
      rw [List.flatMap_cons, hdrop, List.drop_length_add_append, ih (by simpa using hc), List.getD_cons_succ]

theorem causeJoinAll_replicate_none (n : Nat) : causeJoinAll (List.replicate n .none) = .none :=
  causeJoinAll_of_none fun _ h => List.eq_of_mem_replicate h

/-! ### The lines that a row reads (R132, R232) -/

/-- What a read of a slice by tile `t` looks at: the bytes, the marks and the errors of the slices, and the ports that the
tile has taken. -/
structure SliceView where
  spad : List Host.Cell
  marks : SMap Cause
  errs : SMap EccErr
  ports : SMap Nat

def sliceView (t : Nat) (s : State) : SliceView := ⟨s.spad, s.spadMark, s.spadErr, (s.tile t).portUse⟩

section
variable (s : State) (t : Nat)

@[simp] theorem sliceView_setReg (o : Nat) (w : BitVec 32) : sliceView t (s.setReg o w) = sliceView t s := rfl

@[simp] theorem sliceView_incReg (o : Nat) : sliceView t (s.incReg o) = sliceView t s := rfl

theorem sliceView_raise (e : GEvent) : sliceView t (s.raise e) = sliceView t s :=
  (congrArg (sliceView t) (raise_frame s e) :)

@[simp] theorem sliceView_raiseTile (u : Nat) (k : EvKind) (detail : Nat) :
    sliceView t (s.raiseTile u k detail) = sliceView t s := sliceView_raise ..

@[simp] theorem sliceView_modTile {f : Tile → Tile} (hf : ∀ x, (f x).portUse = x.portUse) :
    sliceView t (s.modTile t f) = sliceView t s := by
  rw [sliceView, State.tile_modTile_same, hf]
  rfl

@[simp] theorem sliceView_ite (c : Prop) [Decidable c] (x y : State) :
    sliceView t (if c then x else y) = if c then sliceView t x else sliceView t y := apply_ite ..

@[simp] theorem sliceView_hazard (h : Hazard) : sliceView t (s.hazard t h) = sliceView t s := by
  simp [State.hazard, hazardReport, State.setReg64]

@[simp] theorem sliceView_spadHazard (off len : Nat) : sliceView t (spadHazard s t off len) = sliceView t s := by
  simp [spadHazard]

@[simp] theorem sliceView_withRun (r : VecRun) : sliceView t (s.withRun t r) = sliceView t s :=
  sliceView_modTile s t fun _ => rfl

end

/-- Tile `t`'s engine, and the bytes, marks and errors of the slices, are the same. -/
structure SliceKept (t : Nat) (s s' : State) : Prop where
  engine : EngineKept t s s'
  spad : s'.spad = s.spad
  marks : s'.spadMark = s.spadMark
  errs : s'.spadErr = s.spadErr

section
variable {s s' s'' : State} {t : Nat}

theorem SliceKept.trans (h : SliceKept t s s') (h' : SliceKept t s' s'') : SliceKept t s s'' :=
  ⟨h.engine.trans h'.engine, h'.spad.trans h.spad, h'.marks.trans h.marks, h'.errs.trans h.errs⟩

theorem SliceKept.of_view (he : EngineKept t s s') (h : sliceView t s' = sliceView t s) : SliceKept t s s' :=
  ⟨he, congrArg SliceView.spad h, congrArg SliceView.marks h, congrArg SliceView.errs h⟩

/-- A bank whose port is free in the cycle is taken without a broken promise (R233). -/
theorem takePort_of_free {cyc bank : Nat} (h : mapGet 0 (s.tile t).portUse (32 * cyc + bank) = 0) :
    s.takePort t cyc bank false
      = s.modTile t fun x => { x with portUse := mapSet 0 x.portUse (32 * cyc + bank) 1 } := by
  simp [State.takePort, h]

/-- Banks of which every port is free in the cycle. -/
theorem takeBanks_kept {cyc : Nat} {banks : List Nat} (hnd : banks.Nodup)
    (hfree : ∀ b ∈ banks, mapGet 0 (s.tile t).portUse (32 * cyc + b) = 0) :
    SliceKept t s (banks.foldl (fun s b => s.takePort t cyc b false) s) := by
  induction banks generalizing s with
  | nil => exact ⟨.refl t s, rfl, rfl, rfl⟩
  | cons b banks ih =>
    obtain ⟨hb, hnd⟩ := List.nodup_cons.1 hnd
    rw [List.foldl_cons, takePort_of_free (hfree b List.mem_cons_self)]
    have htaken : SliceKept t s (s.modTile t fun x => { x with portUse := mapSet 0 x.portUse (32 * cyc + b) 1 }) :=
      ⟨.of_view (by simp), rfl, rfl, rfl⟩
    refine htaken.trans (ih hnd fun c hc => ?_)
    have hne : 32 * cyc + c ≠ 32 * cyc + b := fun e => hb (by rwa [Nat.add_left_cancel e] at hc)
    rw [State.tile_modTile_same, mapGet_mapSet_ne _ _ _ hne]
    exact hfree c (List.mem_cons_of_mem _ hc)

/-- The read of a row of four lines takes the ports of four banks. -/
theorem rowPorts_kept (hports : (s.tile t).portUse = []) (cyc : Nat) {off : Nat} (hoff : 64 ∣ off) :
    SliceKept t s ((spadHazard s t off 256).takePorts t cyc off 256) := by
  have hview := sliceView_spadHazard s t off 256
  have hlines : (off + 256 - 1) / 64 - off / 64 + 1 = 4 := by omega
  have hports' : ((spadHazard s t off 256).tile t).portUse = [] := (congrArg SliceView.ports hview).trans hports
  refine (SliceKept.of_view (.of_view (engineView_spadHazard ..)) hview).trans ?_
  rw [State.takePorts, if_neg (by decide)]
  dsimp only
  rw [hlines]
  have hfold := takeBanks_kept (s := spadHazard s t off 256) (t := t) (cyc := cyc)
    (banks := (List.range 4).map fun i => (off / 64 + i) % 16) ?_ fun b _ => by rw [hports']; rfl
  · rwa [List.foldl_map] at hfold
  · refine List.Nodup.map_on (fun i hi j hj h => ?_) List.nodup_range
    rw [List.mem_range] at hi hj
    omega

end

/-! ### Reads of clean lines (R235, R236) -/

section
variable {s s' : State} {t off : Nat}

/-- The 256 bytes at an offset of a slice carry no mark and no error. -/
def cleanLines (s : State) (t off : Nat) : Prop :=
  ∀ b, b < 256 → mapGet Cause.none s.spadMark (spadOff t (off + b) / 64) = .none
    ∧ mapFind s.spadErr (spadOff t (off + b) / 8) = none

theorem spadOff_mod (t off i : Nat) : spadOff t (off % sliceBytes + i) = spadOff t (off + i) := by
  simp only [spadOff, Nat.mod_add_mod]

theorem spadWordErr_of_clean {word : Nat} (h : mapFind s.spadErr (t * (sliceBytes / 8) + word) = none) :
    spadWordErr s t word = (s, .none, false) := by
  rw [spadWordErr, h]

/-- A read of clean lines returns their bytes without a cause, and changes nothing. -/
theorem spadRead_of_clean (hoff : off % 8 = 0) (h : cleanLines s t off) : s.spadRead t off 256
    = (s, ⟨(List.range 256).map fun i => memGet s.spad (spadOff t (off + i)), List.replicate 256 .none, false⟩) := by
  have hwords : ∀ i, i < 32 → spadWordErr s t ((off % sliceBytes / 8 + i) % (sliceBytes / 8)) = (s, .none, false) := by
    intro i hi
    have hword : t * (sliceBytes / 8) + (off % sliceBytes / 8 + i) % (sliceBytes / 8) = spadOff t (off + 8 * i) / 8 := by
      simp only [spadOff, sliceBytes]
      omega
    exact spadWordErr_of_clean (hword ▸ (h (8 * i) (by omega)).2)
  have hmarks : ∀ i, i < 256 → mapGet Cause.none s.spadMark
      (t * (sliceBytes / 64) + (off % sliceBytes + i) % sliceBytes / 64) = .none := by
    intro i hi
    have hline : t * (sliceBytes / 64) + (off % sliceBytes + i) % sliceBytes / 64 = spadOff t (off + i) / 64 := by
      simp only [spadOff, sliceBytes]
      omega
    exact hline ▸ (h i hi).1
  have hcount : (off % sliceBytes + 256 - 1) / 8 - off % sliceBytes / 8 + 1 = 32 := by
    simp only [sliceBytes]
    omega
  unfold State.spadRead
  dsimp only
  rw [if_neg (by decide), hcount, foldl_of_fixed fun w hw => ?_]
  · dsimp only
    rw [List.map_congr_left (l := List.range 256) fun i _ => congrArg (memGet s.spad) (spadOff_mod t off i),
      List.map_congr_left (l := List.range 256) (g := fun _ => Cause.none) fun i hi => ?_, List.map_const',
      List.length_range]
    rw [hmarks i (List.mem_range.1 hi)]
    rfl
  · obtain ⟨i, hi, rfl⟩ := List.mem_map.1 hw
    dsimp only
    rw [hwords i (List.mem_range.1 hi)]
    rfl

theorem cleanLines_of_kept (hk : SliceKept t s s') (h : cleanLines s t off) : cleanLines s' t off := by
  rwa [cleanLines, hk.marks, hk.errs]

end

/-! ### Rows of the memory instructions (R128, R135) -/

section
variable {s : State} {t off : Nat} {v : VecSlot}

/-- Word `c` of the 256 bytes at an offset of a slice. -/
def wordAt (s : State) (t off c : Nat) : Nat :=
  leNat ((List.range 4).map fun b => memGet s.spad (spadOff t (off + 4 * c + b)))

theorem wordAt_lt (s : State) (t off c : Nat) : wordAt s t off c < 2 ^ 32 := by
  have h := leNat_lt ((List.range 4).map fun b => memGet s.spad (spadOff t (off + 4 * c + b)))
  rwa [List.length_map, List.length_range] at h

/-- The words of 256 bytes. -/
theorem leNat_row (s : State) (t off : Nat) {c : Nat} (hc : c < 64) :
    leNat ((((List.range 256).map fun i => memGet s.spad (spadOff t (off + i))).drop (4 * c)).take 4)
      = wordAt s t off c := by
  rw [take_drop_map_range _ (by omega), wordAt]
  simp only [Nat.add_assoc]

/-- The elements of an FP32 row, none of its bytes poisoned. -/
theorem unpackRow_fp32 (s : State) (t off : Nat) : unpackRow .fp32 64
    ((List.range 256).map fun i => memGet s.spad (spadOff t (off + i))) (List.replicate 256 .none)
    = (List.range 64).map fun c => (wordAt s t off c, 127, Cause.none) := by
  refine List.map_congr_left fun c hc => ?_
  have hc : c < 64 := List.mem_range.1 hc
  have hoff : c * fmtBits .fp32 / 8 = 4 * c := by
    rw [show fmtBits .fp32 = 32 from rfl]
    omega
  have hlen : max 1 (fmtBits .fp32 / 8) = 4 := rfl
  have hcauses : causeJoinAll (((List.replicate 256 Cause.none).drop (4 * c)).take 4) = .none := by
    rw [List.drop_replicate, List.take_replicate]
    exact causeJoinAll_replicate_none _
  simp only [hoff, hlen, hcauses, leNat_row s t off hc]
  rfl

/-- A word as VLD of FP32 writes it. -/
def loadedElem (rnd : Rnd) (w : Nat) : Elem := ⟨BitVec.ofNat 32 (floatBits fp32F rnd 0 (floatVal fp32F w)), .none⟩

theorem loadedElem_eq {w : Nat} (hw : w < 2 ^ 32) (hnan : floatVal fp32F w ≠ .nan) (rnd : Rnd) :
    loadedElem rnd w = ⟨BitVec.ofNat 32 w, .none⟩ := by
  rw [loadedElem, floatBits_floatVal hw hnan]

theorem loadRow_of_clean (hports : (s.tile t).portUse = []) {r : VecRun} (hrow : r.row = 0) (hview : r.slot.view = 0)
    (hfmt : vFmt r.slot = 7) (hrnd : vRnd r.slot ≠ .sr) (haddr : 64 ∣ vecAddr r)
    (hlines : cleanLines s t (vecAddr r)) (lat : Nat) : ∃ s1, SliceKept t s s1
      ∧ loadRow s t r lat = enqueue s1 t (r.issue + lat) r.issue (.treg r.slot.vd.toNat r.slot.row.toNat
        (rowLanes ((List.range 64).map fun c => loadedElem (vRnd r.slot) (wordAt s t (vecAddr r) c)))) := by
  have hview : r.slot.view.toNat = 0 := congrArg BitVec.toNat hview
  have hk := rowPorts_kept hports r.issue haddr
  have hread := spadRead_of_clean (by omega) (cleanLines_of_kept hk hlines)
  rw [hk.spad] at hread
  have hlen : rowBytes .fp32 (viewCount 0) = 256 := rfl
  have helems : ((List.range 64).map fun c => (wordAt s t (vecAddr r) c, 127, Cause.none)).mapIdx
      (fun k e => (⟨BitVec.ofNat 32 (if e.2.2 = .none then floatBits (viewFmt 0) (vRnd r.slot) (([] : List Nat).getD k 0)
        (blockVal .fp32 e.2.1 e.1) else poisonBits (viewFormat 0)), e.2.2⟩ : Elem))
      = (List.range 64).map fun c => loadedElem (vRnd r.slot) (wordAt s t (vecAddr r) c) := by
    refine List.ext_getElem (by simp) fun i _ _ => ?_
    simp only [List.getElem_mapIdx, List.getElem_map, List.getElem_range, if_true, List.getD_nil]
    rfl
  refine ⟨_, hk, ?_⟩
  have hfp : (fmtOfCode 7).getD .fp32 = .fp32 := rfl
  simp only [loadRow, hview, hfmt, hrow, hfp, hlen, Nat.add_zero, hread, vecDraws_of_not_sr hrnd]
  rw [show viewCount 0 = 64 from rfl, unpackRow_fp32, if_neg (by decide), viewRow, if_neg (by decide), helems]

theorem cacheLoadRow_of_clean (hports : (s.tile t).portUse = []) {r : VecRun} (hrow : r.row = 0) (haddr : 64 ∣ vecAddr r)
    (hlines : cleanLines s t (vecAddr r)) (lat : Nat) : ∃ s1, SliceKept t s s1
      ∧ cacheLoadRow s t r lat = enqueue s1 t (r.issue + lat) r.issue (.ocache r.slot.orow.toNat
        ((List.range 64).map fun c => ⟨c, none, BitVec.ofNat 32 (wordAt s t (vecAddr r) c), .none⟩)) := by
  have hk := rowPorts_kept hports r.issue haddr
  have hread := spadRead_of_clean (by omega) (cleanLines_of_kept hk hlines)
  rw [hk.spad] at hread
  have horow : r.slot.orow.toNat % 256 = r.slot.orow.toNat := Nat.mod_eq_of_lt r.slot.orow.isLt
  refine ⟨_, hk, ?_⟩
  simp only [cacheLoadRow, hrow, Nat.add_zero, hread, horow]
  rw [List.map_congr_left (l := List.range 64) fun c hc => ?_]
  rw [leNat_row s t _ (List.mem_range.1 hc), List.drop_replicate, List.take_replicate, causeJoinAll_replicate_none]

theorem cacheStoreRow_of_clean (hc : EngineClean s t) {r : VecRun} (hrow : r.row = 0) (lat : Nat) :
    cacheStoreRow s t r lat = enqueue s t (r.issue + lat) r.issue (.spad (vecAddr r)
      ((List.range 64).flatMap fun c => leBytes 4 (ocWord (s.vec t) (64 * r.slot.orow.toNat + c)).bits.toNat)
      ((List.range 64).flatMap fun c => List.replicate 4 (ocWord (s.vec t) (64 * r.slot.orow.toNat + c)).cause)) := by
  have horow : r.slot.orow.toNat % 256 = r.slot.orow.toNat := Nat.mod_eq_of_lt r.slot.orow.isLt
  simp only [cacheStoreRow, hrow, Nat.add_zero, readHazard_of_clean hc, readOcache_of_clean hc, horow, List.flatMap_map]

theorem storeRow_of_clean (hc : EngineClean s t) {r : VecRun} (hrow : r.row = 0) (hfmt : vFmt r.slot = 7)
    (hrnd : vRnd r.slot ≠ .sr) (lat : Nat) :
    let b := storeBytes .fp32 (vRnd r.slot) [] (regRow s t r.slot.va.toNat r.slot.row.toNat 0)
    storeRow s t r lat = enqueue s t (r.issue + lat) r.issue (.spad (vecAddr r) b.1 b.2) := by
  have hfp : (fmtOfCode 7).getD .fp32 = .fp32 := rfl
  simp only [storeRow, hrow, hfmt, hfp, Nat.add_zero, readVals_of_clean hc, vecDraws_of_not_sr hrnd]

/-- The bytes of a stored FP32 row: four for each value. -/
theorem storeBytes_fp32 (rnd : Rnd) (row : List Elem) : (storeBytes .fp32 rnd [] row).1
    = row.flatMap fun e => leBytes 4 (if e.cause = .none then floatBits fp32F rnd 0 (fp32Val e.bits)
        else poisonBits .fp32) := by
  have hes : row.mapIdx (fun i e => (if e.cause = .none then elemBits .fp32 rnd (([] : List Nat).getD i 0) (fp32Val e.bits)
      else poisonBits .fp32, e.cause)) = row.map fun e => (if e.cause = .none then floatBits fp32F rnd 0 (fp32Val e.bits)
        else poisonBits .fp32, e.cause) := by
    refine List.ext_getElem (by simp) fun i _ _ => ?_
    simp only [List.getElem_mapIdx, List.getElem_map, List.getD_nil]
    rfl
  rw [storeBytes, if_neg (by decide), hes]
  exact List.flatMap_map ..

theorem storedWord {rnd : Rnd} {row : List Elem} {c : Nat} (hc : c < row.length)
    (hcause : (row.getD c elemReset).cause = .none) (hnan : fp32Val (row.getD c elemReset).bits ≠ .nan) :
    leNat (((storeBytes .fp32 rnd [] row).1.drop (4 * c)).take 4) = (row.getD c elemReset).bits.toNat := by
  rw [storeBytes_fp32, take_drop_flatMap _ (fun _ => length_leBytes 4 _) elemReset hc, if_pos hcause, leNat_leBytes,
    fp32Val, floatBits_floatVal (BitVec.isLt _) hnan]
  exact Nat.mod_eq_of_lt (BitVec.isLt _)

theorem length_storeBytes_fp32 (rnd : Rnd) (row : List Elem) :
    (storeBytes .fp32 rnd [] row).1.length = 4 * row.length := by
  simp [storeBytes_fp32, List.length_flatMap, length_leBytes, Nat.mul_comm]

/-! ### The issue of a memory instruction -/

/-- The address of a row (R184). -/
def rowAddr (s : State) (t : Nat) (v : VecSlot) : Nat :=
  let j := if 4 ≤ vInd v then (ctlJ (s.tile t).ctl (vInd v - 4)).toNat else 0
  64 * ((vmode v 52 14 : Int) + (j : Int) * signed 8 (vmode v 81 8)).emod 16384 |>.toNat

theorem dvd_rowAddr : 64 ∣ rowAddr s t v := by
  unfold rowAddr
  dsimp only
  omega

theorem vecAddr_firstRow {vop : Nat} (hlo : 0x48 ≤ vop) (hhi : vop ≤ 0x4B) :
    vecAddr (firstRow s t vop v) = rowAddr s t v := by
  have hind : (firstRow s t vop v).ind = indexOf (s.tile t).ctl (vInd v) := by
    have hind : (firstRow s t vop v).ind = issueIndex s t vop v := rfl
    rw [hind, issueIndex, if_pos (by simp [hlo, hhi])]
  unfold vecAddr rowAddr
  dsimp only
  have hemod : ∀ a b : Int, a.emod b = a % b := fun _ _ => rfl
  rw [hind, firstRow_slot, firstRow_row, indexOf, hemod, Nat.zero_mul]
  omega

theorem vecRowOf_memory {r : VecRun} {vop : Nat} (hvop : r.vop = vop) (hlo : 0x48 ≤ vop) (hhi : vop ≤ 0x4B) :
    vecRowOf s t r =
      let lat := if vop = 0x48 then 6 else if vop = 0x49 then 5 else 4
      if vop = 0x48 then loadRow s t r lat else if vop = 0x49 then storeRow s t r lat
      else if vop = 0x4A then cacheLoadRow s t r lat else cacheStoreRow s t r lat := by
  have hlat : s.latency t (vecLatency vop 0) = if vop = 0x48 then 6 else if vop = 0x49 then 5 else 4 := by
    interval_cases vop <;> exact latency_of_same ..
  rw [vecRowOf, hvop, vecLatency_axis (by omega) (by omega), hlat]
  interval_cases vop <;> rfl

end

section
variable {s : State} {t vop : Nat} {v : VecSlot}

/-- The state in which the first row of a memory instruction is processed. -/
theorem memoryRow_state (hlo : 0x48 ≤ vop) : startState s t vop v = s.withRun t (firstRow s t vop v) :=
  startState_of_no_entry (by
    simp only [takesEntry, Bool.or_eq_false_iff, Bool.and_eq_false_iff, beq_eq_false_iff_ne]
    omega)

theorem sliceKept_withRun (r : VecRun) : SliceKept t s (s.withRun t r) := ⟨engineKept_withRun r, rfl, rfl, rfl⟩

theorem portUse_withRun (r : VecRun) : ((s.withRun t r).tile t).portUse = (s.tile t).portUse :=
  congrArg SliceView.ports (sliceView_withRun s t r)

theorem wordAt_of_kept {s' : State} (h : SliceKept t s s') (off c : Nat) : wordAt s' t off c = wordAt s t off c := by
  rw [wordAt, h.spad, wordAt]

theorem vld_sends (h : vecIssues s t 0x48 v) (hview : v.view = 0) (hfmt : vFmt v = 7) (hrnd : vRnd v ≠ .sr)
    (hports : (s.tile t).portUse = []) (hlines : cleanLines s t (rowAddr s t v)) :
    vecSends s (issued s t 0x48 v (vecRowOf (startState s t 0x48 v) t (firstRow s t 0x48 v))) t v 6
      [.treg v.vd.toNat v.row.toNat
        (rowLanes ((List.range 64).map fun c => loadedElem (vRnd v) (wordAt s t (rowAddr s t v) c)))] := by
  have hk : SliceKept t s (s.withRun t (firstRow s t 0x48 v)) := sliceKept_withRun _
  have haddr : vecAddr (firstRow s t 0x48 v) = rowAddr s t v := vecAddr_firstRow (by decide) (by decide)
  obtain ⟨s1, hk1, hrow⟩ := loadRow_of_clean (s := s.withRun t (firstRow s t 0x48 v)) (r := firstRow s t 0x48 v)
    ((portUse_withRun _).trans hports) firstRow_row hview hfmt hrnd (haddr ▸ dvd_rowAddr)
    (haddr ▸ cleanLines_of_kept hk hlines) 6
  rw [memoryRow_state (by decide), vecRowOf_memory firstRow_vop (by decide) (by decide)]
  simp only [if_true, hrow, firstRow_slot, firstRow_issue, haddr, wordAt_of_kept hk]
  exact vecSends_enqueue (engineClean_of_vecClean h.1) (hk.trans hk1).engine rfl

theorem vocld_sends (h : vecIssues s t 0x4A v) (hports : (s.tile t).portUse = [])
    (hlines : cleanLines s t (rowAddr s t v)) :
    vecSends s (issued s t 0x4A v (vecRowOf (startState s t 0x4A v) t (firstRow s t 0x4A v))) t v 4
      [.ocache v.orow.toNat
        ((List.range 64).map fun c => ⟨c, none, BitVec.ofNat 32 (wordAt s t (rowAddr s t v) c), .none⟩)] := by
  have hk : SliceKept t s (s.withRun t (firstRow s t 0x4A v)) := sliceKept_withRun _
  have haddr : vecAddr (firstRow s t 0x4A v) = rowAddr s t v := vecAddr_firstRow (by decide) (by decide)
  obtain ⟨s1, hk1, hrow⟩ := cacheLoadRow_of_clean (s := s.withRun t (firstRow s t 0x4A v)) (r := firstRow s t 0x4A v)
    ((portUse_withRun _).trans hports) firstRow_row (haddr ▸ dvd_rowAddr) (haddr ▸ cleanLines_of_kept hk hlines) 4
  rw [memoryRow_state (by decide), vecRowOf_memory firstRow_vop (by decide) (by decide)]
  simp only [Nat.reduceEqDiff, if_false, if_true, hrow, firstRow_slot, firstRow_issue, haddr,
    wordAt_of_kept hk]
  exact vecSends_enqueue (engineClean_of_vecClean h.1) (hk.trans hk1).engine rfl

theorem vocst_sends (h : vecIssues s t 0x4B v) :
    vecSends s (issued s t 0x4B v (vecRowOf (startState s t 0x4B v) t (firstRow s t 0x4B v))) t v 4
      [.spad (rowAddr s t v)
        ((List.range 64).flatMap fun c => leBytes 4 (ocWord (s.vec t) (64 * v.orow.toNat + c)).bits.toNat)
        ((List.range 64).flatMap fun c => List.replicate 4 (ocWord (s.vec t) (64 * v.orow.toNat + c)).cause)] := by
  have hc := engineClean_of_vecClean h.1
  have hk : EngineKept t s (s.withRun t (firstRow s t 0x4B v)) := engineKept_withRun _
  have haddr : vecAddr (firstRow s t 0x4B v) = rowAddr s t v := vecAddr_firstRow (by decide) (by decide)
  rw [memoryRow_state (by decide), vecRowOf_memory firstRow_vop (by decide) (by decide)]
  simp only [Nat.reduceEqDiff, if_false, cacheStoreRow_of_clean (hc.of_kept hk) firstRow_row, hk.ocWord,
    firstRow_slot, firstRow_issue, haddr]
  exact vecSends_enqueue hc hk rfl

theorem vst_sends (h : vecIssues s t 0x49 v) (hfmt : vFmt v = 7) (hrnd : vRnd v ≠ .sr) :
    let b := storeBytes .fp32 (vRnd v) [] (regRow s t v.va.toNat v.row.toNat 0)
    vecSends s (issued s t 0x49 v (vecRowOf (startState s t 0x49 v) t (firstRow s t 0x49 v))) t v 5
      [.spad (rowAddr s t v) b.1 b.2] := by
  have hc := engineClean_of_vecClean h.1
  have hk : EngineKept t s (s.withRun t (firstRow s t 0x49 v)) := engineKept_withRun _
  have haddr : vecAddr (firstRow s t 0x49 v) = rowAddr s t v := vecAddr_firstRow (by decide) (by decide)
  rw [memoryRow_state (by decide), vecRowOf_memory firstRow_vop (by decide) (by decide)]
  simp only [Nat.reduceEqDiff, if_false, if_true]
  rw [storeRow_of_clean (hc.of_kept hk) firstRow_row hfmt hrnd]
  simp only [firstRow_slot, firstRow_issue, haddr, hk.regRow]
  exact vecSends_enqueue hc hk rfl

/-- The clause of O24 on the memory instructions. -/
theorem memory_issues {i : Instr} (hop : vecOp i = some (t, vop, v)) (h : vecIssues s t vop v) (hview : v.view = 0)
    (hfmt : vop ≤ 0x49 → vFmt v = 7 ∧ vRnd v ≠ .sr) (hports : (s.tile t).portUse = []) :
    let off := rowAddr s t v
    let word := fun c => BitVec.ofNat 32 (wordAt s t off c)
    let reg := fun c => regValue s t v.va.toNat v.row.toNat 0 c
    ∃ s', exec i s = .next s' ∧ sameMemory s s' ∧ sameTilesBut s s' [t]
      ∧ (vop = 0x4A → cleanLines s t off → ∃ ls, vecSends s s' t v 4 [.ocache v.orow.toNat ls] ∧ ls.length = 64
          ∧ ∀ c, c < 64 → ls.getD c ⟨0, none, 0, .none⟩ = ⟨c, none, word c, .none⟩)
      ∧ (vop = 0x4B → vecSends s s' t v 4 [.spad off
          ((List.range 64).flatMap fun c => leBytes 4 (ocWord (s.vec t) (64 * v.orow.toNat + c)).bits.toNat)
          ((List.range 64).flatMap fun c => List.replicate 4 (ocWord (s.vec t) (64 * v.orow.toNat + c)).cause)])
      ∧ (vop = 0x49 → ∃ bs cs, vecSends s s' t v 5 [.spad off bs cs] ∧ bs.length = 256
          ∧ ∀ c, c < 64 → (reg c).cause = .none → fp32Val (reg c).bits ≠ .nan →
            leNat ((bs.drop (4 * c)).take 4) = (reg c).bits.toNat)
      ∧ (vop = 0x48 → cleanLines s t off → ∃ es, vecSends s s' t v 6 [.treg v.vd.toNat v.row.toNat (rowLanes es)]
          ∧ es.length = 64 ∧ ∀ c, c < 64 → fp32Val (word c) ≠ .nan → es.getD c elemReset = ⟨word c, .none⟩) := by
  obtain ⟨hmem, hothers⟩ := issued_frame hop h
  refine ⟨_, exec_of_issues hop h, hmem, hothers, ?_, ?_, ?_, ?_⟩ <;> intro hvop <;> subst hvop
  · intro hlines
    exact ⟨_, vocld_sends h hports hlines, by simp, fun c hc => getD_map_range _ _ hc⟩
  · exact vocst_sends h
  · obtain ⟨hfp, hrnd⟩ := hfmt (by decide)
    have hlen : (regRow s t v.va.toNat v.row.toNat 0).length = 64 := length_regRow ..
    exact ⟨_, _, vst_sends h hfp hrnd, by rw [length_storeBytes_fp32, hlen],
      fun c hc hcause hnan => storedWord (by rwa [hlen]) hcause hnan⟩
  · intro hlines
    obtain ⟨hfp, hrnd⟩ := hfmt (by decide)
    refine ⟨_, vld_sends h hview hfp hrnd hports hlines, by simp, fun c hc hnan => ?_⟩
    have hlt := wordAt_lt s t (rowAddr s t v) c
    rw [fp32Val, BitVec.toNat_ofNat, Nat.mod_eq_of_lt hlt] at hnan
    rw [getD_map_range _ _ hc, loadedElem_eq hlt hnan]

end

end Sys2Proof.Machine

/-! PROOFS. O24, the landing of results: what VEC_RESULT_WRITE writes, and what it leaves unchanged. -/

namespace Sys2Proof.Machine

/-! ### What a landing keeps -/

/-- What the writing of a result of tile `t` keeps: the other tiles, the results that still wait, and the memories
outside the slices. -/
structure LandView where
  others : Nat → Tile
  pending : List Pending
  hbm : List Host.Cell
  ddr : List Host.Cell

def landView (t : Nat) (s : State) : LandView where
  others u := if u = t then tileReset else s.tile u
  pending := (s.vec t).pending
  hbm := s.hbm
  ddr := s.ddr

section
variable {t : Nat} {s s' : State}

theorem landView_of_engineView (h : engineView t s' = engineView t s) (hmem : s'.mems = s.mems) :
    landView t s' = landView t s := by
  have hothers := congrArg RowView.others (rowView_of_engineView h)
  have hpending : (s'.vec t).pending = (s.vec t).pending := (congrArg Vec.pending (vec_of_engineView h) :)
  have hhbm : s'.hbm = s.hbm := congrArg Memories.hbm hmem
  have hddr : s'.ddr = s.ddr := congrArg Memories.ddr hmem
  unfold landView
  rw [hpending, hhbm, hddr]
  exact congrArg (LandView.mk · _ _ _) hothers

@[simp] theorem landView_modTile {f : Tile → Tile} (hf : ∀ x, (f x).vec = x.vec) :
    landView t (s.modTile t f) = landView t s := by
  have hothers : ∀ u, (if u = t then tileReset else (s.modTile t f).tile u) = if u = t then tileReset else s.tile u := by
    intro u
    split
    · rfl
    · exact State.tile_modTile_ne _ _ ‹_›
  simp only [landView, State.vec, State.tile_modTile_same, hothers, hf]
  rfl

@[simp] theorem landView_modVec {f : Vec → Vec} (hf : ∀ v, (f v).pending = v.pending) :
    landView t (s.modVec t f) = landView t s := by
  have hothers : ∀ u, (if u = t then tileReset else (s.modVec t f).tile u) = if u = t then tileReset else s.tile u := by
    intro u
    split
    · rfl
    · exact State.tile_modVec_ne _ _ _ ‹_›
  simp only [landView, State.vec_modVec_same, hothers, hf]
  rfl

theorem sameTilesBut_of_landView (h : landView t s' = landView t s) : sameTilesBut s s' [t] := by
  intro u hu
  have hu : u ≠ t := by simpa using hu
  simpa [landView, hu] using congrFun (congrArg LandView.others h) u

end

section
variable (s : State) (t : Nat)

@[simp] theorem landView_slices (a : List Host.Cell) (b : SMap Cause) (c : SMap EccErr) :
    landView t { s with spad := a, spadMark := b, spadErr := c } = landView t s := rfl

@[simp] theorem landView_ite (c : Prop) [Decidable c] (x y : State) :
    landView t (if c then x else y) = if c then landView t x else landView t y := apply_ite ..

@[simp] theorem landView_foldl {β : Type} {f : State → β → State} (h : ∀ s b, landView t (f s b) = landView t s)
    (l : List β) (s : State) : landView t (l.foldl f s) = landView t s := foldl_keeps _ (fun s b _ => h s b) s

@[simp] theorem landView_breakPromise (h : Hazard) : landView t (s.breakPromise t h) = landView t s := by
  have hreport : landView t (hazardReport s t h) = landView t s :=
    landView_of_engineView (engineView_hazard s t h) (mems_hazard s t h)
  simp [State.breakPromise, hreport]

@[simp] theorem landView_takePort (cyc bank : Nat) (feed : Bool) :
    landView t (s.takePort t cyc bank feed) = landView t s := by
  simp [State.takePort]

@[simp] theorem landView_takePorts (cyc off len : Nat) : landView t (s.takePorts t cyc off len) = landView t s := by
  simp [State.takePorts]

@[simp] theorem landView_tapLine (line : Nat) : landView t (tapLine s t line) = landView t s := by
  unfold tapLine
  split <;> simp

@[simp] theorem landView_spadWriteLine (off : Nat) (bs : List (BitVec 8)) (cause : Cause) :
    landView t (spadWriteLine s t off bs cause) = landView t s := by
  simp [spadWriteLine]

@[simp] theorem landView_spadWrite (off : Nat) (bs : List (BitVec 8)) (cs : List Cause) :
    landView t (s.spadWrite t off bs cs) = landView t s := by
  simp [State.spadWrite]

@[simp] theorem landView_keepOwn (p : Pending) (reg row : Nat) : landView t (keepOwn s t p reg row) = landView t s := by
  unfold keepOwn
  split
  · simp [State.modRun]
  · rfl

theorem pending_ocPut (v : Vec) (k : Nat) (e : Elem) : (ocPut v k e).pending = v.pending := rfl

theorem pending_ocPuts (vs : List Lane) (base : Nat) (v : Vec) :
    (vs.foldl (fun v l => ocPut v (base + l.idx) (putLane (ocWord v (base + l.idx)) l)) v).pending = v.pending :=
  foldl_keeps Vec.pending (fun v (l : Lane) _ => pending_ocPut v (base + l.idx) _) v

/-- The writing of a result leaves the other results of the tile on their way. -/
theorem landView_landResult (p : Pending) : landView t (landResult s t p) = landView t s := by
  unfold landResult
  split
  · simp
  · simp [pending_ocPuts]
  · simp
  · simp

end

/-! ### Lanes of a row (R131) -/

theorem rowLanes_concat (es : List Elem) (e : Elem) :
    rowLanes (es ++ [e]) = rowLanes es ++ [⟨es.length, none, e.bits, e.cause⟩] := by
  simp [rowLanes, List.mapIdx_append]

/-- The lanes of a row write its elements whole. -/
theorem mapGet_putLanes (m : SMap Elem) (base : Nat) (es : List Elem) (k : Nat) :
    mapGet elemReset (putLanes m base (rowLanes es)) k
      = if base ≤ k ∧ k < base + es.length then es.getD (k - base) elemReset else mapGet elemReset m k := by
  induction es using List.reverseRecOn with
  | nil => rw [if_neg (by simp)]; rfl
  | append_singleton es e ih =>
    have hput : putLanes m base (rowLanes (es ++ [e]))
        = mapSet elemReset (putLanes m base (rowLanes es)) (base + es.length) e := by
      rw [rowLanes_concat, putLanes, List.foldl_append]
      rfl
    rw [hput, mapGet_mapSet, ih, List.length_append, List.length_singleton]
    by_cases hk : k = base + es.length
    · subst hk
      rw [if_pos rfl, if_pos (by omega), Nat.add_sub_cancel_left]
      simp
    · rw [if_neg hk]
      by_cases hin : base ≤ k ∧ k < base + es.length
      · rw [if_pos hin, if_pos (by omega), List.getD_append _ _ _ _ (by omega)]
      · rw [if_neg hin, if_neg (by omega)]

/-! ### Bytes of a slice (R232) -/

section
variable (s : State) (t : Nat)

theorem spad_spadWriteLine (off : Nat) (bs : List (BitVec 8)) (cause : Cause) :
    (spadWriteLine s t off bs cause).spad = memWrite s.spad (t * sliceBytes + off) bs := by
  have hmem : ∀ (x : State) line, (tapLine x t line).spad = x.spad := fun x line =>
    congrArg Memories.spad (mems_tapLine x t line)
  rw [spadWriteLine, hmem]
  rfl

theorem getD_take_drop {α : Type} (d : α) (l : List α) {k m i : Nat} (h : i < m) :
    ((l.drop k).take m).getD i d = l.getD (k + i) d := by
  simp [List.getD_eq_getElem?_getD, h]

/-- The first `n` lines of a write of bytes to a slice. -/
def writeLines (off : Nat) (bs : List (BitVec 8)) (cs : List Cause) (n : Nat) : State :=
  (List.range n).foldl (fun s i =>
    let a := max off ((off / 64 + i) * 64)
    let b := min (off + bs.length) ((off / 64 + i + 1) * 64)
    spadWriteLine s t (a % sliceBytes) ((bs.drop (a - off)).take (b - a))
      (causeJoinAll ((cs.drop (a - off)).take (b - a)))) s

variable {s t}

/-- The lines written so far hold their part of the bytes. -/
theorem memGet_writeLines {off : Nat} {bs : List (BitVec 8)} (hle : off + bs.length ≤ sliceBytes) (cs : List Cause)
    (n x : Nat) : memGet (writeLines s t off bs cs n).spad x = if t * sliceBytes + off ≤ x
        ∧ x < t * sliceBytes + min (off + bs.length) (max off ((off / 64 + n) * 64))
      then bs.getD (x - (t * sliceBytes + off)) 0 else memGet s.spad x := by
  induction n with
  | zero =>
    rw [if_neg (by omega)]
    rfl
  | succ n ih =>
    rw [writeLines, List.range_succ, List.foldl_append, List.foldl_cons, List.foldl_nil, spad_spadWriteLine,
      memGet_memWrite, ← writeLines, ih, List.length_take, List.length_drop]
    by_cases hdone : off + bs.length ≤ max off ((off / 64 + n) * 64)
    · rw [if_neg (by omega)]
      exact if_congr (by omega) rfl rfl
    · have hmod : max off ((off / 64 + n) * 64) % sliceBytes = max off ((off / 64 + n) * 64) :=
        Nat.mod_eq_of_lt (by omega)
      rw [hmod]
      by_cases hline : t * sliceBytes + max off ((off / 64 + n) * 64) ≤ x
          ∧ x < t * sliceBytes + min (off + bs.length) ((off / 64 + n + 1) * 64)
      · rw [if_pos (by omega), if_pos (by omega), getD_take_drop _ _ (by omega)]
        congr 1
        omega
      · rw [if_neg (by omega)]
        exact if_congr (by omega) rfl rfl

theorem spadWrite_eq_writeLines {off : Nat} {bs : List (BitVec 8)} (hle : off + bs.length ≤ sliceBytes) (hbs : bs ≠ [])
    (cs : List Cause) : s.spadWrite t off bs cs
      = writeLines s t off bs cs ((off + bs.length - 1) / 64 - off / 64 + 1) := by
  have hpos := List.length_pos_of_ne_nil hbs
  have hoff : off % sliceBytes = off := Nat.mod_eq_of_lt (by omega)
  rw [State.spadWrite, hoff, if_neg (by simpa using hbs)]
  rfl

/-- Bytes written within a slice are what the slice reads there, and no other byte changes. -/
theorem memGet_spadWrite {off : Nat} {bs : List (BitVec 8)} (hle : off + bs.length ≤ sliceBytes) (cs : List Cause)
    (x : Nat) : memGet (s.spadWrite t off bs cs).spad x
      = if t * sliceBytes + off ≤ x ∧ x < t * sliceBytes + off + bs.length then bs.getD (x - (t * sliceBytes + off)) 0
        else memGet s.spad x := by
  by_cases hbs : bs = []
  · subst hbs
    rw [if_neg (by simp)]
    rfl
  · rw [spadWrite_eq_writeLines hle hbs, memGet_writeLines hle]
    have hpos := List.length_pos_of_ne_nil hbs
    exact if_congr (by omega) rfl rfl

end

/-! ### VEC_RESULT_WRITE -/

section
variable {s : State} {t : Nat} {p : Pending}

theorem vecResultWrite_of_due (h : (s.vec t).pending.find? (fun p => s.dueNow t p.due) = some p) : vecResultWrite s t
    = landResult (s.modVec t fun v => { v with pending := v.pending.erase p }) t p := by
  rw [vecResultWrite, h]

theorem keepOwn_onlyVec (reg row : Nat) : onlyVec s (keepOwn s t p reg row) t := by
  unfold keepOwn
  split
  · dsimp only
    split
    · exact onlyVec_modVec ..
    · exact ⟨rfl, fun _ _ => rfl, rfl⟩
  · exact ⟨rfl, fun _ _ => rfl, rfl⟩

theorem treg_keepOwn (reg row : Nat) : ((keepOwn s t p reg row).vec t).treg = (s.vec t).treg := by
  unfold keepOwn
  split
  · dsimp only
    split
    · rw [State.modRun, State.vec_modVec_same]
    · rfl
  · rfl

theorem landResult_treg {reg row : Nat} {vs : List Lane} (h : p.what = .treg reg row vs) :
    onlyVec s (landResult s t p) t
      ∧ ((landResult s t p).vec t).treg = putLanes (s.vec t).treg (2048 * reg + 64 * row) vs := by
  rw [landResult, h]
  refine ⟨(keepOwn_onlyVec reg row).trans (onlyVec_modVec ..), ?_⟩
  rw [State.vec_modVec_same, treg_keepOwn]

theorem landResult_spad {off : Nat} {bs : List (BitVec 8)} {cs : List Cause} (h : p.what = .spad off bs cs)
    (hle : off + bs.length ≤ sliceBytes) (x : Nat) : memGet (landResult s t p).spad x
      = if t * sliceBytes + off ≤ x ∧ x < t * sliceBytes + off + bs.length then bs.getD (x - (t * sliceBytes + off)) 0
        else memGet s.spad x := by
  have hports : (s.takePorts t p.due off bs.length).spad = s.spad :=
    congrArg Memories.spad (mems_takePorts s t p.due off bs.length)
  rw [landResult, h]
  dsimp only
  rw [memGet_spadWrite hle, hports]

/-- The clause of O24 on VEC_RESULT_WRITE. -/
theorem vecResultWrite_lands (h : (s.vec t).pending.find? (fun p => s.dueNow t p.due) = some p) :
    let s' := vecResultWrite s t
    (s'.vec t).pending = (s.vec t).pending.erase p ∧ sameTilesBut s s' [t] ∧ s'.hbm = s.hbm ∧ s'.ddr = s.ddr
      ∧ (∀ reg row es, p.what = .treg reg row (rowLanes es) → es.length ≤ 64 →
          onlyVec s s' t ∧ ∀ k, mapGet elemReset (s'.vec t).treg k
            = if 2048 * reg + 64 * row ≤ k ∧ k < 2048 * reg + 64 * row + es.length
              then es.getD (k - (2048 * reg + 64 * row)) elemReset else mapGet elemReset (s.vec t).treg k)
      ∧ ∀ off bs cs, p.what = .spad off bs cs → off + bs.length ≤ sliceBytes →
          ∀ x, memGet s'.spad x = if t * sliceBytes + off ≤ x ∧ x < t * sliceBytes + off + bs.length
            then bs.getD (x - (t * sliceBytes + off)) 0 else memGet s.spad x := by
  dsimp only
  rw [vecResultWrite_of_due h]
  generalize hs0 : s.modVec t (fun v => { v with pending := v.pending.erase p }) = s0
  have honly : onlyVec s s0 t := hs0 ▸ onlyVec_modVec ..
  have hvec : s0.vec t = { s.vec t with pending := (s.vec t).pending.erase p } := by rw [← hs0, State.vec_modVec_same]
  have hspad : s0.spad = s.spad := by rw [← hs0]; rfl
  have hview := landView_landResult s0 t p
  have hothers := honly.2.1.trans (sameTilesBut_of_landView hview)
  have hhbm : s0.hbm = s.hbm := by rw [← hs0]; rfl
  have hddr : s0.ddr = s.ddr := by rw [← hs0]; rfl
  refine ⟨?_, hothers, (congrArg LandView.hbm hview).trans hhbm, (congrArg LandView.ddr hview).trans hddr,
    fun reg row es hwhat _ => ?_, fun off bs cs hwhat hle x => ?_⟩
  · exact (congrArg LandView.pending hview).trans (by rw [landView, hvec])
  · obtain ⟨hland, htreg⟩ := landResult_treg (s := s0) (t := t) hwhat
    refine ⟨honly.trans hland, fun k => ?_⟩
    rw [htreg, mapGet_putLanes, hvec]
  · rw [landResult_spad hwhat hle, hspad]

end

/-! ### The statement -/

/-- Settles O24: rows of clean lines pass their words through their format unchanged, and a landing writes its lanes or
its lines one by one. -/
theorem vectorMemoryAndLanding : Obligations.VectorMemoryAndLanding := by
  refine ⟨fun i s t vop v hop _ h hview hfmt hports => memory_issues hop h hview hfmt hports, fun s t ht hruns => ?_⟩
  have hexec : exec (.vecResultWrite t) s = .next (vecResultWrite s t) := onRun_of_runs ht hruns (vecResultWrite · t)
  refine ⟨fun hnone => ?_, fun p hp => ⟨_, hexec, vecResultWrite_lands hp⟩⟩
  rw [hexec, vecResultWrite, hnone]

end Sys2Proof.Machine

/-! PROOFS. O5: the words of the Mule's instructions. Each form leaves its fields where the decoder reads them, and a word
is made of its fields. -/

namespace Sys2Proof.Machine

/-! ### The fields of a word (R150) -/

theorem extractLsb'_ofNat_eq {n x lo : Nat} {v : BitVec n} (h : x % 2 ^ 32 / 2 ^ lo % 2 ^ n = v.toNat) :
    (BitVec.ofNat 32 x).extractLsb' lo n = v := by
  apply BitVec.eq_of_toNat_eq
  rw [BitVec.extractLsb'_toNat, Nat.shiftRight_eq_div_pow, BitVec.toNat_ofNat, h]

theorem fld_ofNat_eq {w x lo k : Nat} (h : x % 2 ^ 32 / 2 ^ lo % 2 ^ w = k) : fld (BitVec.ofNat 32 x) lo w = k := by
  rw [fld, BitVec.toNat_ofNat, h]

section
variable {op : Nat} (hop : op < 64) (d a b : BitVec 5)
include hop

theorem muleA_fields : fld (muleA op d a b) 26 6 = op ∧ fld (muleA op d a b) 0 11 = 0
    ∧ (muleA op d a b).extractLsb' 21 5 = d ∧ (muleA op d a b).extractLsb' 16 5 = a
    ∧ (muleA op d a b).extractLsb' 11 5 = b := by
  have hd := d.isLt
  have ha := a.isLt
  have hb := b.isLt
  exact ⟨fld_ofNat_eq (by omega), fld_ofNat_eq (by omega), extractLsb'_ofNat_eq (by omega),
    extractLsb'_ofNat_eq (by omega), extractLsb'_ofNat_eq (by omega)⟩

theorem muleB_fields (imm : BitVec 16) : fld (muleB op d a imm) 26 6 = op ∧ (muleB op d a imm).extractLsb' 21 5 = d
    ∧ (muleB op d a imm).extractLsb' 16 5 = a ∧ (muleB op d a imm).extractLsb' 0 16 = imm := by
  have hd := d.isLt
  have ha := a.isLt
  have hi := imm.isLt
  exact ⟨fld_ofNat_eq (by omega), extractLsb'_ofNat_eq (by omega), extractLsb'_ofNat_eq (by omega),
    extractLsb'_ofNat_eq (by omega)⟩

theorem muleC_fields (imm : BitVec 21) : fld (muleC op d imm) 26 6 = op ∧ (muleC op d imm).extractLsb' 21 5 = d
    ∧ (muleC op d imm).extractLsb' 0 21 = imm := by
  have hd := d.isLt
  have hi := imm.isLt
  exact ⟨fld_ofNat_eq (by omega), extractLsb'_ofNat_eq (by omega), extractLsb'_ofNat_eq (by omega)⟩

theorem muleE_fields (off : BitVec 26) : fld (muleE op off) 26 6 = op ∧ (muleE op off).extractLsb' 0 26 = off := by
  have ho := off.isLt
  exact ⟨fld_ofNat_eq (by omega), extractLsb'_ofNat_eq (by omega)⟩

end

/-! ### A word is made of its fields -/

section
variable {w : BitVec 32} {op : Nat} (hop : fld w 26 6 = op)
include hop

theorem muleA_of_fields (hres : fld w 0 11 = 0) :
    muleA op (w.extractLsb' 21 5) (w.extractLsb' 16 5) (w.extractLsb' 11 5) = w := by
  have hw := w.isLt
  unfold fld at hop hres
  apply BitVec.eq_of_toNat_eq
  simp only [muleA, BitVec.toNat_ofNat, BitVec.extractLsb'_toNat, Nat.shiftRight_eq_div_pow]
  omega

theorem muleB_of_fields : muleB op (w.extractLsb' 21 5) (w.extractLsb' 16 5) (w.extractLsb' 0 16) = w := by
  have hw := w.isLt
  unfold fld at hop
  apply BitVec.eq_of_toNat_eq
  simp only [muleB, BitVec.toNat_ofNat, BitVec.extractLsb'_toNat, Nat.shiftRight_eq_div_pow]
  omega

theorem muleC_of_fields : muleC op (w.extractLsb' 21 5) (w.extractLsb' 0 21) = w := by
  have hw := w.isLt
  unfold fld at hop
  apply BitVec.eq_of_toNat_eq
  simp only [muleC, BitVec.toNat_ofNat, BitVec.extractLsb'_toNat, Nat.shiftRight_eq_div_pow]
  omega

theorem muleE_of_fields : muleE op (w.extractLsb' 0 26) = w := by
  have hw := w.isLt
  unfold fld at hop
  apply BitVec.eq_of_toNat_eq
  simp only [muleE, BitVec.toNat_ofNat, BitVec.extractLsb'_toNat, Nat.shiftRight_eq_div_pow]
  omega

end

/-! ### Decoding -/

/-- The command of tile `t` that a word spells (R151). -/
def muleDecode (t : Nat) (w : BitVec 32) : Option Instr :=
  let d := w.extractLsb' 21 5
  let a := w.extractLsb' 16 5
  let b := w.extractLsb' 11 5
  let imm := w.extractLsb' 0 16
  let imm21 := w.extractLsb' 0 21
  let off := w.extractLsb' 0 26
  match fld w 26 6 with
  | 0x00 => some (.add t d a b)
  | 0x01 => some (.sub t d a b)
  | 0x02 => some (.and t d a b)
  | 0x03 => some (.or t d a b)
  | 0x04 => some (.xor t d a b)
  | 0x05 => some (.shl t d a b)
  | 0x06 => some (.shr t d a b)
  | 0x07 => some (.sra t d a b)
  | 0x08 => some (.slt t d a b)
  | 0x09 => some (.sltu t d a b)
  | 0x0A => some (.mul t d a b)
  | 0x0B => some (.mulhu t d a b)
  | 0x0C => some (.mulh t d a b)
  | 0x10 => some (.addi t d a imm)
  | 0x11 => some (.andi t d a imm)
  | 0x12 => some (.ori t d a imm)
  | 0x13 => some (.xori t d a imm)
  | 0x14 => some (.shli t d a imm)
  | 0x15 => some (.shri t d a imm)
  | 0x16 => some (.srai t d a imm)
  | 0x17 => some (.slti t d a imm)
  | 0x18 => some (.lui t d imm21)
  | 0x20 => some (.ldw t d a imm)
  | 0x21 => some (.ldh t d a imm)
  | 0x22 => some (.ldhu t d a imm)
  | 0x23 => some (.ldb t d a imm)
  | 0x24 => some (.ldbu t d a imm)
  | 0x28 => some (.stw t d a imm)
  | 0x29 => some (.sth t d a imm)
  | 0x2A => some (.stb t d a imm)
  | 0x30 => some (.beq t d a imm)
  | 0x31 => some (.bne t d a imm)
  | 0x32 => some (.blt t d a imm)
  | 0x33 => some (.bge t d a imm)
  | 0x34 => some (.bltu t d a imm)
  | 0x35 => some (.bgeu t d a imm)
  | 0x36 => some (.jal t off)
  | 0x37 => some (.jalr t d a imm)
  | 0x38 => some (.muleWait t d a imm)
  | 0x39 => some (.muleSig t d a b)
  | 0x3A => some (.muleFence t d a b)
  | 0x3B => some (.send t d a b)
  | 0x3C => some (.yield t d a b)
  | 0x3D => some (.hret t d a b)
  | 0x3E => some (.muleHalt t d a b)
  | 0x3F => some (.cyc t d a b)
  | _ => none

/-- The word of a command decodes to the command: each form leaves its fields where `muleDecode` reads them. -/
theorem muleDecode_muleWord {i : Instr} {t : Nat} {w : BitVec 32} (h : muleWord i = some (t, w)) :
    muleDecode t w = some i := by
  unfold muleWord at h
  split at h <;> cases h
  all_goals simp [muleDecode, muleA_fields, muleB_fields, muleC_fields, muleE_fields]

theorem muleWord_legal {i : Instr} {t : Nat} {w : BitVec 32} (h : muleWord i = some (t, w)) : muleIllegal w = false := by
  unfold muleWord at h
  split at h <;> cases h
  all_goals simp [muleIllegal, muleOpcode, muleFormA, muleA_fields, muleB_fields, muleC_fields, muleE_fields]

theorem muleIllegal_eq_false_iff (w : BitVec 32) :
    muleIllegal w = false ↔ muleOpcode (fld w 26 6) = true ∧ (muleFormA (fld w 26 6) = true → fld w 0 11 = 0) := by
  simp [muleIllegal]

/-- A legal word is the word of the command that it decodes to. -/
theorem muleWord_muleDecode (t : Nat) {w : BitVec 32} (h : muleIllegal w = false) :
    ∃ i, muleDecode t w = some i ∧ muleWord i = some (t, w) := by
  obtain ⟨hopcode, hform⟩ := (muleIllegal_eq_false_iff w).1 h
  unfold muleDecode
  dsimp only
  split
  case h_47 =>
    simp only [muleOpcode, Bool.or_eq_true, Bool.and_eq_true, decide_eq_true_eq] at hopcode
    simp only [imp_false] at *
    omega
  all_goals
    next hop =>
    rw [hop] at hform
    refine ⟨_, rfl, ?_⟩
    simp [muleWord, muleA_of_fields hop, muleB_of_fields hop, muleC_of_fields hop, muleE_of_fields hop, hform,
      muleFormA]

/-- Settles O5: `muleDecode` inverts `muleWord` on the legal words. -/
theorem muleWordsAreUnique : Obligations.MuleWordsAreUnique := by
  refine ⟨fun i j t w hi hj => ?_, fun i t w h => muleWord_legal h, fun t w h => ?_⟩
  · exact Option.some.inj ((muleDecode_muleWord hi).symm.trans (muleDecode_muleWord hj))
  · obtain ⟨i, -, hi⟩ := muleWord_muleDecode t h
    exact ⟨i, hi⟩

end Sys2Proof.Machine

/-! PROOFS. O6 and O8: arithmetic, branches and jumps of the Mule. Each command is one of three shared ends of an
instruction: its result is written, it goes on, or it jumps. -/

namespace Sys2Proof.Machine

/-! ### Arithmetic -/

/-- The arithmetic instructions write the row of R151's table. -/
theorem exec_arith {i : Instr} {s : State} {t : Nat} {w : BitVec 32} {d : BitVec 5} {v : BitVec 32}
    (hword : muleWord i = some (t, w)) (hresult : muleResult s i = some (d, v)) :
    ∃ f : State → State, exec i s = onMule t w s f ∧ f s = muleDone s t d v := by
  unfold muleResult at hresult
  split at hresult <;> cases hresult <;> cases hword <;> refine ⟨_, rfl, congrArg (muleDone s _ _) ?_⟩
  all_goals simp [muleAlu, BitVec.slt, BitVec.ult, BitVec.toInt_signExtend_of_le]

/-- Settles O6: an arithmetic instruction ends with `muleDone` on the value of its row. -/
theorem muleArithmeticWritesResult : Obligations.MuleArithmeticWritesResult := by
  intro i s t w d v hword hat hresult
  obtain ⟨f, hexec, hf⟩ := exec_arith hword hresult
  exact ⟨f s, hexec.trans (onMule_at hat f), hf ▸ muleWrote_muleDone s t d v⟩

/-! ### Branches and jumps -/

/-- Two changes of a Mule that agree on the Mule there is are one. -/
theorem modMule_congr {s : State} {t : Nat} {f g : Mule → Mule} (h : f (s.tile t).mule = g (s.tile t).mule) :
    s.modMule t f = s.modMule t g :=
  congrArg (fun m => s.setTile t { s.tile t with mule := m }) h

/-- A jump completes at its target, or faults where the target lies outside instruction memory (R151). -/
theorem muleJump_outcome {s : State} {t : Nat} {f : Mule → Mule} {d : BitVec 5} {v : BitVec 32} (target : BitVec 32)
    (hf : f (s.tile t).mule = muleSet (s.tile t).mule d v) :
    if target.toNat < 0x4000 then muleWrote s (muleJump s t target f) t d v target
    else muleFaulted s (muleJump s t target f) t faultAddr := by
  unfold muleJump
  split
  · next h =>
    rw [if_neg (Nat.not_le.2 h), 
      modMule_congr (f := fun m => { f m with pc := target }) (g := fun m => { muleSet m d v with pc := target })
        (congrArg (fun m : Mule => { m with pc := target }) hf)]
    exact muleWrote_modMule s t d v target
  · next h =>
    rw [if_pos (Nat.not_lt.1 h)]
    exact muleFaulted_muleFault s t faultAddr

/-- A branch jumps where the relation of its row of R151's table holds, and else goes on. -/
theorem exec_branch {i : Instr} {s : State} {t : Nat} {w : BitVec 32} {taken : Bool} {target : BitVec 32}
    (hword : muleWord i = some (t, w)) (hbranch : muleBranchOf s i = some (t, taken, target)) :
    ∃ f : State → State, exec i s = onMule t w s f
      ∧ f s = if taken then muleJump s t target id else muleNext s t := by
  unfold muleBranchOf at hbranch
  split at hbranch <;> cases hbranch <;> cases hword <;>
    refine ⟨_, rfl, congrArg (fun c : Bool => if c then muleJump s t _ id else muleNext s t) ?_⟩
  all_goals simp [muleRel, BitVec.slt, BitVec.ult, ← decide_not]

/-- Clearing the low two bits of an address rounds it down to a multiple of 4. -/
theorem and_not_three (x : BitVec 32) : x &&& ~~~ (3 : BitVec 32) = BitVec.ofNat 32 (x.toNat - x.toNat % 4) := by
  have hmask : ∀ i : Fin 32, (~~~ (3 : BitVec 32)).getLsbD i = decide (2 ≤ i.val) := by decide
  have hshift : x &&& ~~~ (3 : BitVec 32) = (x >>> 2) <<< 2 := by
    apply BitVec.eq_of_getLsbD_eq
    intro i hi
    rw [BitVec.getLsbD_and, hmask ⟨i, hi⟩, BitVec.getLsbD_shiftLeft, BitVec.getLsbD_ushiftRight]
    by_cases h : 2 ≤ i
    · simp [h, hi, Nat.not_lt.2 h]
    · simp [h, Nat.not_le.1 h]
  rw [hshift]
  apply BitVec.eq_of_toNat_eq
  simp [Nat.shiftLeft_eq, Nat.shiftRight_eq_div_pow]
  omega

/-- Settles O8: a branch or jump is `muleJump`, which completes or faults by its target. -/
theorem muleBranchesAndJumps : Obligations.MuleBranchesAndJumps := by
  refine ⟨fun i s t w taken target hword hat hbranch => ?_, fun s t off hat => ?_, fun s t d a imm hat => ?_⟩
  · obtain ⟨f, hexec, hf⟩ := exec_branch hword hbranch
    refine ⟨f s, hexec.trans (onMule_at hat f), ?_⟩
    rw [hf]
    cases taken
    · exact muleWrote_muleNext s t
    · exact muleJump_outcome target rfl
  · exact ⟨_, onMule_at hat _, muleJump_outcome _ rfl⟩
  · have hinside : ∀ n : Nat, n < 2 ^ 32 → ((BitVec.ofNat 32 (n - n % 4)).toNat < 0x4000 ↔ n < 0x4000) := by
      intro n hn
      rw [BitVec.toNat_ofNat]
      omega
    refine ⟨_, onMule_at hat _, ?_⟩
    rw [and_not_three, if_congr (hinside _ (BitVec.isLt _)).symm rfl rfl]
    exact muleJump_outcome _ rfl

end Sys2Proof.Machine

/-! PROOFS. What accesses to the memories and records of the host link leave of a module's programs: the instruction
memories of tiles and their Mules, the shadows, the routes, the slots, and the registers of the frame and the load. -/

namespace Sys2Proof.Machine

/-! ### The programs of a state -/

/-- The programs of a state: what an image load reads or installs. -/
structure ProgView where
  tile : Nat → SMap (BitVec 256) × Mule
  shadow : SMap (BitVec 32)
  routes : List Route
  routesNext : Option (List Route)
  slotDigest : SMap (List (BitVec 8))
  load : Option Load
  reg : Nat → BitVec 32

/-- The windows FRM to COL and DMC to SEC, whose registers belong to the view. -/
abbrev progReg (o : Nat) : Prop := o < 0x70000 ∨ (0x80000 ≤ o ∧ o < 0xB0000)

/-- The values of these registers in a map of registers. -/
def progRegsOf (regs : SMap (BitVec 32)) (o : Nat) : BitVec 32 := if progReg o then mapGet (regReset o) regs o else 0

/-- The bundles and the Mule of each tile in a map of tiles. -/
def progTilesOf (tiles : SMap Tile) (u : Nat) : SMap (BitVec 256) × Mule :=
  ((mapGet tileReset tiles u).imem, (mapGet tileReset tiles u).mule)

/-- What a state holds of its programs. -/
def State.progs : State → ProgView
  | { tiles, regs, shadow, routes, routesNext, slotDigest, load, .. } =>
    ⟨progTilesOf tiles, shadow, routes, routesNext, slotDigest, load, progRegsOf regs⟩

@[simp] theorem progs_eta (s : State) : ProgView.mk (progTilesOf s.tiles) s.shadow s.routes s.routesNext s.slotDigest
    s.load (progRegsOf s.regs) = s.progs := rfl

/-- A state written out field by field, as an update of fields gives it, has the programs of those fields. -/
@[simp] theorem progs_mk : type_of% @State.progs.eq_1 := State.progs.eq_1

section
variable {s s' : State}

theorem progs_of_fields (htiles : s'.tiles = s.tiles := by rfl) (hregs : s'.regs = s.regs := by rfl)
    (hshadow : s'.shadow = s.shadow := by rfl) (hroutes : s'.routes = s.routes := by rfl)
    (hnext : s'.routesNext = s.routesNext := by rfl) (hdigest : s'.slotDigest = s.slotDigest := by rfl)
    (hload : s'.load = s.load := by rfl) : s'.progs = s.progs := by
  rw [← progs_eta, ← progs_eta, htiles, hregs, hshadow, hroutes, hnext, hdigest, hload]

theorem imem_of_progs (h : s'.progs = s.progs) (u : Nat) : (s'.tile u).imem = (s.tile u).imem :=
  congrArg Prod.fst (congrFun (congrArg ProgView.tile h) u)
theorem mule_of_progs (h : s'.progs = s.progs) (u : Nat) : (s'.tile u).mule = (s.tile u).mule :=
  congrArg Prod.snd (congrFun (congrArg ProgView.tile h) u)
theorem progs_shadow (h : s'.progs = s.progs) : s'.shadow = s.shadow := congrArg ProgView.shadow h
theorem progs_routes (h : s'.progs = s.progs) : s'.routes = s.routes := congrArg ProgView.routes h
theorem progs_routesNext (h : s'.progs = s.progs) : s'.routesNext = s.routesNext := congrArg ProgView.routesNext h
theorem progs_slotDigest (h : s'.progs = s.progs) : s'.slotDigest = s.slotDigest := congrArg ProgView.slotDigest h
theorem progs_load (h : s'.progs = s.progs) : s'.load = s.load := congrArg ProgView.load h

theorem reg_of_progs (h : s'.progs = s.progs) {o : Nat} (ho : progReg o) : s'.reg o = s.reg o := by
  have hreg : progRegsOf s'.regs o = progRegsOf s.regs o := congrFun (congrArg ProgView.reg h) o
  rwa [progRegsOf, progRegsOf, if_pos ho, if_pos ho] at hreg

end

@[simp] theorem progs_ite (c : Prop) [Decidable c] (s s' : State) :
    (if c then s else s').progs = if c then s.progs else s'.progs := apply_ite ..

@[simp] theorem progs_foldl {β : Type} {f : State → β → State} (h : ∀ s b, (f s b).progs = s.progs) (l : List β)
    (s : State) : (l.foldl f s).progs = s.progs := foldl_keeps State.progs (fun s b _ => h s b) s

@[simp] theorem progs_foldl_fst {α β : Type} {f : State × α → β → State × α} (h : ∀ s b, (f s b).1.progs = s.1.progs)
    (l : List β) (s : State × α) : (l.foldl f s).1.progs = s.1.progs :=
  foldl_keeps (fun x => x.1.progs) (fun s b _ => h s b) s

/-! ### Operations that leave the programs alone -/

section
variable (s : State)

@[simp] theorem progs_setReg {o : Nat} (v : BitVec 32) (h : ¬ progReg o) : (s.setReg o v).progs = s.progs := by
  have hregs : progRegsOf (s.setReg o v).regs = progRegsOf s.regs := by
    funext o'
    unfold progRegsOf
    split
    · next ho' => exact State.reg_setReg_ne s v fun e => h (e ▸ ho')
    · rfl
  rw [← progs_eta (s.setReg o v), hregs]
  rfl

@[simp] theorem progs_orReg {o : Nat} (v : BitVec 32) (h : ¬ progReg o) : (s.orReg o v).progs = s.progs :=
  progs_setReg s _ h

@[simp] theorem progs_setRegFld {o : Nat} (lo w x : Nat) (h : ¬ progReg o) : (s.setRegFld o lo w x).progs = s.progs :=
  progs_setReg s _ h

@[simp] theorem progs_incReg {o : Nat} (h : ¬ progReg o) : (s.incReg o).progs = s.progs := progs_setReg s _ h

@[simp] theorem progs_free : (s.free).2.progs = s.progs := progs_of_fields

@[simp] theorem progs_modTile (t : Nat) {f : Tile → Tile} (hf : ∀ x, (f x).imem = x.imem ∧ (f x).mule = x.mule) :
    (s.modTile t f).progs = s.progs := by
  have htiles : progTilesOf (s.modTile t f).tiles = progTilesOf s.tiles := by
    funext u
    obtain ⟨himem, hmule⟩ := hf (s.tile t)
    show (((s.modTile t f).tile u).imem, ((s.modTile t f).tile u).mule) = ((s.tile u).imem, (s.tile u).mule)
    rw [State.tile_modTile]
    split
    · next h => rw [h, himem, hmule]
    · rfl
  rw [← progs_eta (s.modTile t f), htiles]
  rfl

@[simp] theorem progs_modLink (l : Nat) (f : Link → Link) : (s.modLink l f).progs = s.progs := progs_of_fields

@[simp] theorem progs_recordFault (e : GEvent) : (recordFault s e).progs = s.progs := by
  simp (disch := simp only [GOS_REC_FAULT]; omega) [recordFault]

@[simp] theorem progs_localCount (e : GEvent) : (localCount s e).progs = s.progs := by
  unfold localCount
  split <;> simp (disch := simp only [GOS_L_EVENT, GOS_L_CORR, GOS_L_SUSPECT, GOS_L_HARD, regionBase]; omega)

@[simp] theorem progs_raise (e : GEvent) : (s.raise e).progs = s.progs := by simp [State.raise, State.raiseFrame]

@[simp] theorem progs_raiseTile (t : Nat) (k : EvKind) (detail : Nat) : (s.raiseTile t k detail).progs = s.progs := by
  simp [State.raiseTile]

@[simp] theorem progs_raiseRegion (r : Nat) (k : EvKind) (detail : Nat) :
    (s.raiseRegion r k detail).progs = s.progs := by
  simp [State.raiseRegion]

/-! ### Spaces 0 to 2 -/

@[simp] theorem progs_queueWriteBack (t word : Nat) : (queueWriteBack s t word).progs = s.progs := by
  have hregs : ¬ progReg (SPD_EVENT t) ∧ ¬ progReg (SPD_WB_DROP t) := by
    simp only [SPD_WB_DROP, SPD_EVENT, tileBase]
    omega
  simp [queueWriteBack, hregs]

@[simp] theorem progs_spadWordErr (t word : Nat) : (spadWordErr s t word).1.progs = s.progs := by
  simp only [spadWordErr]
  split
  · rfl
  · simp (disch := simp only [SPD_ECC_CORR, tileBase]; omega)
  · split
    · simp (disch := simp only [SPD_ECC_UNC, SPD_UNC_LINE, SPD_EVENT, tileBase]; omega)
    · rfl

@[simp] theorem progs_spadRead (t off n : Nat) : (s.spadRead t off n).1.progs = s.progs := by simp [State.spadRead]

@[simp] theorem progs_tapLine (t line : Nat) : (tapLine s t line).progs = s.progs := by
  unfold tapLine
  split <;> simp

@[simp] theorem progs_spadWriteLine (t off : Nat) (bs : List (BitVec 8)) (cause : Cause) :
    (spadWriteLine s t off bs cause).progs = s.progs := by
  simp [spadWriteLine]

@[simp] theorem progs_spadWrite (t off : Nat) (bs : List (BitVec 8)) (cs : List Cause) :
    (s.spadWrite t off bs cs).progs = s.progs := by
  simp [State.spadWrite]

@[simp] theorem progs_hbmLineErr (line : Nat) : (hbmLineErr s line).1.progs = s.progs := by
  unfold hbmLineErr
  split <;> simp (disch := simp only [HBM_ECC_CORR, HBM_ECC_UNC, HBM_UNC_ADDR_LO, HBM_UNC_ADDR_HI, hbmBase]; omega)

@[simp] theorem progs_ddrLineErr (line : Nat) : (ddrLineErr s line).1.progs = s.progs := by
  unfold ddrLineErr
  split <;> simp (disch := simp only [DDR_ECC_CORR, DDR_ECC_UNC, DDR_UNC_ADDR_LO, DDR_UNC_ADDR_HI, ddrBase]; omega)

@[simp] theorem progs_spaceRead (space off n : Nat) : (s.spaceRead space off n).1.progs = s.progs := by
  unfold State.spaceRead
  split <;> simp

@[simp] theorem progs_spaceWrite (space off : Nat) (bs : List (BitVec 8)) (cs : List Cause) :
    (s.spaceWrite space off bs cs).progs = s.progs := by
  unfold State.spaceWrite
  split <;> simp

/-! ### Records of the host link -/

@[simp] theorem progs_hostEmit (p : Nat) (pkt : HostPacket) : (s.hostEmit p pkt).progs = s.progs := by
  simp [State.hostEmit]

@[simp] theorem progs_sendRecord (p seq : Nat) (body : List (BitVec 8)) : (sendRecord s p seq body).progs = s.progs := by
  simp [sendRecord]

theorem progs_withHlk (h : Hlk) : ({ s with hlk := h } : State).progs = s.progs := rfl

@[simp] theorem progs_cplRecord (body : List (BitVec 8)) : (cplRecord s body).progs = s.progs := by
  unfold cplRecord
  dsimp only
  split <;> refine (progs_withHlk _ _).trans ?_ <;>
    simp (disch := simp only [HLK_CPL_SEQ, HLK_CPL_LOST, HLK_EVENT]; omega)

@[simp] theorem progs_descDone (num base : Nat) (notify mark : Bool) (cookie : BitVec 64) (status detail : Nat) :
    (descDone s num base notify mark cookie status detail).progs = s.progs := by
  simp (disch := simp only [HLK_RING_CONS, HLK_RING_STATUS]; omega) [descDone, ringPutCons, commandRecord]

@[simp] theorem progs_hostLoadEnded (code : Nat) : (hostLoadEnded s code).progs = s.progs := by
  unfold hostLoadEnded
  split <;> simp

end

end Sys2Proof.Machine

/-! PROOFS. O7: loads and stores of the Mule. The map of R149 decides each access; a load or store is then what its target
answers, and the end of the instruction. -/

namespace Sys2Proof.Machine

/-! ### The address map (R149) -/

section
variable {a n : Nat}

theorem muleTarget_of_aligned (hn : a % n = 0) : muleTarget a n
    = if a < 0x2000 then .dmem a
      else if 0x10000000 ≤ a ∧ a < 0x10100000 then .spad (a - 0x10000000)
      else if 0x20000000 ≤ a ∧ a < 0x20100000 ∧ n = 4 then .window (a - 0x20000000) else .fault faultAddr := by
  simp [muleTarget, hn]

theorem muleTarget_dmem (ha : a < 0x2000) (hn : a % n = 0) : muleTarget a n = .dmem a := by
  rw [muleTarget_of_aligned hn, if_pos ha]

theorem muleTarget_spad (hlo : 0x10000000 ≤ a) (hhi : a < 0x10100000) (hn : a % n = 0) :
    muleTarget a n = .spad (a - 0x10000000) := by
  rw [muleTarget_of_aligned hn, if_neg (by omega), if_pos ⟨hlo, hhi⟩]

theorem muleTarget_window (hlo : 0x20000000 ≤ a) (hhi : a < 0x20100000) (hn : a % 4 = 0) :
    muleTarget a 4 = .window (a - 0x20000000) := by
  rw [muleTarget_of_aligned hn, if_neg (by omega), if_neg (by omega), if_pos ⟨hlo, hhi, rfl⟩]

theorem muleTarget_outside (hdmem : ¬ a < 0x2000) (hspad : ¬ (0x10000000 ≤ a ∧ a < 0x10100000))
    (hwindow : ¬ (0x20000000 ≤ a ∧ a < 0x20100000 ∧ n = 4)) : muleTarget a n = .fault faultAddr := by
  rw [muleTarget, if_neg hdmem, if_neg hspad, if_neg hwindow]

theorem muleTarget_misaligned (hmap : a < 0x2000 ∨ (0x10000000 ≤ a ∧ a < 0x10100000)
    ∨ (0x20000000 ≤ a ∧ a < 0x20100000 ∧ n = 4)) (hn : a % n ≠ 0) : muleTarget a n = .fault faultMisaligned := by
  have h : muleTarget a n = if a < 0x2000 then .fault faultMisaligned
      else if 0x10000000 ≤ a ∧ a < 0x10100000 then .fault faultMisaligned
      else if 0x20000000 ≤ a ∧ a < 0x20100000 ∧ n = 4 then .fault faultMisaligned else .fault faultAddr := by
    simp [muleTarget, hn]
  rw [h]
  split_ifs with hdmem hspad hwindow
  · rfl
  · rfl
  · rfl
  · exact absurd hmap (by simp only [hdmem, hspad, hwindow, or_self, not_false_eq_true])

end

/-! ### The commands -/

/-- The end of a load, from what its target answers: the Mule faults, or writes the value as it is extended. -/
def loadEnds (t n : Nat) (sx : Bool) (d : BitVec 5) (r : State × Except Nat Nat) : State :=
  match r with
  | (s, .error c) => muleFault s t c
  | (s, .ok v) => muleDone s t d (if sx then BitVec.ofInt 32 (signed (8 * n) v) else BitVec.ofNat 32 v)

/-- The end of a store. -/
def storeEnds (t : Nat) (r : State × Option Nat) : State :=
  match r with
  | (s, some c) => muleFault s t c
  | (s, none) => muleNext s t

/-- A load runs `muleLoad`; it reads 1, 2 or 4 bytes, and 4 bytes are not extended. -/
theorem exec_load {i : Instr} {s : State} {t n : Nat} {w : BitVec 32} {sx : Bool} {d : BitVec 5} {addr : BitVec 32}
    (hword : muleWord i = some (t, w)) (hat : muleAt s t w) (hload : muleLoadOf s i = some (t, n, sx, d, addr)) :
    exec i s = .next (loadEnds t n sx d (muleLoad s t addr.toNat n))
      ∧ (n = 1 ∨ n = 2 ∨ n = 4 ∧ sx = false) := by
  unfold muleLoadOf at hload
  split at hload <;> cases hload <;> cases hword <;> exact ⟨onMule_at hat _, by simp⟩

/-- A store runs `muleStore`; it writes 1, 2 or 4 bytes. -/
theorem exec_store {i : Instr} {s : State} {t n : Nat} {w addr v : BitVec 32}
    (hword : muleWord i = some (t, w)) (hat : muleAt s t w) (hstore : muleStoreOf s i = some (t, n, addr, v)) :
    exec i s = .next (storeEnds t (muleStore s t addr.toNat n v)) ∧ (n = 1 ∨ n = 2 ∨ n = 4) := by
  unfold muleStoreOf at hstore
  split at hstore <;> cases hstore <;> cases hword <;> exact ⟨onMule_at hat _, by simp⟩

/-! ### Values -/

/-- The value that a load writes is what its bytes spell, extended as R151 says. -/
theorem extended_eq {n v : Nat} (hn : n = 1 ∨ n = 2 ∨ n = 4) (hv : v < 256 ^ n) (sx : Bool) :
    (if sx then BitVec.ofInt 32 (signed (8 * n) v) else BitVec.ofNat 32 v) = extended n sx v := by
  cases sx with
  | false => simp [extended]
  | true =>
    apply BitVec.eq_of_toNat_eq
    rcases hn with rfl | rfl | rfl <;> simp only [if_true, signed, extended, true_and] <;> split <;>
      split <;> simp only [BitVec.toNat_ofInt, BitVec.toNat_ofNat] <;> omega

/-! ### Registers that an event leaves alone (R370, R397) -/

/-- The registers that an event of region `r` can write. -/
def eventRegs (r : Nat) : List Nat := [GOS_L_EVENT r, GOS_L_CORR r, GOS_L_SUSPECT r, GOS_L_HARD r, GOS_REC_FAULT]

theorem reg_localCount (s : State) (e : GEvent) {o : Nat} (h : o ∉ eventRegs e.region) :
    (localCount s e).reg o = s.reg o := by
  simp only [eventRegs, List.mem_cons, List.not_mem_nil, or_false, not_or] at h
  obtain ⟨hevent, hcorr, hsuspect, hhard, hfault⟩ := h
  unfold localCount
  split
  · rw [State.reg_incReg, if_neg hcorr, State.reg_orReg, if_neg hevent]
  · rw [State.reg_incReg, if_neg hsuspect, State.reg_orReg, if_neg hevent]
  · rw [reg_recordFault _ _ hfault, State.reg_incReg, if_neg hhard, State.reg_orReg, if_neg hevent]
  · rfl
  · exact reg_recordFault _ _ hfault

theorem reg_raise (s : State) (e : GEvent) {o : Nat} (h : o ∉ eventRegs e.region) : (s.raise e).reg o = s.reg o := by
  rw [← reg_localCount s e h]
  unfold State.raise State.raiseFrame
  split <;> rfl

/-- Registers of a tile whose offset within its window differs from the event registers' within a region's. -/
theorem tileReg_not_mem_eventRegs (t r : Nat) {k : Nat} (h : k % 0x10000 < 0x8000 ∨ 0x8010 < k % 0x10000) :
    tileBase t + k ∉ eventRegs r := by
  simp only [eventRegs, GOS_L_EVENT, GOS_L_CORR, GOS_L_SUSPECT, GOS_L_HARD, GOS_REC_FAULT, tileBase, regionBase,
    List.mem_cons, List.not_mem_nil, or_false, not_or]
  omega

/-! ### Loads -/

section
variable {s : State} {t a n : Nat} {sx : Bool} {d : BitVec 5}

/-- A load that its target answers with a fault. -/
theorem loadEnds_error (s : State) (c : Nat) : muleFaulted s (loadEnds t n sx d (s, .error c)) t c :=
  muleFaulted_muleFault s t c

theorem loadEnds_ok (hn : n = 1 ∨ n = 2 ∨ n = 4) (s : State) {v : Nat} (hv : v < 256 ^ n) :
    muleWrote s (loadEnds t n sx d (s, .ok v)) t d (extended n sx v) ((s.tile t).mule.pc + 4) := by
  rw [← extended_eq hn hv]
  exact muleWrote_muleDone ..

theorem muleLoad_fault {c : Nat} (h : muleTarget a n = .fault c) : muleLoad s t a n = (s, .error c) := by
  rw [muleLoad, h]

/-- What `n` bytes of a Mule's data memory spell. -/
def dmemValue (s : State) (t a n : Nat) : Nat :=
  leNat ((List.range n).map fun k => mapGet 0 (s.tile t).mule.dmem (a + k))

theorem leNat_map_range_lt (f : Nat → BitVec 8) (n : Nat) : leNat ((List.range n).map f) < 256 ^ n := by
  simpa using leNat_lt ((List.range n).map f)

theorem muleLoad_dmem (ha : a < 0x2000) (hn : a % n = 0) : muleLoad s t a n
    = match mapFind (s.tile t).mule.dmemErr (a / 4) with
      | some .double => (s, .error faultData)
      | some .single => ((s.incReg (MUL_ECC_CORR t)).raiseTile t .eccCorr 0, .ok (dmemValue s t a n))
      | none => (s, .ok (dmemValue s t a n)) := by
  rw [muleLoad, muleTarget_dmem ha hn]
  rfl

/-- What `n` bytes of a tile's slice spell. -/
def sliceValue (s : State) (t off n : Nat) : Nat :=
  leNat ((List.range n).map fun k => memGet s.spad (spadOff t (off + k)))

theorem spadRead_bytes (s : State) (t off n : Nat) :
    (s.spadRead t off n).2.bytes = (List.range n).map fun k => memGet s.spad (spadOff t (off + k)) := by
  have hbytes : (s.spadRead t off n).2.bytes
      = (List.range n).map fun k => memGet (s.spadRead t off n).1.spad (spadOff t (off % sliceBytes + k)) := rfl
  have hspad : (s.spadRead t off n).1.spad = s.spad := congrArg Memories.spad (mems_spadRead s t off n)
  rw [hbytes, hspad]
  simp only [spadOff, Nat.mod_add_mod]

theorem muleLoad_spad {off : Nat} (h : muleTarget a n = .spad off) :
    muleLoad s t a n = ((s.spadRead t off n).1, if causeJoinAll (s.spadRead t off n).2.causes = .none
      then .ok (sliceValue s t off n) else .error faultData) := by
  rw [muleLoad, h, sliceValue, ← spadRead_bytes]
  dsimp only
  split <;> rfl

theorem muleLoad_window {off : Nat} (h : muleTarget a n = .window off) :
    muleLoad s t a n = ((tileRead s (.mule t) t off).1, if (tileRead s (.mule t) t off).2.1 = stDone
      then .ok (tileRead s (.mule t) t off).2.2.toNat else .error faultAddr) := by
  rw [muleLoad, h]
  dsimp only
  split <;> rfl

/-- The tile and its Mule are as before a read of a register of their own. -/
theorem tile_tileRead (s : State) (m : Master) (t o u : Nat) : (tileRead s m t o).1.tile u = s.tile u := by
  unfold tileRead
  split
  · rfl
  · next g _ =>
    dsimp only
    split
    · rfl
    · exact State.tile_of_tiles (by simpa using congrArg State.tiles (regReadEffect_frame s m (tileBase t + o) _ _ g)) u

@[simp] theorem tile_raiseTile_incReg (s : State) (o t u : Nat) (k : EvKind) (detail : Nat) :
    ((s.incReg o).raiseTile t k detail).tile u = s.tile u := raise_tile ..

/-- The clause of a load from data memory (R149, R164). -/
theorem load_dmem (hn : n = 1 ∨ n = 2 ∨ n = 4) (ha : a < 0x2000) (hal : a % n = 0) :
    let s' := loadEnds t n sx d (muleLoad s t a n)
    let v := extended n sx (dmemValue s t a n)
    let pc := (s.tile t).mule.pc
    (mapFind (s.tile t).mule.dmemErr (a / 4) = none → muleWrote s s' t d v (pc + 4))
    ∧ (mapFind (s.tile t).mule.dmemErr (a / 4) = some .single →
        s'.sreg t d = (if d = 0 then 0 else v) ∧ (s'.tile t).mule.pc = pc + 4
          ∧ (s'.reg (MUL_ECC_CORR t)).toNat = min ((s.reg (MUL_ECC_CORR t)).toNat + 1) (2 ^ 32 - 1))
    ∧ (mapFind (s.tile t).mule.dmemErr (a / 4) = some .double → muleFaulted s s' t faultData) := by
  have hlt : dmemValue s t a n < 256 ^ n := leNat_map_range_lt _ n
  dsimp only
  rw [muleLoad_dmem ha hal]
  refine ⟨fun herr => ?_, fun herr => ?_, fun herr => ?_⟩ <;> rw [herr]
  · exact loadEnds_ok hn s hlt
  · generalize hs1 : (s.incReg (MUL_ECC_CORR t)).raiseTile t .eccCorr 0 = s1
    have htile : s1.tile t = s.tile t := hs1 ▸ tile_raiseTile_incReg ..
    obtain ⟨hd, -, hmule, honly, -⟩ := loadEnds_ok (t := t) (sx := sx) (d := d) hn s1 hlt
    rw [htile] at hmule
    refine ⟨hd, congrArg Mule.pc hmule, ?_⟩
    rw [State.reg_of_regs (by simpa using congrArg State.regs honly), ← hs1, State.raiseTile,
      
      reg_raise (o := MUL_ECC_CORR t) _ _ (tileReg_not_mem_eventRegs t _ (k := 0x6020) (by decide)),
      State.reg_incReg, if_pos rfl, toNat_sat]
  · exact loadEnds_error s faultData

/-- The clause of a load from the tile's own slice (R149, R164). -/
theorem load_spad (hn : n = 1 ∨ n = 2 ∨ n = 4) {off : Nat} (h : muleTarget a n = .spad off) :
    let s' := loadEnds t n sx d (muleLoad s t a n)
    let r := s.spadRead t off n
    (causeJoinAll r.2.causes = .none →
      muleWrote r.1 s' t d (extended n sx (sliceValue s t off n)) ((s.tile t).mule.pc + 4))
    ∧ (causeJoinAll r.2.causes ≠ .none → muleFaulted r.1 s' t faultData) := by
  dsimp only
  rw [muleLoad_spad h]
  refine ⟨fun hc => ?_, fun hc => ?_⟩
  · rw [if_pos hc, ← mule_of_progs (progs_spadRead s t off n) t]
    exact loadEnds_ok hn _ (leNat_map_range_lt _ n)
  · rw [if_neg hc]
    exact loadEnds_error _ _

/-- The clause of a load from the tile's registers, by words (R149, R164). -/
theorem load_window {off : Nat} (h : muleTarget a 4 = .window off) :
    let s' := loadEnds t 4 false d (muleLoad s t a 4)
    let r := tileRead s (.mule t) t off
    (r.2.1 = stDone → muleWrote r.1 s' t d r.2.2 ((s.tile t).mule.pc + 4))
    ∧ (r.2.1 ≠ stDone → muleFaulted r.1 s' t faultAddr) := by
  dsimp only
  rw [muleLoad_window h]
  refine ⟨fun hst => ?_, fun hst => ?_⟩
  · have hvalue : extended 4 false (tileRead s (.mule t) t off).2.2.toNat = (tileRead s (.mule t) t off).2.2 := by
      simp [extended]
    have hwrote := loadEnds_ok (t := t) (sx := false) (d := d) (.inr (.inr rfl)) (tileRead s (.mule t) t off).1
      (BitVec.isLt (tileRead s (.mule t) t off).2.2)
    rw [hvalue, tile_tileRead] at hwrote
    rwa [if_pos hst]
  · rw [if_neg hst]
    exact loadEnds_error _ _

theorem load_fault {c : Nat} (h : muleTarget a n = .fault c) :
    muleFaulted s (loadEnds t n sx d (muleLoad s t a n)) t c := by
  rw [muleLoad_fault h]
  exact loadEnds_error s c

end

/-! ### Stores -/

/-- Bytes written one after the other from an address are what a map reads there. -/
theorem mapGet_foldl_bytes (m : SMap (BitVec 8)) (off : Nat) (bs : List (BitVec 8)) (x : Nat) :
    mapGet 0 (((List.range bs.length).zip bs).foldl (fun d e => mapSet 0 d (off + e.1) e.2) m) x
      = if off ≤ x ∧ x < off + bs.length then bs.getD (x - off) 0 else mapGet 0 m x := by
  induction bs using List.reverseRecOn with
  | nil => rw [if_neg (by simp)]; rfl
  | append_singleton bs b ih =>
    rw [List.length_append, List.length_singleton, List.range_succ, List.zip_append (by simp), List.foldl_append]
    simp only [List.zip_cons_cons, List.zip_nil_right, List.foldl_cons, List.foldl_nil]
    rw [mapGet_mapSet, ih]
    by_cases hx : x = off + bs.length
    · subst hx
      rw [if_pos rfl, if_pos (by omega), Nat.add_sub_cancel_left]
      simp
    · rw [if_neg hx]
      by_cases hin : off ≤ x ∧ x < off + bs.length
      · rw [if_pos hin, if_pos (by omega), List.getD_append _ _ _ _ (by omega)]
      · rw [if_neg hin, if_neg (by omega)]

theorem getD_leBytes {n k : Nat} (hk : k < n) (x : Nat) : (leBytes n x).getD k 0 = BitVec.ofNat 8 (x / 256 ^ k) := by
  induction n generalizing k x with
  | zero => omega
  | succ n ih =>
    cases k with
    | zero => simp [leBytes]
    | succ k =>
      rw [leBytes, List.getD_cons_succ, ih (by omega), Nat.div_div_eq_div_mul, Nat.pow_succ']

section
variable {s : State} {t a n : Nat} {v : BitVec 32}

theorem storeEnds_error (s : State) (c : Nat) : muleFaulted s (storeEnds t (s, some c)) t c :=
  muleFaulted_muleFault s t c

theorem store_fault {c : Nat} (h : muleTarget a n = .fault c) :
    muleFaulted s (storeEnds t (muleStore s t a n v)) t c := by
  rw [muleStore, h]
  exact storeEnds_error s c

theorem onlyMule.trans {s1 s2 : State} (h : onlyMule s s1 t) (h' : onlyMule s1 s2 t) : onlyMule s s2 t := by
  obtain ⟨htiles, hothers, htile⟩ := h
  obtain ⟨htiles', hothers', htile'⟩ := h'
  exact ⟨htiles.trans htiles', hothers.trans hothers',
    (congrArg (fun x : Tile => { x with mule := (s.tile t).mule }) htile').trans htile⟩

theorem muleBecame_muleNext (s : State) (t : Nat) :
    muleBecame s (muleNext s t) t { (s.tile t).mule with pc := (s.tile t).mule.pc + 4 } := muleBecame_modMule ..

/-- The clause of a store to data memory (R149, R151). -/
theorem store_dmem (h : muleTarget a n = .dmem a) :
    let s' := storeEnds t (muleStore s t a n v)
    onlyMule s s' t ∧ (s'.tile t).mule.pc = (s.tile t).mule.pc + 4 ∧ (∀ r, s'.sreg t r = s.sreg t r)
      ∧ ∀ x, mapGet 0 (s'.tile t).mule.dmem x
          = if a ≤ x ∧ x < a + n then BitVec.ofNat 8 (v.toNat / 256 ^ (x - a)) else mapGet 0 (s.tile t).mule.dmem x := by
  dsimp only
  have hstore : storeEnds t (muleStore s t a n v) = muleNext (muleDmemWrite s t a (leBytes n v.toNat)) t := by
    rw [muleStore, h]
    rfl
  obtain ⟨hwrite, honly⟩ := muleBecame_modMule s t fun m => { m with
    dmem := ((List.range (leBytes n v.toNat).length).zip (leBytes n v.toNat)).foldl
      (fun d e => mapSet 0 d (a + e.1) e.2) m.dmem
    dmemErr := if (leBytes n v.toNat).length = 4 then mapDel m.dmemErr (a / 4) else m.dmemErr }
  obtain ⟨hnext, honly'⟩ := muleBecame_muleNext (muleDmemWrite s t a (leBytes n v.toNat)) t
  rw [muleDmemWrite, hwrite] at hnext
  rw [hstore, muleDmemWrite]
  refine ⟨honly.trans honly', congrArg Mule.pc hnext, fun r => ?_, fun x => ?_⟩
  · rw [State.sreg, hnext]
    rfl
  · rw [hnext, mapGet_foldl_bytes, length_leBytes]
    refine if_ctx_congr Iff.rfl (fun hx => getD_leBytes (by omega) _) (fun _ => rfl)

/-- The tap digests lie in tiles (R379). -/
theorem onlyTiles_tapLine (s : State) (t line : Nat) : onlyTiles s (tapLine s t line) := by
  unfold tapLine
  split
  · rfl
  · refine foldl_keeps (fun x : State => { x with tiles := s.tiles }) (fun x k _ => ?_) s
    dsimp only
    split <;> rfl

/-- A write to a slice changes the slices, their marks and errors, and tiles. -/
theorem spadWrite_frame (s : State) (t off : Nat) (bs : List (BitVec 8)) (cs : List Cause) :
    { s.spadWrite t off bs cs with spad := s.spad, spadMark := s.spadMark, spadErr := s.spadErr, tiles := s.tiles }
      = s := by
  have hline : ∀ (x : State) off bs cause, { spadWriteLine x t off bs cause with
      spad := s.spad, spadMark := s.spadMark, spadErr := s.spadErr, tiles := s.tiles }
        = { x with spad := s.spad, spadMark := s.spadMark, spadErr := s.spadErr, tiles := s.tiles } :=
    fun x off bs cause => congrArg (fun y : State => { y with
      spad := s.spad, spadMark := s.spadMark, spadErr := s.spadErr, tiles := s.tiles }) (onlyTiles_tapLine _ t (off / 64))
  unfold State.spadWrite
  dsimp only
  split
  · rfl
  · exact foldl_keeps (fun x : State => { x with
      spad := s.spad, spadMark := s.spadMark, spadErr := s.spadErr, tiles := s.tiles }) (fun x i _ => hline x _ _ _) s

/-- The clause of a store to the tile's own slice (R149, R151). -/
theorem store_spad {off : Nat} (h : muleTarget a n = .spad off) (hn : 0 < n) (hin : off + n ≤ sliceBytes) :
    let s' := storeEnds t (muleStore s t a n v)
    let b := spadOff t off
    (s'.tile t).mule = { (s.tile t).mule with pc := (s.tile t).mule.pc + 4 } ∧ sameTilesBut s s' [t]
      ∧ { s' with spad := s.spad, spadMark := s.spadMark, spadErr := s.spadErr, tiles := s.tiles } = s
      ∧ ∀ x, memGet s'.spad x
          = if b ≤ x ∧ x < b + n then BitVec.ofNat 8 (v.toNat / 256 ^ (x - b)) else memGet s.spad x := by
  dsimp only
  have hstore : storeEnds t (muleStore s t a n v) = muleNext (s.spadWrite t off (leBytes n v.toNat) []) t := by
    rw [muleStore, h]
    rfl
  obtain ⟨hnext, honly, hothers, -⟩ := muleBecame_muleNext (s.spadWrite t off (leBytes n v.toNat) []) t
  have hmule := mule_of_progs (progs_spadWrite s t off (leBytes n v.toNat) []) t
  have hspad : (muleNext (s.spadWrite t off (leBytes n v.toNat) []) t).spad
      = (s.spadWrite t off (leBytes n v.toNat) []).spad := rfl
  have hoff : spadOff t off = t * sliceBytes + off := by rw [spadOff, Nat.mod_eq_of_lt (by omega)]
  rw [hstore]
  refine ⟨by rw [hnext, hmule], (sameTilesBut_of_landView (landView_spadWrite s t off _ _)).trans hothers,
    spadWrite_frame s t off _ _, fun x => ?_⟩
  rw [hspad, memGet_spadWrite (by rwa [length_leBytes]), length_leBytes, hoff]
  exact if_ctx_congr Iff.rfl (fun hx => getD_leBytes (by omega) _) (fun _ => rfl)

/-- The clause of a store to the tile's registers (R149, R151). -/
theorem store_window {off : Nat} (h : muleTarget a n = .window off) :
    let s' := storeEnds t (muleStore s t a n v)
    let r := tileWrite s (.mule t) t off v
    (r.2 = stDone → onlyMule r.1 s' t ∧ (s'.tile t).mule = { (r.1.tile t).mule with pc := (r.1.tile t).mule.pc + 4 })
    ∧ (r.2 ≠ stDone → muleFaulted r.1 s' t faultAddr) := by
  dsimp only
  have hstore : storeEnds t (muleStore s t a n v) = storeEnds t ((tileWrite s (.mule t) t off v).1,
      if (tileWrite s (.mule t) t off v).2 = stDone then none else some faultAddr) := by
    rw [muleStore, h]
  rw [hstore]
  refine ⟨fun hst => ?_, fun hst => ?_⟩
  · rw [if_pos hst]
    exact (muleBecame_muleNext _ t).symm
  · rw [if_neg hst]
    exact storeEnds_error _ _

end

/-! ### The statement -/

/-- Settles O7: the target of an access decides its clause. -/
theorem muleMemoryAccesses : Obligations.MuleMemoryAccesses := by
  refine ⟨fun i s t w n sx d addr hword hat hload => ?_, fun i s t w n addr v hword hat hstore => ?_⟩
  · obtain ⟨hexec, hn⟩ := exec_load hword hat hload
    have hn' : n = 1 ∨ n = 2 ∨ n = 4 := hn.imp_right (Or.imp_right And.left)
    dsimp only
    refine ⟨fun ha hal => ?_, fun hlo hhi hal => ?_, fun hlo hhi hfour hal => ?_, fun hdmem hspad hwindow => ?_,
      fun hmap hal => ?_⟩
    · obtain ⟨hclean, hsingle, hdouble⟩ := load_dmem (s := s) (t := t) (sx := sx) (d := d) hn' ha hal
      exact ⟨fun h => ⟨_, hexec, hclean h⟩, fun h => ⟨_, hexec, hsingle h⟩, fun h => ⟨_, hexec, hdouble h⟩⟩
    · obtain ⟨hclean, herror⟩ := load_spad (s := s) (t := t) (sx := sx) (d := d) hn' (muleTarget_spad hlo hhi hal)
      exact ⟨fun h => ⟨_, hexec, hclean h⟩, fun h => ⟨_, hexec, herror h⟩⟩
    · obtain rfl : sx = false := ((hn.resolve_left (by omega)).resolve_left (by omega)).2
      subst hfour
      obtain ⟨hdone, hfailed⟩ := load_window (s := s) (t := t) (d := d) (muleTarget_window hlo hhi hal)
      exact ⟨fun h => ⟨_, hexec, hdone h⟩, fun h => ⟨_, hexec, hfailed h⟩⟩
    · exact ⟨_, hexec, load_fault (muleTarget_outside hdmem hspad hwindow)⟩
    · exact ⟨_, hexec, load_fault (muleTarget_misaligned hmap hal)⟩
  · obtain ⟨hexec, hn⟩ := exec_store hword hat hstore
    dsimp only
    refine ⟨fun ha hal => ?_, fun hlo hhi hal => ?_, fun hlo hhi hfour hal => ?_, fun hdmem hspad hwindow => ?_,
      fun hmap hal => ?_⟩
    · exact ⟨_, hexec, store_dmem (muleTarget_dmem ha hal)⟩
    · refine ⟨_, hexec, store_spad (muleTarget_spad hlo hhi hal) (by omega) ?_⟩
      unfold sliceBytes
      rcases hn with rfl | rfl | rfl <;> omega
    · subst hfour
      obtain ⟨hdone, hfailed⟩ := store_window (s := s) (t := t) (v := v) (muleTarget_window hlo hhi hal)
      exact ⟨fun h => ⟨_, hexec, hdone h⟩, fun h => ⟨_, hexec, hfailed h⟩⟩
    · exact ⟨_, hexec, store_fault (muleTarget_outside hdmem hspad hwindow)⟩
    · exact ⟨_, hexec, store_fault (muleTarget_misaligned hmap hal)⟩

end Sys2Proof.Machine

/-! PROOFS. O9: WAIT and its end, SIG, FENCE, HALT and CYC of the Mule. -/

namespace Sys2Proof.Machine

/-! ### Scalar registers after an instruction -/

/-- A Mule whose registers are those of a register write reads so (R148). -/
theorem sreg_of_muleSet {s s' : State} {t : Nat} {d : BitVec 5} {v : BitVec 32}
    (h : (s'.tile t).mule.regs = (muleSet (s.tile t).mule d v).regs) :
    s'.sreg t d = (if d = 0 then 0 else v) ∧ ∀ r, r ≠ d → s'.sreg t r = s.sreg t r := by
  have hread : ∀ r, s'.sreg t r = if r = 0 then 0 else if r = d then v else s.sreg t r := by
    intro r
    have hregs : muleReg (s'.tile t).mule r = muleReg (muleSet (s.tile t).mule d v) r := by
      rw [muleReg, muleReg, h]
    rw [State.sreg, hregs, muleReg_muleSet]
    rfl
  refine ⟨?_, fun r hr => ?_⟩
  · rw [hread, if_pos rfl]
  · rw [hread, if_neg hr]
    split
    · next h0 => rw [h0]; rfl
    · rfl

/-! ### Semaphores (R155, R157, R276) -/

theorem State.sem_lt (s : State) (t n : Nat) : s.sem t n < 65536 := Nat.mod_lt _ (by decide)

theorem sem_setSem (s : State) (t n : Nat) {v : Nat} (hv : v < 65536) : (s.setSem t n v).sem t n = v := by
  rw [State.sem, State.setSem, State.reg_setReg_same, fld, BitVec.toNat_ofNat]
  omega

theorem sem_takeSem (s : State) (t n : Nat) : (s.takeSem t n).sem t n = s.sem t n - 1 :=
  sem_setSem s t n (by have := s.sem_lt t n; omega)

/-- The end of a WAIT (R157). -/
theorem waitEnded_waitEnds (s : State) (t n : Nat) (d : BitVec 5) : waitEnded s (waitEnds s t n d) t n d := by
  have hsem := sem_takeSem s t n
  obtain ⟨hmule, honly, hothers, htile⟩ := muleBecame_modMule (s.takeSem t n) t fun m =>
    { muleSet m d (BitVec.ofNat 32 ((s.takeSem t n).sem t n)) with
      pc := m.pc + 4
      state := if m.inHandler then .handler else .running
      waitSem := none }
  have hends : waitEnds s t n d = (s.takeSem t n).modMule t fun m =>
      { muleSet m d (BitVec.ofNat 32 ((s.takeSem t n).sem t n)) with
        pc := m.pc + 4
        state := if m.inHandler then .handler else .running
        waitSem := none } := rfl
  rw [← hends] at hmule honly hothers htile
  have hregs : ((waitEnds s t n d).tile t).mule.regs
      = (muleSet (s.tile t).mule d (BitVec.ofNat 32 ((s.takeSem t n).sem t n))).regs := by rw [hmule]; rfl
  obtain ⟨hd, hr⟩ := sreg_of_muleSet hregs
  refine ⟨hsem, sameRegsBut_setReg s _ _, hsem ▸ hd, hr, ?_, htile, hothers, ?_⟩
  · rw [hmule]
    unfold muleSet
    split <;> rfl
  · rfl

/-- The state with a signal's sum in the semaphore, before a saturation is recorded. -/
def State.addSem (s : State) (t n inc : Nat) : State :=
  let s1 := s.setSem t n (min (s.sem t n + inc) 65535)
  if s.sem t n = 0 ∧ 0 < inc then s1.modTile t fun x => { x with semRose := mapPut x.semRose n x.ctl.cycle } else s1

section
variable (s : State) (t n inc : Nat)

theorem signalSem_of_le (h : s.sem t n + inc ≤ 65535) : s.signalSem t n inc = s.addSem t n inc :=
  if_neg (Nat.not_lt.2 h)

theorem signalSem_of_lt (h : 65535 < s.sem t n + inc) : s.signalSem t n inc
    = (((s.addSem t n inc).orReg (SYN_EVENT t) 1).setReg (SYN_SAT t) (BitVec.ofNat 32 n)).raiseTile t .semSat n :=
  if_pos h

theorem addSem_reg (o : Nat) :
    (s.addSem t n inc).reg o = (s.setSem t n (min (s.sem t n + inc) 65535)).reg o := by
  unfold State.addSem
  dsimp only
  split <;> rfl

theorem addSem_frame : onlyTilesRegs s (s.addSem t n inc) ∧ sameTilesBut s (s.addSem t n inc) [t]
    ∧ ((s.addSem t n inc).tile t).mule = (s.tile t).mule := by
  unfold State.addSem
  dsimp only
  split
  · refine ⟨rfl, sameTilesBut_modTile _ t _, ?_⟩
    rw [State.tile_modTile_same]
    rfl
  · exact ⟨rfl, fun _ _ => rfl, rfl⟩

/-- The record of a saturation writes registers and raises an event. -/
theorem satRecord_frame (a b : Nat) (x y : BitVec 32) (e : GEvent) :
    (((s.orReg a x).setReg b y).raise e).tiles = s.tiles ∧ onlyEvents s (((s.orReg a x).setReg b y).raise e) := by
  refine ⟨raise_tiles _ _, ?_⟩
  have h := congrArg (fun z : State => { z with
    tiles := s.tiles, regs := s.regs, events := s.events, closed := s.closed })
    (raise_frame ((s.orReg a x).setReg b y) e)
  unfold onlyEvents
  exact h

theorem signalSem_tiles : (s.signalSem t n inc).tiles = (s.addSem t n inc).tiles := by
  by_cases h : s.sem t n + inc ≤ 65535
  · rw [signalSem_of_le s t n inc h]
  · rw [signalSem_of_lt s t n inc (Nat.not_le.1 h)]
    exact (satRecord_frame ..).1

theorem onlyEvents_of_onlyTilesRegs {s s1 s2 : State} (h : onlyTilesRegs s s1) (h' : onlyEvents s1 s2) :
    onlyEvents s s2 := by
  have hevents : s1.events = s.events := by simpa using congrArg State.events h
  have hclosed : s1.closed = s.closed := by simpa using congrArg State.closed h
  unfold onlyTilesRegs onlyEvents at *
  rw [hevents, hclosed] at h'
  exact (congrArg (fun x : State => { x with tiles := s.tiles, regs := s.regs }) h').trans h

theorem onlyEvents_refl : onlyEvents s s := rfl

theorem signalSem_onlyEvents : onlyEvents s (s.signalSem t n inc) := by
  refine onlyEvents_of_onlyTilesRegs (addSem_frame s t n inc).1 ?_
  by_cases h : s.sem t n + inc ≤ 65535
  · rw [signalSem_of_le s t n inc h]
    exact onlyEvents_refl _
  · rw [signalSem_of_lt s t n inc (Nat.not_le.1 h)]
    exact (satRecord_frame ..).2

/-- A signal adds its increment to the semaphore, which stays at 65,535 (R276). -/
theorem sem_signalSem (hn : n < 32) : (s.signalSem t n inc).sem t n = min (s.sem t n + inc) 65535 := by
  have hadd : (s.addSem t n inc).sem t n = min (s.sem t n + inc) 65535 := by
    rw [State.sem, addSem_reg, ← State.sem, sem_setSem _ _ _ (by omega)]
  by_cases h : s.sem t n + inc ≤ 65535
  · rw [signalSem_of_le s t n inc h, hadd]
  · have hoff : SYN_SEM t n = tileBase t + (0xA000 + 4 * n) := by unfold SYN_SEM; omega
    have hevent : SYN_SEM t n ≠ SYN_EVENT t := by unfold SYN_SEM SYN_EVENT; omega
    have hsat : SYN_SEM t n ≠ SYN_SAT t := by unfold SYN_SEM SYN_SAT; omega
    rw [signalSem_of_lt s t n inc (Nat.not_le.1 h), State.sem, State.raiseTile,
      reg_raise _ _ (hoff ▸ tileReg_not_mem_eventRegs t _ (by omega)), State.reg_setReg_ne _ _ hsat, State.reg_orReg,
      if_neg hevent, ← State.sem, hadd]

/-- A saturation records the semaphore (R276). -/
theorem synSat_signalSem (h : 65535 < s.sem t n + inc) :
    (s.signalSem t n inc).reg (SYN_SAT t) = BitVec.ofNat 32 n := by
  rw [signalSem_of_lt s t n inc h, State.raiseTile,
    reg_raise (o := SYN_SAT t) _ _ (tileReg_not_mem_eventRegs t _ (k := 0xA098) (by decide)), State.reg_setReg_same]

theorem signalSem_unsaturated (h : s.sem t n + inc ≤ 65535) :
    (s.signalSem t n inc).events = s.events ∧ sameRegsBut s (s.signalSem t n inc) [SYN_SEM t n] := by
  rw [signalSem_of_le s t n inc h]
  obtain ⟨hframe, -, -⟩ := addSem_frame s t n inc
  refine ⟨by simpa using congrArg State.events hframe, fun o ho => ?_⟩
  rw [addSem_reg]
  exact sameRegsBut_setReg s _ _ o ho

end

/-! ### SIG (R158) -/

section
variable {s : State} {t : Nat} {target inc : BitVec 32}

theorem bit_fifteen (target : BitVec 32) : bit target 15 = true ↔ target.toNat / 2 ^ 15 % 2 = 1 := by
  simp [bit, fld]

theorem muleSig_device (h : target.toNat / 2 ^ 15 % 2 = 1) :
    muleSig s t target inc = muleNext { s with dsigs := s.dsigs ++ [(target.toNat % 256, inc.toNat)] } t := by
  rw [muleSig, if_pos ((bit_fifteen target).2 h)]
  simp [fld]

theorem muleSig_tile (h : ¬ target.toNat / 2 ^ 15 % 2 = 1) : muleSig s t target inc
    = if s.tileCount ≤ target.toNat / 32 % 1024 then muleFault s t faultAddr
      else if target.toNat / 32 % 1024 = t then muleNext (s.signalSem t (target.toNat % 32) inc.toNat) t
      else muleNext (s.modTile (target.toNat / 32 % 1024) fun x =>
        { x with sigs := x.sigs ++ [⟨target.toNat % 32, inc.toNat, none⟩] }) t := by
  have hfld : fld target 0 16 / 2 ^ 15 % 2 = 0 ∧ fld target 0 16 / 32 % 1024 = target.toNat / 32 % 1024
      ∧ fld target 0 16 % 32 = target.toNat % 32 := by
    unfold fld
    omega
  obtain ⟨hbit, htile, hsem⟩ := hfld
  have hu : fld target 5 10 = target.toNat / 32 % 1024 := rfl
  have hn : fld target 0 5 = target.toNat % 32 := by simp [fld]
  rw [muleSig, if_neg (fun e => h ((bit_fifteen target).1 e)), hu, hn]
  dsimp only
  split
  · rfl
  · next hlt => rw [signalTarget, htile, hsem, hbit, if_neg zero_ne_one, if_pos (Nat.not_le.1 hlt)]

end

/-- The clauses of SIG on a tile semaphore of another tile: the signal is on its way there (R158, R276). -/
theorem signal_otherTile {s s1 s' : State} {t u : Nat} (g : Sig) (hu : u ≠ t) (honly : onlyTiles s s1)
    (hothers : sameTilesBut s s1 [u]) (htile : s1.tile u = { s.tile u with sigs := (s.tile u).sigs ++ [g] })
    (hnext : muleBecame s1 s' t { (s1.tile t).mule with pc := (s1.tile t).mule.pc + 4 }) :
    (s'.tile u).sigs = (s.tile u).sigs ++ [g]
      ∧ (s'.tile t).mule = { (s.tile t).mule with pc := (s.tile t).mule.pc + 4 }
      ∧ { s'.tile u with sigs := (s.tile u).sigs } = s.tile u ∧ { s'.tile t with mule := (s.tile t).mule } = s.tile t
      ∧ sameTilesBut s s' [t, u] ∧ onlyTiles s s' := by
  obtain ⟨hmule, honly', hothers', htile'⟩ := hnext
  have hself : s1.tile t = s.tile t := hothers t (by simpa using hu.symm)
  have hother : s'.tile u = { s.tile u with sigs := (s.tile u).sigs ++ [g] } :=
    (hothers' u (by simpa using hu)).trans htile
  rw [hself] at hmule htile'
  refine ⟨by rw [hother], hmule, by rw [hother], htile', fun q hq => ?_, honly.trans honly'⟩
  obtain ⟨hqt, hqu⟩ : q ≠ t ∧ q ≠ u := by simpa using hq
  exact (hothers' q (by simpa using hqt)).trans (hothers q (by simpa using hqu))

/-- The clauses of SIG on a semaphore of the Mule's own tile: the signal is applied at once (R158, R276). -/
theorem signal_ownTile (s : State) (t : Nat) {n : Nat} (hn : n < 32) (inc : Nat) :
    let s' := muleNext (s.signalSem t n inc) t
    s'.sem t n = min (s.sem t n + inc) 65535
      ∧ (s'.tile t).mule = { (s.tile t).mule with pc := (s.tile t).mule.pc + 4 }
      ∧ sameTilesBut s s' [t] ∧ onlyEvents s s'
      ∧ (s.sem t n + inc ≤ 65535 → s'.events = s.events ∧ sameRegsBut s s' [SYN_SEM t n])
      ∧ (65535 < s.sem t n + inc → s'.reg (SYN_SAT t) = BitVec.ofNat 32 n) := by
  intro s'
  obtain ⟨-, hothers, hmule⟩ := addSem_frame s t n inc
  have htile := State.tile_of_tiles (signalSem_tiles s t n inc)
  obtain ⟨hnext, -, hothers', -⟩ := muleBecame_muleNext (s.signalSem t n inc) t
  refine ⟨sem_signalSem s t n inc hn, ?_, ?_, signalSem_onlyEvents s t n inc, fun h => signalSem_unsaturated s t n inc h,
    synSat_signalSem s t n inc⟩
  · rw [hnext, htile, hmule]
  · exact sameTilesBut.trans (fun u hu => (htile u).trans (hothers u hu)) hothers'

/-! ### The statement -/

theorem exec_muleWaitEnd {s : State} {t n : Nat} {d : BitVec 5} (ht : t < s.tileCount)
    (hstate : (s.tile t).mule.state = .waiting) (hsem : (s.tile t).mule.waitSem = some (n, d.toNat))
    (hpos : 1 ≤ s.sem t n) : exec (.muleWaitEnd t) s = .next (waitEnds s t n d) := by
  have hexec : exec (.muleWaitEnd t) s = s.onTile t fun s => match (s.tile t).mule.state, (s.tile t).mule.waitSem with
    | .waiting, some (n, d) => if s.sem t n = 0 then s else waitEnds s t n (BitVec.ofNat 5 d)
    | _, _ => s := rfl
  rw [hexec, onTile_lt ht, hstate, hsem]
  dsimp only
  rw [if_neg (by omega), BitVec.ofNat_toNat, BitVec.setWidth_eq]

/-- Settles O9: each instruction runs its operation, and a WAIT that ends is `waitEnds`. -/
theorem muleSynchronises : Obligations.MuleSynchronises := by
  refine ⟨⟨fun s t d a imm hat => ?_, fun s t n d ht hstate hsem hpos => ?_⟩, fun s t d a b hat => ?_,
    fun s t d a b hat => ?_, fun s t d a b hat => ?_, fun s t d a b hat => ⟨fun h => ?_, fun h => ?_⟩⟩
  · refine ⟨_, onMule_at hat _, ?_⟩
    dsimp only
    split
    · exact muleBecame_modMule s t _
    · exact waitEnded_waitEnds s t _ d
  · exact ⟨_, exec_muleWaitEnd ht hstate hsem hpos, waitEnded_waitEnds s t n d⟩
  · refine ⟨_, onMule_at hat _, ?_⟩
    dsimp only
    split
    · next h =>
      rw [muleSig_device h]
      exact ⟨rfl, muleBecame_muleNext _ t⟩
    · next h =>
      rw [muleSig_tile h]
      split
      · exact muleFaulted_muleFault s t faultAddr
      · split
        · exact signal_ownTile s t (Nat.mod_lt _ (by decide)) _
        · next hu =>
          exact signal_otherTile _ hu (onlyTiles_modTile s _ _) (sameTilesBut_modTile s _ _)
            (State.tile_modTile_same ..) (muleBecame_muleNext _ t)
  · exact ⟨_, onMule_at hat _, muleWrote_muleNext s t⟩
  · exact ⟨_, onMule_at hat _, muleBecame_modMule s t _⟩
  · refine ⟨_, onMule_at hat _, ?_⟩
    rw [h]
    exact muleWrote_muleDone s t d _
  · refine ⟨_, BitVec.ofNat 32 s.free.1, onMule_at hat _, ?_⟩
    rw [h]
    exact muleWrote_muleDone s.free.2 t d _

end Sys2Proof.Machine

/-! PROOFS. O10: dispatch of a handler and the return from it. -/

namespace Sys2Proof.Machine

/-! ### What a handler starts with (R163) -/

/-- The word of a handler's s30: tag, epoch and flags of its message (R163). -/
def messageWord (msg : Msg) : BitVec 32 :=
  BitVec.ofNat 32 (msg.tag.toNat + msg.epoch.toNat * 2 ^ 16
    + (msg.ord.toNat + 2 * msg.be.toNat + 4 * msg.notice.toNat + 8 * msg.user.toNat) * 2 ^ 24)

/-- A Mule with the argument registers of a handler written (R163). -/
def handlerArgs (m : Mule) (msg : Msg) (resume : BitVec 32) : Mule :=
  muleSet (muleSet (muleSet (muleSet m 28 (msg.payload.extractLsb' 0 32)) 29 (msg.payload.extractLsb' 32 32)) 30
    (messageWord msg)) 31 resume

/-- A Mule that has entered the handler at `addr` (R161, R163). -/
def handlerEntered (m : Mule) (e : InboxEntry) (addr resume : BitVec 32) : Mule :=
  { handlerArgs m e.msg resume with
    pc := addr, state := .handler, inHandler := true, waitSem := none,
    inbox := (handlerArgs m e.msg resume).inbox.erase e }

theorem messageWord_fields (msg : Msg) : (messageWord msg).extractLsb' 0 16 = msg.tag
    ∧ (messageWord msg).extractLsb' 16 8 = msg.epoch
    ∧ (messageWord msg).extractLsb' 24 8
        = BitVec.ofNat 8 (msg.ord.toNat + 2 * msg.be.toNat + 4 * msg.notice.toNat + 8 * msg.user.toNat) := by
  have htag := msg.tag.isLt
  have hepoch := msg.epoch.isLt
  have huser := msg.user.isLt
  have hord := msg.ord.toNat_lt
  have hbe := msg.be.toNat_lt
  have hnotice := msg.notice.toNat_lt
  refine ⟨extractLsb'_ofNat_eq ?_, extractLsb'_ofNat_eq ?_, extractLsb'_ofNat_eq ?_⟩
  · omega
  · omega
  · rw [BitVec.toNat_ofNat]
    omega

/-- What a handler reads in its argument registers, and that the others stay (R163). -/
theorem muleReg_handlerArgs (m : Mule) (msg : Msg) (resume : BitVec 32) (r : BitVec 5) :
    muleReg (handlerArgs m msg resume) r = if r = 31 then resume else if r = 30 then messageWord msg
      else if r = 29 then msg.payload.extractLsb' 32 32 else if r = 28 then msg.payload.extractLsb' 0 32
      else muleReg m r := by
  simp only [handlerArgs, muleReg_muleSet]
  split_ifs <;> simp_all [muleReg]

theorem handlerArgs_inbox (m : Mule) (msg : Msg) (resume : BitVec 32) :
    (handlerArgs m msg resume).inbox = m.inbox := by
  simp [handlerArgs, muleSet]

theorem dispatchEntry_eq (s : State) (t : Nat) (e : InboxEntry) (resume : BitVec 32) :
    dispatchEntry s t e resume = s.modMule t fun m =>
      handlerEntered m e (BitVec.ofNat 32 (fld (s.reg (MUL_HADDR t e.handler)) 0 12 * 4)) resume := rfl

/-- The dispatch of a message's handler (R161, R163). -/
theorem dispatched_dispatchEntry (s : State) (t : Nat) (e : InboxEntry) (resume : BitVec 32) :
    dispatched s (dispatchEntry s t e resume) t e resume := by
  rw [dispatchEntry_eq]
  obtain ⟨hmule, honly⟩ := muleBecame_modMule s t fun m =>
    handlerEntered m e (BitVec.ofNat 32 (fld (s.reg (MUL_HADDR t e.handler)) 0 12 * 4)) resume
  generalize s.modMule t _ = s' at hmule honly
  have hread : ∀ r, s'.sreg t r = muleReg (handlerArgs (s.tile t).mule e.msg resume) r := by
    intro r
    rw [State.sreg, hmule]
    rfl
  obtain ⟨htag, hepoch, hflags⟩ := messageWord_fields e.msg
  have h30 : s'.sreg t 30 = messageWord e.msg := by rw [hread, muleReg_handlerArgs]; rfl
  refine ⟨?_, ?_, h30 ▸ htag, h30 ▸ hepoch, h30 ▸ hflags, ?_, fun r hr => ?_, by rw [hmule]; rfl, by rw [hmule]; rfl,
    by rw [hmule]; rfl, ?_, honly⟩
  · rw [hread, muleReg_handlerArgs]; rfl
  · rw [hread, muleReg_handlerArgs]; rfl
  · rw [hread, muleReg_handlerArgs]; rfl
  · obtain ⟨h28, h29, h30, h31⟩ : r ≠ 28 ∧ r ≠ 29 ∧ r ≠ 30 ∧ r ≠ 31 := by simpa using hr
    rw [hread, muleReg_handlerArgs, if_neg h31, if_neg h30, if_neg h29, if_neg h28]
    rfl
  · rw [hmule]
    exact congrArg (List.erase · e) (handlerArgs_inbox ..)

/-! ### The dispatch points (R157, R161) and the return (R163) -/

section
variable {s : State} {t : Nat}

theorem yield_dispatches {e : InboxEntry} (hin : (s.tile t).mule.inHandler = false) (he : eligible s t = some e) :
    yield s t = dispatchEntry s t e ((s.tile t).mule.pc + 4) := by
  simp [yield, hin, he]

theorem yield_inHandler (hin : (s.tile t).mule.inHandler = true) : yield s t = muleNext s t := by simp [yield, hin]

theorem yield_none (he : eligible s t = none) : yield s t = muleNext s t := by simp [yield, he]

/-- HANDLER_DISPATCH inside a handler does nothing (R163). -/
theorem handlerDispatch_inHandler (hin : (s.tile t).mule.inHandler = true) : handlerDispatch s t = s := by
  simp [handlerDispatch, hin]

/-- HANDLER_DISPATCH in a WAIT whose semaphore is 0 (R157, R161). -/
theorem handlerDispatch_waiting {n d : Nat} {e : InboxEntry} (hstate : (s.tile t).mule.state = .waiting)
    (hwait : (s.tile t).mule.waitSem = some (n, d)) (hsem : s.sem t n = 0) (hin : (s.tile t).mule.inHandler = false)
    (hgated : (s.tile t).gated = false) (he : eligible s t = some e) :
    handlerDispatch s t = dispatchEntry s t e (s.tile t).mule.pc := by
  simp [handlerDispatch, hstate, hwait, hsem, hin, hgated, he]

/-- HANDLER_DISPATCH in the idle-dispatch state (R160, R161). -/
theorem handlerDispatch_idle {e : InboxEntry} (hidle : s.muleIdle t = true)
    (hin : (s.tile t).mule.inHandler = false) (hgated : (s.tile t).gated = false) (he : eligible s t = some e) :
    handlerDispatch s t = dispatchEntry s t e (s.tile t).mule.pc := by
  have hstate : (s.tile t).mule.state = .halted := by
    simp only [State.muleIdle, Bool.and_eq_true, beq_iff_eq] at hidle
    exact hidle.1.1
  simp [handlerDispatch, hstate, hidle, hin, hgated, he]

theorem exec_handlerDispatch (ht : t < s.tileCount) : exec (.handlerDispatch t) s = .next (handlerDispatch s t) := by
  have hexec : exec (.handlerDispatch t) s = s.onTile t fun s => handlerDispatch s t := rfl
  rw [hexec, onTile_lt ht]

/-- HRET: its two refusals of the target, the fault outside a handler, and the return (R163, R164). -/
theorem hret_outcome : if (s.tile t).mule.inHandler = false then muleFaulted s (hret s t) t faultHret
    else if 0x4000 ≤ (s.sreg t 31).toNat then muleFaulted s (hret s t) t faultAddr
    else if (s.sreg t 31).toNat % 4 ≠ 0 then muleFaulted s (hret s t) t faultMisaligned
    else muleBecame s (hret s t) t
      { (s.tile t).mule with pc := s.sreg t 31, inHandler := false, state := .running } := by
  cases hin : (s.tile t).mule.inHandler with
  | false =>
    have hhret : hret s t = muleFault s t faultHret := by rw [hret, hin]; exact if_pos rfl
    rw [if_pos rfl, hhret]
    exact muleFaulted_muleFault s t faultHret
  | true =>
    have hhret : hret s t = if 0x4000 ≤ (s.sreg t 31).toNat then muleFault s t faultAddr
        else if (s.sreg t 31).toNat % 4 ≠ 0 then muleFault s t faultMisaligned
        else s.modMule t fun m => { m with pc := s.sreg t 31, inHandler := false, state := .running } := by
      rw [hret, hin]
      exact if_neg Bool.false_ne_true
    rw [if_neg Bool.noConfusion, hhret]
    split
    · exact muleFaulted_muleFault s t faultAddr
    · split
      · exact muleFaulted_muleFault s t faultMisaligned
      · exact muleBecame_modMule s t _

end

/-- Settles O10: each dispatch point is `dispatchEntry`, and HRET is read off its branches. -/
theorem muleHandlers : Obligations.MuleHandlers := by
  refine ⟨⟨fun s t d a b hat => ⟨_, onMule_at hat _, ?_⟩,
    fun s t n d e ht hstate hwait hsem hin hgated he => ⟨_, exec_handlerDispatch ht, ?_⟩,
    fun s t e ht hstate hhalt hctrl hin hgated he => ⟨_, exec_handlerDispatch ht, ?_⟩, fun s t ht hin => ?_⟩,
    fun s t d a b hat => ⟨_, onMule_at hat _, hret_outcome⟩⟩
  · split
    · next e hin he =>
      rw [yield_dispatches hin he]
      exact dispatched_dispatchEntry ..
    · next hnot =>
      have hyield : yield s t = muleNext s t := by
        cases hin : (s.tile t).mule.inHandler with
        | true => exact yield_inHandler hin
        | false =>
          cases he : eligible s t with
          | none => exact yield_none he
          | some e => exact (hnot e hin he).elim
      rw [hyield]
      exact muleWrote_muleNext s t
  · rw [handlerDispatch_waiting hstate hwait hsem hin hgated he]
    exact dispatched_dispatchEntry ..
  · have hidle : s.muleIdle t = true := by simp [State.muleIdle, hstate, hhalt, hctrl]
    rw [handlerDispatch_idle hidle hin hgated he]
    exact dispatched_dispatchEntry ..
  · exact (exec_handlerDispatch ht).trans (congrArg Host.Outcome.next (handlerDispatch_inHandler hin))

end Sys2Proof.Machine

/-! PROOFS. O11: SEND of the Mule. -/

namespace Sys2Proof.Machine

section
variable {s : State} {t : Nat} {d : BitVec 5}

/-- The answer of a SEND ends it (R159). -/
theorem muleSendAnswer_outcome (code : Nat) (h : (s.tile t).mule.sendDest = some d.toNat) :
    ((muleSendAnswer s t code).tile t).mule.sendDest = none
      ∧ ((muleSendAnswer s t code).tile t).mule.pc = (s.tile t).mule.pc + 4
      ∧ (muleSendAnswer s t code).sreg t d = (if d = 0 then 0 else BitVec.ofNat 32 code)
      ∧ (∀ r, r ≠ d → (muleSendAnswer s t code).sreg t r = s.sreg t r)
      ∧ sameTilesBut s (muleSendAnswer s t code) [t] := by
  have hmule : ((muleSendAnswer s t code).tile t).mule = { (s.tile t).mule with
      sendDest := none
      state := if (s.tile t).mule.stopAsked then .halted else (s.tile t).mule.state
      stopAsked := false
      haltedByHalt := false
      pc := (s.tile t).mule.pc + 4
      regs := if d.toNat = 0 then (s.tile t).mule.regs
        else mapSet 0 (s.tile t).mule.regs d.toNat (BitVec.ofNat 32 code) } := by
    rw [muleSendAnswer, State.tile_modTile_same]
    simp only [h]
  have hregs : ((muleSendAnswer s t code).tile t).mule.regs
      = (muleSet (s.tile t).mule d (BitVec.ofNat 32 code)).regs := by
    have hzero : d.toNat = 0 ↔ d = 0 := by simp [BitVec.toNat_eq]
    rw [hmule, muleSet]
    simp only [hzero]
    split <;> rfl
  obtain ⟨hd, hr⟩ := sreg_of_muleSet hregs
  exact ⟨by rw [hmule], by rw [hmule], hd, hr, sameTilesBut_modTile s t _⟩

/-- A request to a rank that is not VALID completes at once with NOROUTE (R299). -/
theorem issue_of_rankModule_none (source : ReqSource) (p : Packet) (h : s.rankModule p.dst = none) :
    s.issue source p = (s, some stNoRoute, none) := by
  rw [State.issue]
  exact if_pos (.inr (by simp [h]))

/-- A message to a rank that is not VALID is answered at once with NOROUTE (R159, R268). -/
theorem sendMsg_noRoute (source : ReqSource) (now xfer : Nat) {m : Msg} (hlocal : s.rankLocal m.rank.toNat = false)
    (h : s.rankModule m.rank.toNat = none) : sendMsg s source now xfer m = messageAnswered s source stNoRoute := by
  rw [sendMsg, hlocal, if_neg Bool.false_ne_true]
  dsimp only
  rw [issue_of_rankModule_none source _ h]

/-- A SEND to this module: the Mule holds the instruction, and the message is in flight (R159, R265). -/
theorem muleSend_local (h : s.rankLocal (muleMessage (s.tile t).mule).rank.toNat = true) :
    muleSend s t d = State.modMule { s with flight := s.flight ++ [⟨muleMessage (s.tile t).mule, .mule t,
      s.cycle t + 3 + s.msgDelta (.mule t) (muleMessage (s.tile t).mule)⟩] } t
        fun x => { x with sendDest := some d.toNat } := by
  rw [muleSend, h]
  dsimp only
  rw [if_neg (by simp)]
  exact if_pos h

/-- A SEND to a rank that is not VALID is answered with NOROUTE; it may have drawn a free value (log 22). -/
theorem muleSend_noRoute (hlocal : s.rankLocal (muleMessage (s.tile t).mule).rank.toNat = false)
    (h : s.rankModule (muleMessage (s.tile t).mule).rank.toNat = none) :
    ∃ n, muleSend s t d = muleSendAnswer
      (State.modMule { s with freeCount := n } t fun x => { x with sendDest := some d.toNat }) t stNoRoute := by
  rw [muleSend, hlocal]
  dsimp only
  split
  · exact ⟨s.freeCount + 1, sendMsg_noRoute _ _ _ hlocal h⟩
  · exact ⟨s.freeCount, sendMsg_noRoute _ _ _ hlocal h⟩

theorem exec_messageAnswer_mule {code due : Nat} {rest : List MsgAnswer}
    (h : s.answers = ⟨.mule t, code, due⟩ :: rest) :
    exec .messageAnswer s = .next (muleSendAnswer { s with answers := rest } t code) := by
  have hexec : exec .messageAnswer s = .next (messageAnswer s) := rfl
  rw [hexec, messageAnswer, h]
  rfl

end

/-- Settles O11: a local message is in flight, a message without a route and an answer are `muleSendAnswer`. -/
theorem muleSendsMessages : Obligations.MuleSendsMessages := by
  refine ⟨fun s t d a b hat => ⟨fun hlocal => ⟨_, onMule_at hat _, ?_⟩, fun hlocal hnone => ⟨_, onMule_at hat _, ?_⟩⟩,
    fun s t d code due rest hdest hanswers => ⟨_, exec_messageAnswer_mule hanswers, ?_⟩⟩
  · rw [muleSend_local hlocal]
    exact ⟨rfl, muleBecame_modMule _ t _⟩
  · obtain ⟨n, hsend⟩ := muleSend_noRoute (d := d) hlocal hnone
    rw [hsend]
    obtain ⟨hmule, -, hothers, -⟩ :=
      muleBecame_modMule { s with freeCount := n } t fun x => { x with sendDest := some d.toNat }
    have hmems : (State.modMule { s with freeCount := n } t fun x => { x with sendDest := some d.toNat }).mems
        = s.mems := by simp [State.modMule]
    generalize State.modMule _ t _ = s1 at hmule hothers hmems
    obtain ⟨hdest, hpc, hd, hr, hothers'⟩ := muleSendAnswer_outcome (s := s1) (d := d) stNoRoute (by rw [hmule])
    have hsreg : ∀ r, s1.sreg t r = s.sreg t r := fun r => by rw [State.sreg, hmule]; rfl
    refine ⟨?_, hdest, hd, fun r h => (hr r h).trans (hsreg r), ?_, sameTilesBut.trans hothers hothers'⟩
    · rw [hpc, hmule]
      rfl
    · exact sameMemory_of_mems (by rw [mems_muleSendAnswer, hmems])
  · obtain ⟨hdest', hpc, hd, hr, hothers⟩ :=
      muleSendAnswer_outcome (s := { s with answers := rest }) (d := d) code hdest
    exact ⟨rfl, hdest', hpc, hd, hr, hothers, fun _ => ⟨rfl, rfl, rfl⟩⟩

end Sys2Proof.Machine

/-! PROOFS. O12: the controls of the Mule, and the faults of a fetch. -/

namespace Sys2Proof.Machine

/-! ### The controls (R168) -/

section
variable {s : State} {t : Nat}

theorem muleStopped_iff : muleStopped (s.tile t) = true
    ↔ ((s.tile t).mule.state = .halted ∨ (s.tile t).mule.state = .fault) ∧ (s.tile t).gated = false := by
  simp [muleStopped]

theorem exec_mulStart (ht : t < s.tileCount) (hreset : (s.tile t).inReset = false) :
    exec (.mulStart t) s = .next (muleStart s t) := by
  have hexec : exec (.mulStart t) s = s.onTile t fun s => if (s.tile t).inReset then s else muleStart s t := rfl
  rw [hexec, onTile_lt ht, hreset, if_neg Bool.false_ne_true]

theorem exec_mulResume (ht : t < s.tileCount) (hreset : (s.tile t).inReset = false) :
    exec (.mulResume t) s = .next (muleResume s t) := by
  have hexec : exec (.mulResume t) s = s.onTile t fun s => if (s.tile t).inReset then s else muleResume s t := rfl
  rw [hexec, onTile_lt ht, hreset, if_neg Bool.false_ne_true]

theorem exec_mulStop (ht : t < s.tileCount) (hreset : (s.tile t).inReset = false) :
    exec (.mulStop t) s = .next (muleStop s t) := by
  have hexec : exec (.mulStop t) s = s.onTile t fun s => if (s.tile t).inReset then s else muleStop s t := rfl
  rw [hexec, onTile_lt ht, hreset, if_neg Bool.false_ne_true]

/-- START and RESUME act on no Mule but a stopped one (R168). -/
theorem muleStart_muleResume_of_running (h : ¬ muleStopped (s.tile t) = true) :
    muleStart s t = s ∧ muleResume s t = s := ⟨if_neg h, if_neg h⟩

end

/-- A Mule after STOP (R168). -/
def Mule.stop (m : Mule) : Mule :=
  if m.state = .halted ∨ m.state = .fault then m
  else if m.sendDest.isSome then { m with stopAsked := true }
  else { m with state := .halted, haltedByHalt := false, waitSem := none }

theorem muleBecame_muleStop (s : State) (t : Nat) : muleBecame s (muleStop s t) t (s.tile t).mule.stop :=
  muleBecame_modMule s t Mule.stop

section
variable {m : Mule}

theorem Mule.stop_of_stopped (h : m.state = .halted ∨ m.state = .fault) : m.stop = m := if_pos h

theorem Mule.stop_of_idle (h : ¬ (m.state = .halted ∨ m.state = .fault)) (hdest : m.sendDest = none) :
    m.stop = { m with state := .halted, haltedByHalt := false, waitSem := none } :=
  (if_neg h).trans (if_neg (by simp [hdest]))

theorem Mule.stop_of_sending (h : ¬ (m.state = .halted ∨ m.state = .fault)) (hdest : m.sendDest ≠ none) :
    m.stop = { m with stopAsked := true } :=
  (if_neg h).trans (if_pos (Option.isSome_iff_ne_none.2 hdest))

end

/-! ### The fetch (R151, R164) -/

/-- A command with a word of the Mule is the instruction of that word. -/
theorem exec_muleWord {i : Instr} {s : State} {t : Nat} {w : BitVec 32} (h : muleWord i = some (t, w)) :
    ∃ f, exec i s = onMule t w s f := by
  unfold muleWord at h
  split at h <;> cases h
  all_goals exact ⟨_, rfl⟩

section
variable {s : State} {t : Nat} {w : BitVec 32}

theorem muleRun_of_fetch_none {s1 : State} (hready : muleReady (s.tile t).mule = true)
    (hfetch : muleFetch s t = (s1, none)) (f : State → State) : muleRun s t w f = s1 := by
  rw [muleRun, hready, hfetch]
  rfl

theorem muleIllegalFetch_of_fetch_none {s1 : State} (hready : muleReady (s.tile t).mule = true)
    (hfetch : muleFetch s t = (s1, none)) : muleIllegalFetch s t = s1 := by
  rw [muleIllegalFetch, hready, hfetch]
  rfl

theorem exec_illegal_mule (ht : t < s.tileCount) : exec (.illegal false t) s = .next (muleIllegalFetch s t) := by
  have hexec : exec (.illegal false t) s = s.onTile t fun s => muleIllegalFetch s t := rfl
  rw [hexec, onTile_lt ht]

/-- Whatever instruction is commanded, a fetch that faults is all that happens (R164). -/
theorem exec_of_fetch_none {i : Instr} {s1 : State} (hi : muleWord i = some (t, w) ∨ i = .illegal false t)
    (ht : t < s.tileCount) (hready : muleReady (s.tile t).mule = true) (hfetch : muleFetch s t = (s1, none)) :
    exec i s = .next s1 := by
  rcases hi with hi | rfl
  · obtain ⟨f, hexec⟩ := exec_muleWord (s := s) hi
    rw [hexec, onMule, onTile_lt ht, muleRun_of_fetch_none hready hfetch]
  · rw [exec_illegal_mule ht, muleIllegalFetch_of_fetch_none hready hfetch]

theorem muleFetch_outside (h : 0x4000 ≤ (s.tile t).mule.pc.toNat) : muleFetch s t = (muleFault s t faultAddr, none) :=
  if_pos h

theorem muleFetch_uncorrectable (h : (s.tile t).mule.pc.toNat < 0x4000)
    (herr : mapFind (s.tile t).mule.imemErr ((s.tile t).mule.pc.toNat / 4) = some .double) :
    muleFetch s t = (muleFault s t faultImemEcc, none) := by
  rw [muleFetch, if_neg (Nat.not_le.2 h)]
  dsimp only
  rw [herr]

theorem muleFetch_at (hat : muleAt s t w) : muleFetch s t = (s, some w) := by
  obtain ⟨-, -, hpc, herr, hword⟩ := hat
  rw [muleFetch, if_neg (Nat.not_le.2 hpc)]
  dsimp only
  rw [herr, hword]

/-- A command whose word is not the one at the pc changes nothing (log 40). -/
theorem muleRun_of_ne {w' : BitVec 32} (hat : muleAt s t w') (h : w' ≠ w) (f : State → State) :
    muleRun s t w f = s := by
  rw [muleRun, muleFetch_at hat]
  simp [h]

theorem muleIllegalFetch_at (hat : muleAt s t w) (h : muleIllegal w = true) :
    muleIllegalFetch s t = muleFault s t faultIllegal := by
  obtain ⟨-, hready, -⟩ := id hat
  rw [muleIllegalFetch, hready, muleFetch_at hat]
  simp [h]

end

/-- Settles O12: a control is its case of the Mule's state, and a fetch that faults does so for every instruction. -/
theorem muleControlAndFaults : Obligations.MuleControlAndFaults := by
  refine ⟨fun s t ht hreset => ?_, fun i s t w hi ht hready => ?_⟩
  · refine ⟨fun hgated hstopped => ?_, fun hrun => ?_, fun hrun hdest => ?_, fun hrun hdest => ?_, fun hstopped => ?_⟩
    · have hstop := muleStopped_iff.2 ⟨hstopped, hgated⟩
      refine ⟨⟨_, exec_mulStart ht hreset, ?_⟩, ⟨_, exec_mulResume ht hreset, ?_⟩⟩
      · rw [muleStart, if_pos hstop]
        exact muleBecame_modMule s t _
      · rw [muleResume, if_pos hstop]
        exact muleBecame_modMule s t _
    · obtain ⟨hstart, hresume⟩ := muleStart_muleResume_of_running (s := s) (t := t) fun h => hrun (muleStopped_iff.1 h).1
      rw [exec_mulStart ht hreset, exec_mulResume ht hreset, hstart, hresume]
      exact ⟨rfl, rfl⟩
    · exact ⟨_, exec_mulStop ht hreset, Mule.stop_of_idle hrun hdest ▸ muleBecame_muleStop s t⟩
    · exact ⟨_, exec_mulStop ht hreset, Mule.stop_of_sending hrun hdest ▸ muleBecame_muleStop s t⟩
    · refine ⟨_, exec_mulStop ht hreset, ?_⟩
      have hbecame := muleBecame_muleStop s t
      rwa [Mule.stop_of_stopped hstopped] at hbecame
  · refine ⟨fun hpc => ⟨_, exec_of_fetch_none hi ht hready (muleFetch_outside hpc), muleFaulted_muleFault ..⟩,
      fun hpc herr => ⟨_, exec_of_fetch_none hi ht hready (muleFetch_uncorrectable hpc herr), muleFaulted_muleFault ..⟩,
      fun w' hat hw hne => ?_, fun w' hat hillegal hbad => ?_⟩
    · obtain ⟨f, hexec⟩ := exec_muleWord (s := s) hw
      rw [hexec, onMule, onTile_lt ht, muleRun_of_ne hat hne.symm]
    · rw [hillegal, exec_illegal_mule ht, muleIllegalFetch_at hat hbad]
      exact ⟨_, rfl, muleFaulted_muleFault ..⟩

end Sys2Proof.Machine

/-! PROOFS. O30, first part: the writes of instruction memories. -/

namespace Sys2Proof.Machine

/-! ### A Mule's instruction memory (R167) -/

section
variable {s : State} {t : Nat}

theorem exec_mulImemWrite (word : Fin 4096) (v : BitVec 32) (ht : t < s.tileCount)
    (hreset : (s.tile t).inReset = false) (hgated : (s.tile t).gated = false) :
    exec (.mulImemWrite t word v) s = .next (muleImemWrite s t word v).1 := by
  have hexec : exec (.mulImemWrite t word v) s = s.onTile t fun s =>
    if tileStatus s t (0x10000 + 4 * word) = stDone then (muleImemWrite s t word v).1 else s := rfl
  have hstatus : tileStatus s t (0x10000 + 4 * word) = stDone := if_neg (by simp [hreset, hgated])
  rw [hexec, onTile_lt ht, if_pos hstatus]

/-- A word of a stopped Mule's instruction memory is written, with its check bits (R167). -/
theorem muleImemWrite_stopped (word : Nat) (v : BitVec 32)
    (h : (s.tile t).mule.state = .halted ∨ (s.tile t).mule.state = .fault) :
    onlyMule s (muleImemWrite s t word v).1 t
      ∧ (∀ k, mapGet 0 ((muleImemWrite s t word v).1.tile t).mule.imem k
          = if k = word then v else mapGet 0 (s.tile t).mule.imem k)
      ∧ mapFind ((muleImemWrite s t word v).1.tile t).mule.imemErr word = none
      ∧ { ((muleImemWrite s t word v).1.tile t).mule with
            imem := (s.tile t).mule.imem, imemErr := (s.tile t).mule.imemErr } = (s.tile t).mule := by
  rw [muleImemWrite, if_pos h]
  dsimp only
  obtain ⟨hmule, honly⟩ := muleBecame_modMule s t fun m =>
    { m with imem := mapSet 0 m.imem word v, imemErr := mapDel m.imemErr word }
  rw [hmule]
  exact ⟨honly, fun k => mapGet_mapSet .., (mapFind_mapDel ..).trans (if_pos rfl), rfl⟩

theorem muleImemWrite_running (word : Nat) (v : BitVec 32)
    (h : ¬ ((s.tile t).mule.state = .halted ∨ (s.tile t).mule.state = .fault)) : (muleImemWrite s t word v).1 = s := by
  rw [muleImemWrite, if_neg h]

end

/-! ### The bundles of a tile (R190) -/

section
variable {s : State} {t : Nat} (m : Master) (v : BitVec 32)

theorem exec_imemStageWrite (word : Fin 7) (ht : t < s.tileCount) : exec (.imemStageWrite m t word v) s
    = .next (if (s.tile t).inReset then s else imemStage s t m word v) := by
  have hexec : exec (.imemStageWrite m t word v) s
    = s.onTile t fun s => if (s.tile t).inReset then s else imemStage s t m word v := rfl
  rw [hexec, onTile_lt ht]

theorem exec_imemBundleWrite (b : Fin 2048) (ht : t < s.tileCount) : exec (.imemBundleWrite m t b v) s
    = .next (if (s.tile t).inReset then s else imemBundle s t m b v) := by
  have hexec : exec (.imemBundleWrite m t b v) s
    = s.onTile t fun s => if (s.tile t).inReset then s else imemBundle s t m b v := rfl
  rw [hexec, onTile_lt ht]

/-- A staging key determines its master and its word. -/
theorem stagingKey_eq_iff {x y i j : Nat} (hi : i < 8) (hj : j < 8) : 8 * x + i = 8 * y + j ↔ x = y ∧ i = j := by
  omega

theorem stagedWord_imemStage (m' : Master) {word k : Nat} (hword : word < 8) (hk : k < 8) :
    stagedWord (imemStage s t m word v) t m' k
      = if masterKey m' = masterKey m ∧ k = word then v else stagedWord s t m' k := by
  rw [stagedWord, imemStage, State.tile_modTile_same]
  simp only [mapGet_mapSet, stagingKey_eq_iff hk hword]
  rfl

theorem imemStage_frame (word : Nat) : onlyTiles s (imemStage s t m word v) ∧ sameTilesBut s (imemStage s t m word v) [t]
    ∧ { (imemStage s t m word v).tile t with staging := (s.tile t).staging } = s.tile t := by
  refine ⟨rfl, sameTilesBut_modTile s t _, ?_⟩
  rw [imemStage, State.tile_modTile_same]

theorem imemBundle_frame (b : Nat) : onlyTiles s (imemBundle s t m b v) ∧ sameTilesBut s (imemBundle s t m b v) [t]
    ∧ { (imemBundle s t m b v).tile t with
          imem := (s.tile t).imem
          imemErr := (s.tile t).imemErr
          staging := (s.tile t).staging } = s.tile t := by
  refine ⟨rfl, sameTilesBut_modTile s t _, ?_⟩
  rw [imemBundle, State.tile_modTile_same]

/-- A digit of a number given by its digits. -/
theorem digit_ofDigits {b : Nat} (hb : 0 < b) {l : List Nat} (hl : ∀ x ∈ l, x < b) (i : Nat) :
    Nat.ofDigits b l / b ^ i % b = l.getD i 0 := by
  induction l generalizing i with
  | nil => simp
  | cons x l ih =>
    have hx : x < b := hl x List.mem_cons_self
    rw [Nat.ofDigits_cons]
    cases i with
    | zero => simp [Nat.mod_eq_of_lt hx]
    | succ i =>
      rw [pow_succ', ← Nat.div_div_eq_div_mul, Nat.add_mul_div_left _ _ hb, Nat.div_eq_of_lt hx, Nat.zero_add,
        ih fun y hy => hl y (List.mem_cons_of_mem x hy)]
      rfl

/-- The number of eight words, as `imemBundle` sums it (R190). -/
theorem ofDigits_words (b : Nat) (w : Nat → Nat) : Nat.ofDigits b ((List.range 8).map w)
    = (List.range 7).foldl (fun n i => n + w i * b ^ i) (w 7 * b ^ 7) := by
  simp only [List.range_succ, List.range_zero, List.nil_append, List.foldl_cons, List.foldl_nil,
    List.map_cons, List.map_nil, List.cons_append, Nat.ofDigits_cons, Nat.ofDigits_nil]
  ring

/-- The words of a bundle (R190). -/
theorem bundle_word {w : Nat → Nat} (hw : ∀ i, w i < 2 ^ 32) {i : Nat} (hi : i < 8) :
    (BitVec.ofNat 256 ((List.range 7).foldl (fun n i => n + w i * 2 ^ (32 * i)) (w 7 * 2 ^ 224))).extractLsb' (32 * i) 32
      = BitVec.ofNat 32 (w i) := by
  have hdigits : ∀ x ∈ (List.range 8).map w, x < 2 ^ 32 := fun x hx => by
    obtain ⟨j, -, rfl⟩ := List.mem_map.1 hx
    exact hw j
  have hlt := Nat.ofDigits_lt_base_pow_length (by decide) hdigits
  have hdigit := digit_ofDigits (by decide) hdigits i
  rw [List.length_map, List.length_range, ← pow_mul] at hlt
  have hget : ((List.range 8).map w).getD i 0 = w i := by
    simp [List.getD_eq_getElem?_getD, List.getElem?_map, List.getElem?_range hi]
  have hsum : (List.range 7).foldl (fun n i => n + w i * 2 ^ (32 * i)) (w 7 * 2 ^ 224)
      = Nat.ofDigits (2 ^ 32) ((List.range 8).map w) := by
    rw [ofDigits_words]
    simp only [← pow_mul]
  refine BitVec.eq_of_toNat_eq ?_
  rw [BitVec.extractLsb'_toNat, Nat.shiftRight_eq_div_pow, BitVec.toNat_ofNat, BitVec.toNat_ofNat, hsum,
    Nat.mod_eq_of_lt hlt, pow_mul, hdigit, hget, Nat.mod_eq_of_lt (hw i)]

theorem bundle_imemBundle (b : Nat) {i : Nat} (hi : i < 8) :
    (mapGet 0 ((imemBundle s t m b v).tile t).imem b).extractLsb' (32 * i) 32
      = if i = 7 then v else stagedWord s t m i := by
  rw [imemBundle, State.tile_modTile_same]
  dsimp only
  rw [mapGet_mapSet_same]
  have hword := bundle_word (w := fun i => (if i = 7 then v else stagedWord s t m i).toNat) (fun i => BitVec.isLt _) hi
  rw [BitVec.ofNat_toNat, BitVec.setWidth_eq] at hword
  exact hword

theorem imem_imemBundle_ne {b k : Nat} (h : k ≠ b) :
    mapGet 0 ((imemBundle s t m b v).tile t).imem k = mapGet 0 (s.tile t).imem k := by
  rw [imemBundle, State.tile_modTile_same]
  exact mapGet_mapSet_ne _ _ _ h

theorem imemErr_imemBundle (b : Nat) : mapFind ((imemBundle s t m b v).tile t).imemErr b = none := by
  rw [imemBundle, State.tile_modTile_same]
  exact (mapFind_mapDel ..).trans (if_pos rfl)

theorem stagedWord_imemBundle (b : Nat) (m' : Master) {k : Nat} (hk : k < 8) :
    stagedWord (imemBundle s t m b v) t m' k = if masterKey m' = masterKey m then 0 else stagedWord s t m' k := by
  have hkey : (8 * masterKey m' + k) / 8 = masterKey m' := by omega
  rw [stagedWord, imemBundle, State.tile_modTile_same]
  simp only [mapGet, mapFind_mapClear, hkey, beq_iff_eq]
  split <;> rfl

end

end Sys2Proof.Machine

/-! PROOFS. O30, second part: START, the end and ABORT of an image load. -/

namespace Sys2Proof.Machine

/-! ### The fields of DMC_LOAD_STATUS (R230) -/

section
variable (v : BitVec 32) (x : Nat)

theorem loadState_setFld : fld (setFld v 8 3 x) 8 3 = x % 8 := by
  have hv := v.isLt
  rw [setFld]
  refine fld_ofNat_eq ?_
  unfold fld
  omega

theorem loadRejected_setFld : fld (setFld v 16 8 x) 16 8 = x % 256 ∧ fld (setFld v 16 8 x) 8 3 = fld v 8 3 := by
  have hv := v.isLt
  rw [setFld]
  refine ⟨fld_ofNat_eq ?_, fld_ofNat_eq ?_⟩ <;> unfold fld <;> omega

theorem loadResult_setFld : fld (setFld v 0 8 x) 0 8 = x % 256 ∧ fld (setFld v 0 8 x) 8 3 = fld v 8 3 := by
  have hv := v.isLt
  rw [setFld]
  refine ⟨fld_ofNat_eq ?_, fld_ofNat_eq ?_⟩ <;> unfold fld <;> omega

end

/-! ### START (R222, R223) -/

section
variable {s : State} {a len cop : Nat}

theorem loadRequestBad_iff : loadRequestBad s a len cop = true ↔ 4 ≤ cop ∨ s.rankLocal (addrRank a) = false
    ∨ (addrSpace a ≠ 1 ∧ addrSpace a ≠ 2) ∨ a % 64 ≠ 0 ∨ len = 0 ∨ 256 * 2 ^ 20 < len
    ∨ s.spaceEnd (addrSpace a) < addrOff a + len := by
  simp [loadRequestBad, or_assoc]

/-- A refused START: the code of the last one, and nothing else (R223). -/
theorem loadRejected (code : Nat) (hcode : code < 256) :
    let s' := s.setRegFld DMC_LOAD_STATUS 16 8 code
    onlyRegs s s' ∧ sameRegsBut s s' [DMC_LOAD_STATUS] ∧ s'.loadState = s.loadState
      ∧ fld (s'.reg DMC_LOAD_STATUS) 16 8 = code := by
  obtain ⟨hfield, hstate⟩ := loadRejected_setFld (s.reg DMC_LOAD_STATUS) code
  refine ⟨rfl, sameRegsBut_setReg s _ _, ?_, ?_⟩
  · rw [State.loadState, State.setRegFld, State.reg_setReg_same, hstate]
    rfl
  · rw [State.setRegFld, State.reg_setReg_same, hfield, Nat.mod_eq_of_lt hcode]

theorem loadStartAt_busy (h : s.loadState ≠ 0) :
    loadStartAt s a len cop = s.setRegFld DMC_LOAD_STATUS 16 8 loadBusy := if_pos h

theorem loadStartAt_bad (h : s.loadState = 0) (hbad : loadRequestBad s a len cop = true) :
    loadStartAt s a len cop = s.setRegFld DMC_LOAD_STATUS 16 8 loadRequest := by
  rw [loadStartAt, if_neg (not_not.2 h), if_pos hbad]

theorem loadStartAt_ok (h : s.loadState = 0) (hbad : ¬ loadRequestBad s a len cop = true) :
    loadStartAt s a len cop = { (s.setRegFld DMC_LOAD_STATUS 8 3 1).setReg DMC_LOAD_PROGRESS 0 with
      load := some ⟨a, len, cop, none⟩ } := by
  rw [loadStartAt, if_neg (not_not.2 h), if_neg hbad]

/-- The state but for registers and the load is the same after a load is latched on written registers. -/
theorem latchedLoad_frame {s1 : State} (h : onlyRegs s s1) (l : Option Load) :
    ({ ({ s1 with load := l } : State) with regs := s.regs, load := s.load } : State) = s :=
  congrArg (fun z : State => { z with load := s.load }) h

/-- An accepted START latches the request (R222). -/
theorem loadStarted (l : Option Load) :
    let s' : State := { (s.setRegFld DMC_LOAD_STATUS 8 3 1).setReg DMC_LOAD_PROGRESS 0 with load := l }
    s'.loadState = 1 ∧ { s' with regs := s.regs, load := s.load } = s
      ∧ sameRegsBut s s' [DMC_LOAD_STATUS, DMC_LOAD_PROGRESS] := by
  have hframe : onlyRegs s ((s.setRegFld DMC_LOAD_STATUS 8 3 1).setReg DMC_LOAD_PROGRESS 0) :=
    (onlyRegs_setReg s _ _).trans (onlyRegs_setReg _ _ _)
  have hreg : ∀ o, ((s.setRegFld DMC_LOAD_STATUS 8 3 1).setReg DMC_LOAD_PROGRESS 0).reg o
      = if o = DMC_LOAD_PROGRESS then 0
        else if o = DMC_LOAD_STATUS then setFld (s.reg DMC_LOAD_STATUS) 8 3 1 else s.reg o := by
    intro o
    rw [State.reg_setReg, State.setRegFld, State.reg_setReg]
  generalize (s.setRegFld DMC_LOAD_STATUS 8 3 1).setReg DMC_LOAD_PROGRESS 0 = s1 at hframe hreg
  refine ⟨?_, latchedLoad_frame hframe l, fun o ho => ?_⟩
  · exact (congrArg (fld · 8 3) ((hreg DMC_LOAD_STATUS).trans (if_neg (by decide)))).trans (loadState_setFld _ 1)
  · obtain ⟨hstatus, hprogress⟩ : o ≠ DMC_LOAD_STATUS ∧ o ≠ DMC_LOAD_PROGRESS := by simpa using ho
    exact (hreg o).trans ((if_neg hprogress).trans (if_neg hstatus))

end

/-! ### The end of a load (R224, R228, R229) -/

/-- Shadows, routes, slots, and the bundles and Mules of the tiles are as before. -/
def samePrograms (s s' : State) : Prop :=
  s'.shadow = s.shadow ∧ s'.routes = s.routes ∧ s'.routesNext = s.routesNext ∧ s'.slotDigest = s.slotDigest
    ∧ ∀ t, (s'.tile t).imem = (s.tile t).imem ∧ (s'.tile t).mule = (s.tile t).mule

/-- No load is in progress, and the last one has ended with `code`. -/
def loadEndedWith (s' : State) (code : Nat) : Prop :=
  s'.load = none ∧ s'.loadState = 0 ∧ fld (s'.reg DMC_LOAD_STATUS) 0 8 = code

theorem samePrograms_refl (s : State) : samePrograms s s := ⟨rfl, rfl, rfl, rfl, fun _ => ⟨rfl, rfl⟩⟩

theorem samePrograms.trans {s s1 s2 : State} (h : samePrograms s s1) (h' : samePrograms s1 s2) : samePrograms s s2 := by
  obtain ⟨hshadow, hroutes, hnext, hdigest, htiles⟩ := h
  obtain ⟨hshadow', hroutes', hnext', hdigest', htiles'⟩ := h'
  exact ⟨hshadow'.trans hshadow, hroutes'.trans hroutes, hnext'.trans hnext, hdigest'.trans hdigest,
    fun t => ⟨(htiles' t).1.trans (htiles t).1, (htiles' t).2.trans (htiles t).2⟩⟩

theorem samePrograms_of_progs {s s' : State} (h : s'.progs = s.progs) : samePrograms s s' :=
  ⟨progs_shadow h, progs_routes h, progs_routesNext h, progs_slotDigest h,
    fun t => ⟨imem_of_progs h t, mule_of_progs h t⟩⟩

theorem samePrograms_withLoad (s : State) (l : Option Load) : samePrograms s { s with load := l } :=
  ⟨rfl, rfl, rfl, rfl, fun _ => ⟨rfl, rfl⟩⟩

theorem samePrograms_setReg (s : State) (o : Nat) (v : BitVec 32) : samePrograms s (s.setReg o v) :=
  ⟨rfl, rfl, rfl, rfl, fun _ => ⟨rfl, rfl⟩⟩

section
variable (s : State) (code : Nat)

theorem samePrograms_loadFinish : samePrograms s (loadFinish s code) :=
  (((samePrograms_setReg s _ _).trans (samePrograms_setReg _ _ _)).trans (samePrograms_withLoad _ none)).trans
    (samePrograms_of_progs (progs_hostLoadEnded _ code))

/-- The end of a load leaves none in progress, and its code (R224). -/
theorem loadEndedWith_loadFinish (hcode : code < 256) : loadEndedWith (loadFinish s code) code := by
  have hprogs := progs_hostLoadEnded
    { (s.setRegFld DMC_LOAD_STATUS 8 3 0).setRegFld DMC_LOAD_STATUS 0 8 code with load := none } code
  have hreg : (loadFinish s code).reg DMC_LOAD_STATUS = setFld (setFld (s.reg DMC_LOAD_STATUS) 8 3 0) 0 8 code := by
    have hkept := reg_of_progs hprogs (o := DMC_LOAD_STATUS) (by decide)
    refine hkept.trans ((State.reg_setReg_same ..).trans ?_)
    rw [State.setRegFld, State.reg_setReg_same]
  obtain ⟨hresult, hstate⟩ := loadResult_setFld (setFld (s.reg DMC_LOAD_STATUS) 8 3 0) code
  refine ⟨progs_load hprogs, ?_, ?_⟩
  · rw [State.loadState, hreg, hstate, loadState_setFld]
  · rw [hreg, hresult, Nat.mod_eq_of_lt hcode]

theorem loadEndedWith_loadFail (detail : Nat) (hcode : code < 256) : loadEndedWith (loadFail s code detail) code :=
  loadEndedWith_loadFinish _ code hcode

theorem samePrograms_loadFail (detail : Nat) : samePrograms s (loadFail s code detail) :=
  (samePrograms_setReg s _ _).trans (samePrograms_loadFinish _ code)

theorem samePrograms_loadProgress (len : Nat) : samePrograms s (loadProgress s len) :=
  ⟨rfl, rfl, rfl, rfl, fun _ => ⟨rfl, rfl⟩⟩

end

section
variable {s : State}

theorem exec_loadEnd_pending (h : s.frame.commitReq.isSome = true) : exec .loadEnd s = .next s :=
  congrArg Host.Outcome.next (if_pos (.inr h))

/-- The end of a load that asked for a commit (R228). -/
theorem exec_loadEnd_resolved (hstate : s.loadState = 3) (h : s.frame.commitReq = none) : exec .loadEnd s
    = .next (loadFinish s (if fld (s.reg FRM_COMMIT_STATUS) 0 8 = 0 then loadDone else loadCommit)) := by
  have hexec : exec .loadEnd s = .next (loadEnd s) := rfl
  rw [hexec, loadEnd, if_neg (by simp [hstate, h]), commitStatus, h]
  rfl

theorem exec_dmcLoadAbort_checks {l : Load} (hload : s.load = some l) (h : s.loadState = 1) :
    exec .dmcLoadAbort s = .next (loadFinish s loadAborted) := by
  have hexec : exec .dmcLoadAbort s = .next (loadAbort s) := rfl
  rw [hexec, loadAbort, hload]
  exact congrArg _ (if_pos h)

theorem exec_dmcLoadAbort_committing {l : Load} (hload : s.load = some l) (h : s.loadState = 3) :
    exec .dmcLoadAbort s = .next s := by
  have hexec : exec .dmcLoadAbort s = .next (loadAbort s) := rfl
  rw [hexec, loadAbort, hload]
  simp [h]

end

end Sys2Proof.Machine

/-! PROOFS. O30, third part: the checks of an image load (R224 to R226). -/

namespace Sys2Proof.Machine

/-! ### The codes of failed checks (R224, R231) -/

/-- What a check answers is no fault or one whose code is not LOAD_DONE. -/
def faultOrNone (o : Option (Nat × Nat)) : Prop := ∀ e, o = some e → e.1 < 256 ∧ e.1 ≠ loadDone

theorem faultOrNone_none : faultOrNone none := fun _ h => nomatch h

theorem faultOrNone_some {c : Nat} (hc : c < 256 ∧ c ≠ loadDone) (d : Nat) : faultOrNone (some (c, d)) := by
  rintro e ⟨⟩
  exact hc

theorem faultOrNone_failIf {c : Nat} (hc : c < 256 ∧ c ≠ loadDone) (bad : Bool) (d : Nat) :
    faultOrNone (failIf bad c d) := by
  cases bad with
  | false => exact faultOrNone_none
  | true => exact faultOrNone_some hc d

theorem faultOrNone_map {α : Type} {c : Nat} (hc : c < 256 ∧ c ≠ loadDone) (d : α → Nat) (o : Option α) :
    faultOrNone (o.map fun x => (c, d x)) := by
  cases o with
  | none => exact faultOrNone_none
  | some x => exact faultOrNone_some hc (d x)

theorem mem_of_firstSome {α : Type} {l : List (Option α)} {x : α} (h : firstSome l = some x) : some x ∈ l := by
  rw [firstSome, Option.join_eq_some_iff] at h
  exact List.mem_of_find?_eq_some h

theorem eq_none_of_firstSome {α : Type} {l : List (Option α)} (h : firstSome l = none) : ∀ o ∈ l, o = none := by
  intro o ho
  cases hfind : l.find? fun x => x.isSome with
  | none => simpa using List.find?_eq_none.1 hfind o ho
  | some y =>
    obtain ⟨z, hz⟩ := Option.isSome_iff_exists.1 (List.find?_some hfind)
    rw [firstSome, hfind, hz] at h
    cases h

theorem faultOrNone_firstSome {l : List (Option (Nat × Nat))} (h : ∀ o ∈ l, faultOrNone o) :
    faultOrNone (firstSome l) := fun e he => h (some e) (mem_of_firstSome he) e rfl

theorem faultOrNone_firstSome_map {α : Type} {l : List α} {f : α → Option (Nat × Nat)} (h : ∀ x, faultOrNone (f x)) :
    faultOrNone (firstSome (l.map f)) := faultOrNone_firstSome (by simpa using fun x _ => h x)

section
variable (bs : List (BitVec 8)) (len : Nat)

theorem loadFormat_fault : loadFormat < 256 ∧ loadFormat ≠ loadDone := by decide

theorem faultOrNone_nifHeader : faultOrNone (nifHeader bs len) := by
  refine faultOrNone_firstSome fun o ho => ?_
  simp only [List.mem_cons, List.not_mem_nil, or_false] at ho
  rcases ho with rfl | rfl | rfl | rfl | rfl | rfl | rfl <;> exact faultOrNone_failIf loadFormat_fault _ _

theorem faultOrNone_nifTable : faultOrNone (nifTable bs len) := by
  refine faultOrNone_firstSome fun o ho => ?_
  simp only [List.mem_cons, List.mem_map] at ho
  rcases ho with rfl | ⟨e, -, rfl⟩
  · exact faultOrNone_failIf loadFormat_fault _ _
  · refine faultOrNone_firstSome fun o ho => ?_
    simp only [List.mem_cons, List.not_mem_nil, or_false] at ho
    rcases ho with rfl | rfl | rfl <;> exact faultOrNone_failIf loadFormat_fault _ _

theorem faultOrNone_nifCounted (x : NifSection) (most size : Nat) : faultOrNone (nifCounted bs x most size) := by
  refine faultOrNone_firstSome fun o ho => ?_
  simp only [List.mem_cons, List.not_mem_nil, or_false] at ho
  rcases ho with rfl | rfl <;> exact faultOrNone_failIf loadFormat_fault _ _

theorem faultOrNone_nifContent (x : NifSection) : faultOrNone (nifContent bs x) := by
  unfold nifContent
  split
  · exact faultOrNone_nifCounted _ _ _ _
  · split
    · exact faultOrNone_some loadFormat_fault _
    · exact faultOrNone_none
  · split
    · exact faultOrNone_some loadFormat_fault _
    · exact faultOrNone_none
  · exact faultOrNone_nifCounted _ _ _ _
  · refine faultOrNone_firstSome fun o ho => ?_
    simp only [List.mem_cons, List.mem_map] at ho
    rcases ho with rfl | ⟨e, -, rfl⟩
    · exact faultOrNone_nifCounted _ _ _ _
    · exact faultOrNone_failIf loadFormat_fault _ _
  · exact faultOrNone_none

end

section
variable (s : State) (n : Nif)

theorem faultOrNone_nifLatency : faultOrNone (nifLatency s n) := by
  unfold nifLatency
  split
  · exact faultOrNone_some (by decide) _
  · exact faultOrNone_map (by decide) _ _

theorem faultOrNone_blockBad (b : NifBlock) (before : List NifBlock) : faultOrNone (blockBad s n b before) :=
  faultOrNone_map (by decide) _ _

theorem faultOrNone_nifRoutesBad : faultOrNone (nifRoutesBad s n) := by
  refine faultOrNone_firstSome fun o ho => ?_
  simp only [List.mem_append, List.mem_map, List.mem_singleton] at ho
  rcases ho with ⟨e, -, rfl⟩ | rfl <;> exact faultOrNone_failIf (by decide) _ _

theorem faultOrNone_nifSlots : faultOrNone (nifSlots s n) := by
  refine faultOrNone_firstSome fun o ho => ?_
  simp only [List.mem_append, List.mem_map] at ho
  rcases ho with ⟨p, -, rfl⟩ | ⟨b, -, rfl⟩ <;> exact faultOrNone_failIf (by decide) _ _

theorem faultOrNone_nifAccept : faultOrNone (nifAccept s n) := by
  refine faultOrNone_firstSome fun o ho => ?_
  simp only [List.mem_cons, List.not_mem_nil, or_false] at ho
  rcases ho with rfl | rfl | rfl | rfl | rfl | rfl | rfl | rfl | rfl | rfl | rfl | rfl
  · exact faultOrNone_failIf (by decide) _ _
  · exact faultOrNone_failIf (by decide) _ _
  · exact faultOrNone_nifLatency s n
  · exact faultOrNone_failIf (by decide) _ _
  · exact faultOrNone_failIf (by decide) _ _
  · exact faultOrNone_failIf (by decide) _ _
  · exact faultOrNone_firstSome_map fun e => faultOrNone_failIf (by decide) _ _
  · exact faultOrNone_firstSome_map fun e => faultOrNone_blockBad _ _ _ _
  · exact faultOrNone_firstSome_map fun e => faultOrNone_failIf (by decide) _ _
  · exact faultOrNone_nifRoutesBad s n
  · exact faultOrNone_nifSlots s n
  · exact faultOrNone_firstSome_map fun m => faultOrNone_failIf (by decide) _ _

/-- A failed check ends a load with another code than LOAD_DONE (R224). -/
theorem nifCheck_error {bs : List (BitVec 8)} {cs : List Cause} {e : Nat × Nat} (h : nifCheck s bs cs = .error e) :
    e.1 < 256 ∧ e.1 ≠ loadDone := by
  unfold nifCheck at h
  dsimp only at h
  split at h
  · next e' he =>
    cases h
    refine faultOrNone_firstSome (fun o ho => ?_) _ he
    simp only [List.mem_cons, List.not_mem_nil, or_false] at ho
    rcases ho with rfl | rfl | rfl | rfl
    · exact faultOrNone_nifHeader _ _
    · exact faultOrNone_map (by decide) _ _
    · exact faultOrNone_failIf (by decide) _ _
    · exact faultOrNone_nifTable _ _
  · split at h
    · next e' he =>
      cases h
      exact faultOrNone_firstSome_map (faultOrNone_nifContent bs) _ he
    · split at h
      · next e' he =>
        cases h
        exact faultOrNone_nifAccept _ _ _ he
      · cases h

/-! ### What passes the checks (R224) -/

theorem failIf_eq_none_iff {bad : Bool} {c d : Nat} : failIf bad c d = none ↔ bad = false := by
  cases bad <;> simp [failIf]

/-- What passes the checks has native sections, this module's tile count and no slot in use (R224). -/
theorem nifAccept_none {n : Nif} (h : nifAccept s n = none) :
    n.native = true ∧ n.tiles = s.tileCount ∧ ∀ p ∈ n.progs, p.slot ∉ s.slotsInUse := by
  have hall := eq_none_of_firstSome h
  simp only [List.mem_cons, List.not_mem_nil, or_false, forall_eq_or_imp, forall_eq] at hall
  obtain ⟨hnative, htiles, -, -, -, -, -, -, -, -, hslots, -⟩ := hall
  rw [failIf_eq_none_iff] at hnative htiles
  refine ⟨by simpa using hnative, ?_, fun p hp => ?_⟩
  · simp only [Bool.or_eq_false_iff, bne_eq_false_iff_eq] at htiles
    exact htiles.2
  · have hfree := eq_none_of_firstSome hslots (failIf (s.slotsInUse.contains p.slot) loadSlotBusy p.slot)
      (List.mem_append_left _ (List.mem_map_of_mem hp))
    simpa [failIf_eq_none_iff] using hfree

theorem nifCheck_ok {bs : List (BitVec 8)} {cs : List Cause} {n : Nif} (h : nifCheck s bs cs = .ok n) :
    nifAccept s n = none := by
  unfold nifCheck at h
  dsimp only at h
  split at h
  · cases h
  · split at h
    · cases h
    · split at h
      · cases h
      · next hnone =>
        cases h
        exact hnone

end

/-! ### The slots in use (R49) read the programs only -/

theorem mem_seqPath_lt {rd : Nat → BitVec 32} {fuel e : Nat} (he : e < 256) : ∀ n ∈ seqPath rd fuel e, n < 256 := by
  induction fuel generalizing e with
  | zero => simp [seqPath]
  | succ fuel ih =>
    intro n hn
    rw [seqPath] at hn
    rcases List.mem_cons.1 hn with rfl | hn
    · exact he
    · split at hn
      · simp at hn
      · exact ih (Nat.mod_lt _ (by decide)) n hn

section
variable {rd rd' : Nat → BitVec 32} (h : ∀ n, n < 256 → rd n = rd' n)
include h

theorem seqPath_congr {fuel e : Nat} (he : e < 256) : seqPath rd fuel e = seqPath rd' fuel e := by
  induction fuel generalizing e with
  | zero => rfl
  | succ fuel ih =>
    have hnext : seqNext (rd' e) < 256 := Nat.mod_lt _ (by decide)
    rw [seqPath, seqPath, h e he, ih hnext]

theorem slotsOf_congr {e : Nat} (he : e < 256) : slotsOf rd e = slotsOf rd' e := by
  have hreached : seqReached rd e = seqReached rd' e := by
    rw [seqReached, seqReached, seqPath_congr h he]
    refine List.filter_congr fun n hn => ?_
    rw [h n (mem_seqPath_lt he n (List.mem_of_mem_take hn))]
  rw [slotsOf, slotsOf, hreached]
  refine congrArg _ (List.map_congr_left fun n hn => ?_)
  rw [h n (mem_seqPath_lt he n (List.mem_of_mem_take (List.mem_of_mem_filter hn)))]

end

section
variable {s s' : State}

theorem slotsInUse_of_progs (h : s'.progs = s.progs) : s'.slotsInUse = s.slotsInUse := by
  have hstart : s'.reg FRM_SEQ_START = s.reg FRM_SEQ_START := reg_of_progs h (by decide)
  rw [State.slotsInUse, State.slotsInUse, hstart]
  refine slotsOf_congr (fun n hn => reg_of_progs h (.inl ?_)) (Nat.mod_lt _ (by decide))
  unfold FRM_SEQ
  omega

theorem tileCount_of_progs (h : s'.progs = s.progs) : s'.tileCount = s.tileCount := by
  rw [State.tileCount, State.tileCount, reg_of_progs h (by decide)]

end

/-! ### LOAD_CHECKS (R224) -/

section
variable {s : State} {l : Load}

/-- The checks read the image and judge it (R224). -/
theorem exec_loadChecks (hload : s.load = some l) (hstate : s.loadState = 1) :
    let r := s.spaceRead (addrSpace l.addr) (addrOff l.addr) l.len
    exec .loadChecks s = .next (match nifCheck r.1 r.2.1 r.2.2 with
      | .error e => loadFail (loadProgress r.1 l.len) e.1 e.2
      | .ok n => { (r.1.setRegFld DMC_LOAD_STATUS 8 3 2).setReg DMC_LOAD_PROGRESS (BitVec.ofNat 32 l.len) with
          load := some { l with image := some n } }) := by
  have hexec : exec .loadChecks s = .next (loadChecks s) := rfl
  intro r
  rw [hexec, loadChecks, hload]
  simp only [hstate, ne_eq, not_true_eq_false, if_false]
  rfl

theorem loadState_withLoad (s : State) (l : Option Load) : State.loadState { s with load := l } = s.loadState := rfl

/-- An image that has passed: the load goes on with it. -/
theorem loadPassed (s : State) (v : BitVec 32) (l : Option Load) :
    let s' : State := { (s.setRegFld DMC_LOAD_STATUS 8 3 2).setReg DMC_LOAD_PROGRESS v with load := l }
    samePrograms s s' ∧ s'.load = l ∧ s'.loadState = 2 := by
  have hsame := (samePrograms_setReg s DMC_LOAD_STATUS (setFld (s.reg DMC_LOAD_STATUS) 8 3 2)).trans
    (samePrograms_setReg _ DMC_LOAD_PROGRESS v)
  have hne : DMC_LOAD_STATUS ≠ DMC_LOAD_PROGRESS := by decide
  have hreg : ((s.setRegFld DMC_LOAD_STATUS 8 3 2).setReg DMC_LOAD_PROGRESS v).reg DMC_LOAD_STATUS
      = setFld (s.reg DMC_LOAD_STATUS) 8 3 2 := by
    rw [State.reg_setReg_ne _ _ hne, State.setRegFld, State.reg_setReg_same]
  have hstate : ((s.setRegFld DMC_LOAD_STATUS 8 3 2).setReg DMC_LOAD_PROGRESS v).loadState = 2 := by
    rw [State.loadState, hreg, loadState_setFld]
  exact ⟨hsame.trans (samePrograms_withLoad _ l), rfl, (loadState_withLoad _ l).trans hstate⟩

end

end Sys2Proof.Machine

/-! PROOFS. O30, fourth part: the install of an image (R227, R229). -/

namespace Sys2Proof.Machine

/-! ### What the steps of a fold establish -/

/-- What each step of a fold establishes for its element, and keeps for the others, holds of all of them after it. -/
theorem foldl_establishes {α β : Type} {P : α → β → Prop} {f : β → α → β} (hstep : ∀ s a, P a (f s a))
    (hkeep : ∀ s a b, P b s → P b (f s a)) (l : List α) (s : β) : ∀ a ∈ l, P a (l.foldl f s) := by
  induction l using List.reverseRecOn with
  | nil => simp
  | append_singleton l a ih =>
    intro b hb
    rw [List.foldl_append, List.foldl_cons, List.foldl_nil]
    rcases List.mem_append.1 hb with hb | hb
    · exact hkeep _ a b (ih b hb)
    · rw [List.mem_singleton.1 hb]
      exact hstep _ a

/-! ### The digests of the slots stay through a commit request (R62, R63) -/

@[simp] theorem slotDigest_ite (c : Prop) [Decidable c] (s s' : State) :
    (if c then s else s').slotDigest = if c then s.slotDigest else s'.slotDigest := apply_ite ..

@[simp] theorem slotDigest_foldl {β : Type} {f : State → β → State} (h : ∀ s b, (f s b).slotDigest = s.slotDigest)
    (l : List β) (s : State) : (l.foldl f s).slotDigest = s.slotDigest := foldl_keeps State.slotDigest (fun s b _ => h s b) s

section
variable (s : State)

@[simp] theorem slotDigest_setRegFld (o lo w x : Nat) : (s.setRegFld o lo w x).slotDigest = s.slotDigest := rfl

@[simp] theorem slotDigest_orReg (o : Nat) (v : BitVec 32) : (s.orReg o v).slotDigest = s.slotDigest := rfl

@[simp] theorem slotDigest_incReg (o : Nat) : (s.incReg o).slotDigest = s.slotDigest := rfl

@[simp] theorem slotDigest_setLinkState (l st : Nat) : (s.setLinkState l st).slotDigest = s.slotDigest := rfl

@[simp] theorem slotDigest_discard : s.discard.slotDigest = s.slotDigest := rfl

@[simp] theorem slotDigest_sendNotice (l : Nat) (n : Notice) : (s.sendNotice l n).slotDigest = s.slotDigest := rfl

@[simp] theorem slotDigest_selectTwin (prog xfer : Nat) : (s.selectTwin prog xfer).slotDigest = s.slotDigest := by
  simp only [State.selectTwin]
  split <;> rfl

@[simp] theorem slotDigest_linkLost (l : Nat) : (s.linkLost l).slotDigest = s.slotDigest := by
  simp [State.linkLost]

@[simp] theorem slotDigest_linkDown (l cause : Nat) : (s.linkDown l cause).slotDigest = s.slotDigest := by
  simp [State.linkDown, slotDigest_foldl fun s _ => slotDigest_discard s]

@[simp] theorem slotDigest_commitTile (n : State) (t : Nat) : (commitTile s n t).slotDigest = n.slotDigest := by
  simp [commitTile]

@[simp] theorem slotDigest_commitLink (n : State) (l : Nat) : (commitLink s n l).slotDigest = n.slotDigest := by
  simp [commitLink]

@[simp] theorem slotDigest_commitApply (n : State) : (commitApply s n).slotDigest = n.slotDigest := by
  simp only [commitApply]
  split <;> simp

theorem slotDigest_applyShadow : (applyShadow s).slotDigest = s.slotDigest := rfl

@[simp] theorem slotDigest_commit : (commit s).slotDigest = s.slotDigest := by
  unfold commit
  split
  · simp
  · extract_lets n
    split <;> simp [n, slotDigest_applyShadow]

@[simp] theorem slotDigest_setCommitReq (r : Option CommitReq) : (s.setCommitReq r).slotDigest = s.slotDigest := rfl

@[simp] theorem slotDigest_commitRefuse (code : Nat) : (commitRefuse s code).slotDigest = s.slotDigest := rfl

theorem slotDigest_commitOp (op : Nat) : (commitOp s op).slotDigest = s.slotDigest := by
  unfold commitOp
  split
  · exact slotDigest_setCommitReq s _
  · simp only [commitAtCount]
    split <;> simp
  · simp only [commitNow]
    split <;> simp
  · exact slotDigest_setCommitReq s _
  · rfl

theorem slotDigest_muleStart (t : Nat) : (muleStart s t).slotDigest = s.slotDigest := by
  simp [muleStart, State.modMule]

end

/-! ### The states of the Mules stay through an abandoned install (R229) -/

/-- The states of the Mules. -/
def State.muleStates (s : State) (u : Nat) : MuleState := (s.tile u).mule.state

section
variable (s : State)

theorem muleStates_modTile (t : Nat) {f : Tile → Tile} (hf : ∀ x, (f x).mule.state = x.mule.state) :
    (s.modTile t f).muleStates = s.muleStates := by
  funext u
  rw [State.muleStates, State.tile_modTile]
  split
  · next hu => rw [hf, hu]; rfl
  · rfl

theorem muleStates_setReg (o : Nat) (v : BitVec 32) : (s.setReg o v).muleStates = s.muleStates := rfl

theorem muleStates_setShadow (o : Nat) (v : BitVec 32) : (s.setShadow o v).muleStates = s.muleStates := rfl

theorem muleStates_foldl {β : Type} {f : State → β → State} (h : ∀ s b, (f s b).muleStates = s.muleStates)
    (l : List β) : (l.foldl f s).muleStates = s.muleStates := foldl_keeps State.muleStates (fun s b _ => h s b) s

theorem muleStates_ite (c : Prop) [Decidable c] {s s' : State} (h : s'.muleStates = s.muleStates) :
    (if c then s' else s).muleStates = s.muleStates := by
  split
  · exact h
  · rfl

theorem muleStates_installBlock (b : NifBlock) : (installBlock s b).muleStates = s.muleStates := by
  unfold installBlock
  split
  · rfl
  · exact muleStates_modTile s _ fun _ => rfl

theorem muleStates_installMule (m : NifMule) : (installMule s m).muleStates = s.muleStates := by
  unfold installMule
  split
  · rfl
  · exact (muleStates_setReg ..).trans (muleStates_modTile s _ fun _ => rfl)

theorem muleStates_plainWrite (o : Nat) (g : RegGroup) (v : BitVec 32) :
    (plainWrite s o g v).muleStates = s.muleStates := by
  unfold plainWrite
  split <;> rfl

theorem muleStates_installConfig (e : Nat × BitVec 32) : (installConfig s e).muleStates = s.muleStates := by
  unfold installConfig
  split
  · rfl
  · split
    · exact muleStates_plainWrite ..
    · rfl

theorem muleStates_setMaskShadows (base m : Nat) : (s.setMaskShadows base m).muleStates = s.muleStates :=
  muleStates_foldl s (fun s _ => muleStates_setShadow s _ _) _

theorem muleStates_installProg (p : NifProg) : (installProg s p).muleStates = s.muleStates := by
  rw [installProg, muleStates_setShadow, muleStates_setMaskShadows, muleStates_setMaskShadows,
    muleStates_setShadow, muleStates_setShadow, muleStates_setShadow]

theorem muleStates_installShadows (n : Nif) : (installShadows s n).muleStates = s.muleStates := by
  have hconfig := muleStates_foldl s muleStates_installConfig n.config
  unfold installShadows
  extract_lets s1 s2
  have hlatency : s2.muleStates = s1.muleStates := by
    unfold s2
    split
    · exact muleStates_foldl _ (fun s _ => muleStates_setShadow s _ _) _
    · rfl
  rw [muleStates_foldl _ muleStates_installProg, hlatency, hconfig]

theorem muleStates_installRoutes (n : Nif) : (installRoutes s n).muleStates = s.muleStates := rfl

theorem muleStates_installFirst (n : Nif) (k : Nat) : (installFirst s n k).muleStates = s.muleStates := by
  rw [installFirst, muleStates_ite _ (muleStates_installRoutes _ n), muleStates_ite _ (muleStates_installShadows _ n),
    muleStates_ite _ (muleStates_foldl _ muleStates_installMule _),
    muleStates_ite _ (muleStates_foldl s muleStates_installBlock _)]

/-! ### An abandoned install (R229) -/

/-- A slot of an abandoned install: its shadow is left without VALID, and its latency table without a value. -/
def abandonSlot (s : State) (p : NifProg) : State :=
  (s.setShadow (FRM_PROG_CFG p.slot) (setFld (s.shReg (FRM_PROG_CFG p.slot)) 31 1 0)).setRegFld (DMC_SLOT p.slot) 24 8 0

/-- Whether the shadow of a slot's configuration stands without VALID. -/
def slotInvalid (p : NifProg) (s : State) : Prop :=
  ∃ v, mapFind s.shadow (FRM_PROG_CFG p.slot) = some v ∧ bit v 31 = false

theorem installAbandon_eq (n seen : Nif) :
    installAbandon s n seen = n.progs.foldl abandonSlot (installFirst s.free.2 seen (s.free.1 % 5)) := rfl

theorem muleStates_abandonSlot (p : NifProg) : (abandonSlot s p).muleStates = s.muleStates :=
  (muleStates_setReg _ _ _).trans (muleStates_setShadow s _ _)

theorem muleStates_installAbandon (n seen : Nif) : (installAbandon s n seen).muleStates = s.muleStates := by
  rw [installAbandon_eq, muleStates_foldl _ muleStates_abandonSlot, muleStates_installFirst]
  rfl

theorem valid_setFld (v : BitVec 32) : bit (setFld v 31 1 0) 31 = false := by
  have hv := v.isLt
  have hfld : fld (setFld v 31 1 0) 31 1 = 0 := by
    rw [setFld]
    refine fld_ofNat_eq ?_
    unfold fld
    omega
  simp [bit, hfld]

theorem mapFind_abandonSlot (p : NifProg) (o : Nat) : mapFind (abandonSlot s p).shadow o
    = if o = FRM_PROG_CFG p.slot then some (setFld (s.shReg (FRM_PROG_CFG p.slot)) 31 1 0) else mapFind s.shadow o :=
  mapFind_mapPut ..

/-- After an abandoned install no slot of the image is valid (R229). -/
theorem slotInvalid_installAbandon (n seen : Nif) : ∀ p ∈ n.progs, slotInvalid p (installAbandon s n seen) := by
  rw [installAbandon_eq]
  refine foldl_establishes (fun s p => ⟨_, (mapFind_abandonSlot s p _).trans (if_pos rfl), valid_setFld _⟩)
    (fun s p q hq => ?_) _ _
  by_cases hslot : FRM_PROG_CFG q.slot = FRM_PROG_CFG p.slot
  · exact ⟨_, (mapFind_abandonSlot s p _).trans (if_pos hslot), valid_setFld _⟩
  · obtain ⟨v, hv, hbit⟩ := hq
    exact ⟨v, (mapFind_abandonSlot s p _).trans ((if_neg hslot).trans hv), hbit⟩

theorem slotInvalid_of_samePrograms {s s' : State} {p : NifProg} (h : samePrograms s s') (hp : slotInvalid p s) :
    bit (s'.shReg (FRM_PROG_CFG p.slot)) 31 = false := by
  obtain ⟨hshadow, -⟩ := h
  obtain ⟨v, hv, hbit⟩ := hp
  rw [State.shReg, hshadow, hv]
  exact hbit

theorem muleStates_of_samePrograms {s s' : State} (h : samePrograms s s') : s'.muleStates = s.muleStates := by
  obtain ⟨-, -, -, -, htiles⟩ := h
  funext t
  rw [State.muleStates, (htiles t).2]
  rfl

end

end Sys2Proof.Machine

/-! PROOFS. O30, fifth part: LOAD_INSTALL, and the statement. -/

namespace Sys2Proof.Machine

/-! ### LOAD_INSTALL (R227, R229) -/

/-- A load that awaits the commit it has asked for (R228). -/
def loadAwaits (s : State) (l : Load) : State := { s.setRegFld DMC_LOAD_STATUS 8 3 3 with load := some l }

theorem slotDigest_withLoad (s : State) (l : Option Load) :
    State.slotDigest { s with load := l } = s.slotDigest := rfl

theorem slotDigest_loadAwaits (s : State) (l : Load) : (loadAwaits s l).slotDigest = s.slotDigest := by
  rw [loadAwaits, slotDigest_withLoad, slotDigest_setRegFld]

theorem load_loadAwaits (s : State) (l : Load) : (loadAwaits s l).load = some l := rfl

theorem loadState_loadAwaits (s : State) (l : Load) : (loadAwaits s l).loadState = 3 := by
  rw [loadAwaits, loadState_withLoad, State.loadState, State.setRegFld, State.reg_setReg_same, loadState_setFld]

/-- The state of an install whose second reading gave the bytes that were checked (R227). -/
def installDone (s : State) (l : Load) (n : Nif) : State :=
  let s := n.mules.foldl (fun s m => muleStart s m.tile) (installSlots (installFirst s n 4) n)
  if l.cop = 0 then loadFinish s loadDone
  else loadAwaits (commitOp s l.cop) l

/-- What an install does with its second reading: the state, the bytes and their causes (R227, R229). -/
def installRead (s : State) (l : Load) (n : Nif) (bs : List (BitVec 8)) (cs : List Cause) : State :=
  match (cs.zip (List.range cs.length)).find? fun e => e.1 != .none with
  | some e => loadFail (loadProgress (installAbandon s n n) l.len) loadMemory e.2
  | none =>
    let s := s.setReg DMC_LOAD_PROGRESS (BitVec.ofNat 32 l.len)
    if nifDigest bs ≠ n.digest then loadFail (installAbandon s n (nifRead bs)) loadDigest 0 else installDone s l n

theorem exec_loadInstall {s : State} {l : Load} {n : Nif} (hload : s.load = some l) (himage : l.image = some n)
    (hstate : s.loadState = 2) :
    let r := s.spaceRead (addrSpace l.addr) (addrOff l.addr) l.len
    exec .loadInstall s = .next (installRead r.1 l n r.2.1 r.2.2) := by
  have hexec : exec .loadInstall s = .next (loadInstall s) := rfl
  intro r
  rw [hexec, loadInstall, hload]
  dsimp only
  rw [himage]
  simp only [hstate, ne_eq, not_true_eq_false, if_false]
  rfl

/-- A byte was read with a cause where the search for the first finds one. -/
theorem find_cause_eq_none_iff (cs : List Cause) :
    (cs.zip (List.range cs.length)).find? (fun e => e.1 != .none) = none ↔ ¬ ∃ c ∈ cs, c ≠ .none := by
  have hfst : (cs.zip (List.range cs.length)).map Prod.fst = cs := List.map_fst_zip (by simp)
  have hmem : (∃ c ∈ cs, c ≠ .none) ↔ ∃ e ∈ cs.zip (List.range cs.length), e.1 ≠ .none := by
    constructor
    · rintro ⟨c, hc, hne⟩
      rw [← hfst] at hc
      obtain ⟨e, he, rfl⟩ := List.mem_map.1 hc
      exact ⟨e, he, hne⟩
    · rintro ⟨e, he, hne⟩
      exact ⟨e.1, hfst ▸ List.mem_map_of_mem he, hne⟩
  rw [hmem, List.find?_eq_none]
  simp

section
variable (s : State) (l : Load) (n : Nif) (bs : List (BitVec 8)) (cs : List Cause)

/-- A load that fails in its install: its code, no valid slot, and no Mule started (R229). -/
theorem installFails {s1 s2 : State} (seen : Nif) (code detail : Nat) (hcode : code < 256)
    (hsame : samePrograms (installAbandon s n seen) s1) (h2 : s2 = loadFail s1 code detail) :
    loadEndedWith s2 code ∧ (∀ p ∈ n.progs, bit (s2.shReg (FRM_PROG_CFG p.slot)) 31 = false)
      ∧ s2.muleStates = s.muleStates := by
  have hsame2 : samePrograms (installAbandon s n seen) s2 := h2 ▸ hsame.trans (samePrograms_loadFail s1 code detail)
  exact ⟨h2 ▸ loadEndedWith_loadFail s1 code detail hcode,
    fun p hp => slotInvalid_of_samePrograms hsame2 (slotInvalid_installAbandon s n seen p hp),
    (muleStates_of_samePrograms hsame2).trans (muleStates_installAbandon s n seen)⟩

theorem installRead_memory (h : ∃ c ∈ cs, c ≠ .none) :
    loadEndedWith (installRead s l n bs cs) loadMemory
      ∧ (∀ p ∈ n.progs, bit ((installRead s l n bs cs).shReg (FRM_PROG_CFG p.slot)) 31 = false)
      ∧ (installRead s l n bs cs).muleStates = s.muleStates := by
  cases hfind : (cs.zip (List.range cs.length)).find? fun e => e.1 != .none with
  | none => exact ((find_cause_eq_none_iff cs).1 hfind h).elim
  | some e =>
    refine installFails s n n loadMemory e.2 (by decide) (samePrograms_loadProgress _ l.len) ?_
    rw [installRead, hfind]

theorem installRead_digest (h : ¬ ∃ c ∈ cs, c ≠ .none) (hdigest : nifDigest bs ≠ n.digest) :
    loadEndedWith (installRead s l n bs cs) loadDigest
      ∧ (∀ p ∈ n.progs, bit ((installRead s l n bs cs).shReg (FRM_PROG_CFG p.slot)) 31 = false)
      ∧ (installRead s l n bs cs).muleStates = s.muleStates := by
  have h2 : installRead s l n bs cs = loadFail (installAbandon
      (s.setReg DMC_LOAD_PROGRESS (BitVec.ofNat 32 l.len)) n (nifRead bs)) loadDigest 0 := by
    rw [installRead, (find_cause_eq_none_iff cs).2 h]
    exact if_pos hdigest
  obtain ⟨hended, hslots, hmules⟩ := installFails _ n (nifRead bs) loadDigest 0 (by decide) (samePrograms_refl _) h2
  exact ⟨hended, hslots, hmules.trans (muleStates_setReg ..)⟩

theorem installRead_done (h : ¬ ∃ c ∈ cs, c ≠ .none) (hdigest : nifDigest bs = n.digest) :
    installRead s l n bs cs = installDone (s.setReg DMC_LOAD_PROGRESS (BitVec.ofNat 32 l.len)) l n := by
  rw [installRead, (find_cause_eq_none_iff cs).2 h]
  exact if_neg (not_not.2 hdigest)

/-- A slot of an installed image: its digest, and its word of DMC_SLOT (R227). -/
def recordSlot (n : Nif) (s : State) (p : NifProg) : State :=
  ({ s with slotDigest := mapPut s.slotDigest p.slot n.digest } : State).setReg (DMC_SLOT p.slot)
    (BitVec.ofNat 32 (p.entry % 2048 + p.len * 2 ^ 12 + n.latency * 2 ^ 24))

theorem installSlots_eq : installSlots s n = n.progs.foldl (recordSlot n) s := rfl

theorem mapFind_recordSlot (p : NifProg) (k : Nat) :
    mapFind (recordSlot n s p).slotDigest k = if k = p.slot then some n.digest else mapFind s.slotDigest k :=
  mapFind_mapPut ..

/-- The slots of an installed image have its digest (R227). -/
theorem slotDigest_installSlots : ∀ p ∈ n.progs, mapFind (installSlots s n).slotDigest p.slot = some n.digest := by
  rw [installSlots_eq]
  refine foldl_establishes (P := fun p (s : State) => mapFind s.slotDigest p.slot = some n.digest)
    (fun s p => (mapFind_recordSlot s n p _).trans (if_pos rfl)) (fun s p q hq => ?_) n.progs s
  rw [mapFind_recordSlot, hq, ite_self]

theorem installDone_slots : ∀ p ∈ n.progs, mapFind (installDone s l n).slotDigest p.slot = some n.digest := by
  have hstart := slotDigest_foldl (f := fun s (m : NifMule) => muleStart s m.tile)
    (fun s m => slotDigest_muleStart s m.tile) n.mules (installSlots (installFirst s n 4) n)
  have hdigest : (installDone s l n).slotDigest = (installSlots (installFirst s n 4) n).slotDigest := by
    rw [installDone]
    split
    · obtain ⟨-, -, -, hkept, -⟩ := samePrograms_loadFinish
        (n.mules.foldl (fun s m => muleStart s m.tile) (installSlots (installFirst s n 4) n)) loadDone
      exact hkept.trans hstart
    · rw [slotDigest_loadAwaits, slotDigest_commitOp, hstart]
  rw [hdigest]
  exact slotDigest_installSlots _ n

theorem installDone_without (h : l.cop = 0) : loadEndedWith (installDone s l n) loadDone := by
  rw [installDone]
  rw [if_pos h]
  exact loadEndedWith_loadFinish _ loadDone (by decide)

/-- An image installed with a commit operation awaits its request (R228). -/
theorem installDone_commit (h : l.cop ≠ 0) :
    (installDone s l n).load = some l ∧ (installDone s l n).loadState = 3 := by
  rw [installDone]
  rw [if_neg h]
  exact ⟨load_loadAwaits .., loadState_loadAwaits ..⟩

end

/-- The load goes on with the image `n`, or has ended with another code than LOAD_DONE (R224). -/
def loadJudged (s s' : State) (l : Load) : Prop :=
  (s'.load = none ∧ s'.loadState = 0 ∧ fld (s'.reg DMC_LOAD_STATUS) 0 8 ≠ 1)
    ∨ ∃ n, s'.load = some { l with image := some n } ∧ s'.loadState = 2 ∧ n.tiles = s.tileCount ∧ n.native = true
        ∧ ∀ p ∈ n.progs, p.slot ∉ s.slotsInUse

/-- The checks keep the programs of the module and judge the image (R224). -/
theorem loadChecks_outcome {s : State} {l : Load} (hload : s.load = some l) (hstate : s.loadState = 1) :
    ∃ s', exec .loadChecks s = .next s' ∧ samePrograms s s' ∧ loadJudged s s' l := by
  have hprogs := progs_spaceRead s (addrSpace l.addr) (addrOff l.addr) l.len
  have hexec := exec_loadChecks hload hstate
  generalize s.spaceRead (addrSpace l.addr) (addrOff l.addr) l.len = r at hprogs hexec
  refine ⟨_, hexec, ?_⟩
  dsimp only
  split
  · next e he =>
    obtain ⟨hlt, hne⟩ := nifCheck_error _ he
    obtain ⟨hnone, hended, hcode⟩ := loadEndedWith_loadFail (loadProgress r.1 l.len) e.1 e.2 hlt
    exact ⟨((samePrograms_of_progs hprogs).trans (samePrograms_loadProgress ..)).trans (samePrograms_loadFail ..),
      .inl ⟨hnone, hended, hcode.trans_ne hne⟩⟩
  · next n hn =>
    obtain ⟨hsame, hlatched, hpassed⟩ := loadPassed r.1 (BitVec.ofNat 32 l.len) (some { l with image := some n })
    obtain ⟨hnative, htiles, hslots⟩ := nifAccept_none _ (nifCheck_ok _ hn)
    rw [tileCount_of_progs hprogs] at htiles
    rw [slotsInUse_of_progs hprogs] at hslots
    exact ⟨(samePrograms_of_progs hprogs).trans hsame, .inr ⟨n, hlatched, hpassed, htiles, hnative, hslots⟩⟩

/-! ### The statement -/

/-- Settles O30: each write is its operation on the tile, and each step of the load one of the outcomes above. -/
theorem instructionMemoriesAndImages : Obligations.InstructionMemoriesAndImages := by
  refine ⟨⟨fun s t word v ht hreset hgated => ?_, fun s m t word v ht => ?_, fun s m t b v ht => ?_⟩,
    fun s cop => ⟨_, rfl, ?_⟩, fun s l hload hstate => ?_, fun s l n hload himage hstate => ?_, fun s hstate => ?_,
    fun s l hload => ?_⟩
  · rw [exec_mulImemWrite word v ht hreset hgated]
    exact ⟨fun hstopped => ⟨_, rfl, muleImemWrite_stopped word v hstopped⟩,
      fun hrun => congrArg _ (muleImemWrite_running word v hrun)⟩
  · rw [exec_imemStageWrite m v word ht]
    refine ⟨fun hreset => by rw [hreset]; rfl, fun hreset => ⟨imemStage s t m word v, by rw [hreset]; rfl, ?_⟩⟩
    obtain ⟨honly, hothers, htile⟩ := imemStage_frame (s := s) (t := t) m v word
    exact ⟨honly, hothers, htile, fun m' k hk => stagedWord_imemStage m v m' (by omega) hk⟩
  · rw [exec_imemBundleWrite m v b ht]
    refine ⟨fun hreset => by rw [hreset]; rfl, fun hreset => ⟨imemBundle s t m b v, by rw [hreset]; rfl, ?_⟩⟩
    obtain ⟨honly, hothers, htile⟩ := imemBundle_frame (s := s) (t := t) m v b
    exact ⟨honly, hothers, htile, fun i hi => bundle_imemBundle m v b hi, fun k hk => imem_imemBundle_ne m v hk,
      imemErr_imemBundle m v b, fun m' k hk => stagedWord_imemBundle m v b m' hk⟩
  · refine ⟨fun hbusy => ?_, fun hidle hbad => ?_, fun hidle hok => ?_⟩
    · rw [loadStart, loadStartAt_busy hbusy]
      exact loadRejected loadBusy (by decide)
    · rw [loadStart, loadStartAt_bad hidle (loadRequestBad_iff.2 hbad), ← hidle]
      exact loadRejected loadRequest (by decide)
    · rw [loadStart, loadStartAt_ok hidle fun hbad => hok (loadRequestBad_iff.1 hbad)]
      obtain ⟨hstate, hframe, hregs⟩ := loadStarted (s := s) (some ⟨_, _, cop.toNat, none⟩)
      exact ⟨hstate, rfl, hframe, hregs⟩
  · obtain ⟨s', hexec, ⟨hshadow, hroutes, hnext, hdigest, htiles⟩, hjudged⟩ := loadChecks_outcome hload hstate
    exact ⟨s', hexec, hshadow, hroutes, hnext, hdigest, htiles, hjudged⟩
  · have hmules := muleStates_of_samePrograms
      (samePrograms_of_progs (progs_spaceRead s (addrSpace l.addr) (addrOff l.addr) l.len))
    have hexec := exec_loadInstall hload himage hstate
    generalize s.spaceRead (addrSpace l.addr) (addrOff l.addr) l.len = r at hmules hexec
    refine ⟨_, hexec, fun hfails => ?_, fun hok hcop => ?_, fun hok hcop => ?_, fun hok => ?_⟩
    · by_cases hcause : ∃ c ∈ r.2.2, c ≠ .none
      · obtain ⟨⟨hnone, hended, hcode⟩, hslots, hkept⟩ := installRead_memory r.1 l n r.2.1 r.2.2 hcause
        exact ⟨hnone, hended, hcode.trans (if_pos hcause).symm, hslots, congrFun (hkept.trans hmules)⟩
      · have hdigest : nifDigest r.2.1 ≠ n.digest := hfails.resolve_left hcause
        obtain ⟨⟨hnone, hended, hcode⟩, hslots, hkept⟩ := installRead_digest r.1 l n r.2.1 r.2.2 hcause hdigest
        exact ⟨hnone, hended, hcode.trans (if_neg hcause).symm, hslots, congrFun (hkept.trans hmules)⟩
    all_goals
      obtain ⟨hcause, hdigest⟩ := not_or.1 hok
      rw [installRead_done r.1 l n r.2.1 r.2.2 hcause (not_not.1 hdigest)]
    · exact installDone_without _ l n hcop
    · exact installDone_commit _ l n hcop
    · exact installDone_slots _ l n
  · refine ⟨exec_loadEnd_pending, fun hnone => ⟨_, exec_loadEnd_resolved hstate hnone, ?_⟩⟩
    split
    · exact loadEndedWith_loadFinish s loadDone (by decide)
    · exact loadEndedWith_loadFinish s loadCommit (by decide)
  · refine ⟨fun hstate => ⟨_, exec_dmcLoadAbort_checks hload hstate, ?_⟩, exec_dmcLoadAbort_committing hload⟩
    obtain ⟨hnone, hended, hcode⟩ := loadEndedWith_loadFinish s loadAborted (by decide)
    obtain ⟨hshadow, -, hnext, -, htiles⟩ := samePrograms_loadFinish s loadAborted
    exact ⟨hnone, hended, hcode, hshadow, hnext, htiles⟩

end Sys2Proof.Machine

/-! PROOFS. O13: the control slot, repeat blocks, and what breaks its promises. -/

namespace Sys2Proof.Machine

/-! ### Commands of a tile that issues -/

section
variable {s : State} {t : Nat}

/-- A slot's command runs on a tile that has a bundle to issue (R170). -/
theorem onIssue_of_issuing (h : issuing s t) (f : State → State) : onIssue s t f = .next (f s) := by
  obtain ⟨ht, hissues⟩ := h
  rw [onIssue, onTile_lt ht, if_pos hissues]

variable (h : issuing s t)
include h

theorem exec_kset (k : BitVec 2) (imm : BitVec 16) : exec (.kset t k imm) s = .next (kset s t k.toNat imm) :=
  onIssue_of_issuing h fun s => kset s t k.toNat imm

theorem exec_rep (k : BitVec 2) (len : BitVec 10) : exec (.rep t k len) s = .next (rep s t k.toNat len.toNat) :=
  onIssue_of_issuing h fun s => rep s t k.toNat len.toNat

theorem exec_repIterationEnd : exec (.repIterationEnd t) s = .next (repIterationEnd s t) :=
  onIssue_of_issuing h (repIterationEnd · t)

theorem exec_jmp (target : BitVec 11) : exec (.jmp t target) s = .next (jmp s t target) :=
  onIssue_of_issuing h (jmp · t target)

theorem exec_jq (q : BitVec 2) (target : BitVec 11) : exec (.jq t q target) s = .next (jq s t q.toNat target) :=
  onIssue_of_issuing h fun s => jq s t q.toNat target

theorem exec_qcmp (q k rel : BitVec 2) (imm : BitVec 16) :
    exec (.qcmp t q k rel imm) s = .next (qcmp s t q.toNat k.toNat rel.toNat imm) :=
  onIssue_of_issuing h fun s => qcmp s t q.toNat k.toNat rel.toNat imm

theorem exec_endOp : exec (.endOp t) s = .next (endProgram s t) := onIssue_of_issuing h (endProgram · t)

end

/-! ### Updates of a tile's control state -/

section
variable (s : State) (t : Nat) (f : Ctl → Ctl)

@[simp] theorem State.tile_modCtl_same : (s.modCtl t f).tile t = { s.tile t with ctl := f (s.tile t).ctl } :=
  State.tile_modTile_same ..

theorem State.ctl_modCtl : ((s.modCtl t f).tile t).ctl = f (s.tile t).ctl := by rw [State.tile_modCtl_same]

theorem sameTilesBut_modCtl : sameTilesBut s (s.modCtl t f) [t] := sameTilesBut_modTile s t _

theorem onlyCtl_modCtl : onlyCtl s (s.modCtl t f) t :=
  ⟨rfl, sameTilesBut_modCtl s t f, by rw [State.tile_modCtl_same]⟩

end

/-! ### Counters (R178, R179) -/

section
variable (c : Ctl) (k x : Nat) (v : BitVec 16)

theorem ctlK_ctlSetK : ctlK (ctlSetK c k v) x = if x = k then v else ctlK c x := mapGet_mapSet ..

theorem ctlJ_ctlSetJ : ctlJ (ctlSetJ c k v) x = if x = k then v else ctlJ c x := mapGet_mapSet ..

@[simp] theorem ctlJ_ctlSetK : ctlJ (ctlSetK c k v) x = ctlJ c x := rfl

@[simp] theorem ctlK_ctlSetJ : ctlK (ctlSetJ c k v) x = ctlK c x := rfl

end

/-- Counter `k` at `n` and its iteration index at `j`. -/
def ctlMoved (c : Ctl) (k : Nat) (n j : BitVec 16) : Ctl := ctlSetJ (ctlSetK c k n) k j

section
variable (c : Ctl) (k : Nat) (n j : BitVec 16)

theorem ctlK_ctlMoved (x : Nat) : ctlK (ctlMoved c k n j) x = if x = k then n else ctlK c x := ctlK_ctlSetK ..

theorem ctlJ_ctlMoved (x : Nat) : ctlJ (ctlMoved c k n j) x = if x = k then j else ctlJ c x := by
  rw [ctlMoved, ctlJ_ctlSetJ, ctlJ_ctlSetK]

end

/-- A control state whose maps of counters are those of `ctlMoved` has moved its counter. -/
theorem counterMoved_of_maps {s s' : State} {t k : Nat} {n j : BitVec 16}
    (hk : ∀ x, ctlK (s'.tile t).ctl x = if x = k then n else ctlK (s.tile t).ctl x)
    (hj : ∀ x, ctlJ (s'.tile t).ctl x = if x = k then j else ctlJ (s.tile t).ctl x)
    (hq : (s'.tile t).ctl.q = (s.tile t).ctl.q) (hended : (s'.tile t).ctl.ended = (s.tile t).ctl.ended)
    (hcycle : (s'.tile t).ctl.cycle = (s.tile t).ctl.cycle) : counterMoved s s' t k n j :=
  ⟨by rw [hk, if_pos rfl], by rw [hj, if_pos rfl], fun x hx => ⟨by rw [hk, if_neg hx], by rw [hj, if_neg hx]⟩, hq, hended,
    hcycle⟩

/-- Moving a counter, and the pc and the blocks with it, moves that counter only. -/
theorem counterMoved_modCtl (s : State) (t k : Nat) (n j : BitVec 16) {f : Ctl → Ctl} {pc : BitVec 11}
    {reps : List RepBlock}
    (hf : f (s.tile t).ctl = { ctlMoved (s.tile t).ctl k n j with pc := pc, reps := reps }) :
    counterMoved s (s.modCtl t f) t k n j := by
  refine counterMoved_of_maps (fun x => ?_) (fun x => ?_) ?_ ?_ ?_ <;> rw [State.ctl_modCtl, hf]
  · exact ctlK_ctlMoved _ k n j x
  · exact ctlJ_ctlMoved _ k n j x
  · rfl
  · rfl
  · rfl

/-! ### The control slot where no promise is broken (R178) -/

section
variable {s : State} {t : Nat}

theorem kset_of_inactive {k : Nat} (imm : BitVec 16) (h : ctlActive (s.tile t).ctl k = false) :
    kset s t k imm = s.modCtl t fun c => ctlKset c k imm := by
  rw [kset, h]
  rfl

theorem jump_within {target : BitVec 11} (h : ctlJumpBreaks (s.tile t).ctl target.toNat = false) :
    jump s t target = s.modCtl t fun c => { c with pc := target } := by
  rw [jump, h]
  rfl

theorem jmp_within {target : BitVec 11} (hend : ctlAtBodyEnd (s.tile t).ctl = false)
    (h : ctlJumpBreaks (s.tile t).ctl target.toNat = false) :
    jmp s t target = s.modCtl t fun c => { c with pc := target } := by
  rw [jmp, hend, jump_within h]
  rfl

theorem jq_within {q : Nat} {target : BitVec 11} (hend : ctlAtBodyEnd (s.tile t).ctl = false)
    (h : ctlQ (s.tile t).ctl q = true → ctlJumpBreaks (s.tile t).ctl target.toNat = false) :
    jq s t q target = s.modCtl t fun c => { c with pc := if ctlQ (s.tile t).ctl q then target else c.pc + 1 } := by
  rw [jq, hend]
  cases hq : ctlQ (s.tile t).ctl q with
  | false => rfl
  | true => rw [jump_within (h hq)]; rfl

/-- The comparison of QCMP (R178). -/
theorem ctlQ_ctlQcmp (c : Ctl) (q k : Nat) (rel : BitVec 2) (imm : BitVec 16) :
    ctlQ (ctlQcmp c q k rel.toNat imm) q = true ↔
      (rel = 0 ∧ (ctlK c k).toNat = imm.toNat) ∨ (rel = 1 ∧ (ctlK c k).toNat ≠ imm.toNat)
        ∨ (rel = 2 ∧ (ctlK c k).toNat < imm.toNat) ∨ (rel = 3 ∧ imm.toNat ≤ (ctlK c k).toNat) := by
  have hq : ∀ r, ctlQ { c with q := mapSet false c.q q r } q = r := fun r => mapGet_mapSet_same ..
  have hrel : ∀ r : BitVec 2, r = 0 ∨ r = 1 ∨ r = 2 ∨ r = 3 := by decide
  rcases hrel rel with rfl | rfl | rfl | rfl <;> simp [ctlQcmp, hq, BitVec.toNat_eq]

theorem ctlQ_ctlQcmp_ne (c : Ctl) {q x : Nat} (k rel : Nat) (imm : BitVec 16) (h : x ≠ q) :
    ctlQ (ctlQcmp c q k rel imm) x = ctlQ c x := mapGet_mapSet_ne _ _ _ h

/-- The clauses of KSET, JMP, JQ, QCMP and END. -/
theorem controlSlot_unbroken (h : issuing s t) :
    let c := (s.tile t).ctl
    (∀ (k : BitVec 2) (imm : BitVec 16), ctlActive c k.toNat = false →
      ∃ s', exec (.kset t k imm) s = .next s' ∧ onlyCtl s s' t ∧ counterSet s s' t k.toNat imm 0)
    ∧ (∀ target : BitVec 11, ctlAtBodyEnd c = false → ctlJumpBreaks c target.toNat = false →
      ∃ s', exec (.jmp t target) s = .next s' ∧ onlyCtl s s' t ∧ (s'.tile t).ctl = { c with pc := target })
    ∧ (∀ (q : BitVec 2) (target : BitVec 11), ctlAtBodyEnd c = false →
      (ctlQ c q.toNat = true → ctlJumpBreaks c target.toNat = false) →
      ∃ s', exec (.jq t q target) s = .next s' ∧ onlyCtl s s' t
        ∧ (s'.tile t).ctl = { c with pc := if ctlQ c q.toNat then target else c.pc + 1 })
    ∧ (∀ (q k rel : BitVec 2) (imm : BitVec 16),
      let v := (ctlK c k.toNat).toNat
      ∃ s', exec (.qcmp t q k rel imm) s = .next s' ∧ onlyCtl s s' t
        ∧ { (s'.tile t).ctl with q := c.q } = c ∧ (∀ x, x ≠ q.toNat → ctlQ (s'.tile t).ctl x = ctlQ c x)
        ∧ (ctlQ (s'.tile t).ctl q.toNat = true ↔
            (rel = 0 ∧ v = imm.toNat) ∨ (rel = 1 ∧ v ≠ imm.toNat) ∨ (rel = 2 ∧ v < imm.toNat)
              ∨ (rel = 3 ∧ imm.toNat ≤ v)))
    ∧ ∃ s', exec (.endOp t) s = .next s' ∧ onlyCtl s s' t
        ∧ (s'.tile t).ctl = { c with ended := true, reps := [] } := by
  refine ⟨fun k imm hk => ⟨_, exec_kset h k imm, ?_⟩, fun target hend hjump => ⟨_, exec_jmp h target, ?_⟩,
    fun q target hend hjump => ⟨_, exec_jq h q target, ?_⟩, fun q k rel imm => ⟨_, exec_qcmp h q k rel imm, ?_⟩,
    ⟨_, exec_endOp h, ?_⟩⟩
  · rw [kset_of_inactive imm hk]
    refine ⟨onlyCtl_modCtl .., counterMoved_modCtl _ _ _ _ _ rfl, ?_, ?_⟩ <;> rw [State.ctl_modCtl] <;> rfl
  · rw [jmp_within hend hjump]
    exact ⟨onlyCtl_modCtl .., State.ctl_modCtl ..⟩
  · rw [jq_within hend hjump]
    exact ⟨onlyCtl_modCtl .., State.ctl_modCtl ..⟩
  · rw [qcmp]
    refine ⟨onlyCtl_modCtl .., ?_, fun x hx => ?_, ?_⟩ <;> rw [State.ctl_modCtl]
    · rfl
    · exact ctlQ_ctlQcmp_ne _ _ _ _ hx
    · exact ctlQ_ctlQcmp ..
  · exact ⟨onlyCtl_modCtl .., State.ctl_modCtl ..⟩

end

/-! ### Repeat blocks (R179, R180) -/

section
variable {s : State} {t : Nat}

theorem rep_of_promise {k len : Nat} (hactive : ctlActive (s.tile t).ctl k = false)
    (hend : ctlAtBodyEnd (s.tile t).ctl = false)
    (hlen : ctlK (s.tile t).ctl k = 0 ∨ len = 0 ∨ (s.tile t).ctl.pc.toNat + len ≤ 2047) :
    rep s t k len = s.modCtl t fun c => ctlRep c k len := by
  rw [rep, if_neg]
  rw [hactive, hend]
  rintro (h | h | ⟨⟨hk, hl⟩, hcross⟩)
  · exact Bool.false_ne_true h
  · exact Bool.false_ne_true h
  · rcases hlen with h | h | h
    · exact hk h
    · exact hl h
    · omega

theorem ctlRep_skips {c : Ctl} {k len : Nat} (h : ctlK c k = 0 ∨ len = 0) :
    ctlRep c k len = { ctlMoved c k 0 0 with pc := BitVec.ofNat 11 (c.pc.toNat + len + 1), reps := c.reps } := by
  rw [ctlRep, ctlK_ctlSetJ]
  exact if_pos h

theorem ctlRep_opens {c : Ctl} {k len : Nat} (hk : ctlK c k ≠ 0) (hlen : len ≠ 0) :
    ctlRep c k len = { ctlSetJ c k 0 with
      pc := BitVec.ofNat 11 (c.pc.toNat + 1), reps := ⟨k, c.pc.toNat + 1, c.pc.toNat + len⟩ :: c.reps } := by
  rw [ctlRep, ctlK_ctlSetJ]
  exact if_neg (by rw [not_or]; exact ⟨hk, hlen⟩)

theorem toNat_eq_zero_iff {w : Nat} (x : BitVec w) : x.toNat = 0 ↔ x = 0 := by simp [BitVec.toNat_eq]

/-- The clause of REP. -/
theorem rep_unbroken (h : issuing s t) :
    let c := (s.tile t).ctl
    let a := c.pc.toNat
    ∀ (k : BitVec 2) (len : BitVec 10), ctlActive c k.toNat = false → ctlAtBodyEnd c = false →
      let n := ctlK c k.toNat
      (n = 0 ∨ len = 0 → ∃ s', exec (.rep t k len) s = .next s' ∧ onlyCtl s s' t
        ∧ (s'.tile t).ctl.pc = BitVec.ofNat 11 (a + len.toNat + 1) ∧ (s'.tile t).ctl.reps = c.reps
        ∧ counterMoved s s' t k.toNat 0 0)
      ∧ (n ≠ 0 → len ≠ 0 → a + len.toNat ≤ 2047 → ∃ s', exec (.rep t k len) s = .next s' ∧ onlyCtl s s' t
        ∧ (s'.tile t).ctl.pc = BitVec.ofNat 11 (a + 1)
        ∧ (s'.tile t).ctl.reps = ⟨k.toNat, a + 1, a + len.toNat⟩ :: c.reps
        ∧ counterMoved s s' t k.toNat n 0) := by
  intro c a k len hactive hend n
  refine ⟨fun hskip => ⟨_, exec_rep h k len, ?_⟩, fun hn hlen ha => ⟨_, exec_rep h k len, ?_⟩⟩
  · rw [← toNat_eq_zero_iff len] at hskip
    rw [rep_of_promise hactive hend (hskip.imp_right .inl)]
    have hrep := ctlRep_skips hskip
    refine ⟨onlyCtl_modCtl .., ?_, ?_, counterMoved_modCtl _ _ _ _ _ hrep⟩ <;> rw [State.ctl_modCtl, hrep]
  · rw [Ne, ← toNat_eq_zero_iff len] at hlen
    rw [rep_of_promise hactive hend (.inr (.inr ha))]
    have hrep := ctlRep_opens hn hlen
    have hctl := (State.ctl_modCtl s t fun c => ctlRep c k.toNat len.toNat).trans hrep
    refine ⟨onlyCtl_modCtl .., congrArg Ctl.pc hctl, congrArg Ctl.reps hctl, counterMoved_of_maps (fun x => ?_)
      (fun x => ?_) (congrArg Ctl.q hctl :) (congrArg Ctl.ended hctl :) (congrArg Ctl.cycle hctl :)⟩ <;> rw [hctl]
    · change ctlK c x = _
      split
      · next hx => rw [hx]
      · rfl
    · exact ctlJ_ctlSetJ c k.toNat x 0

/-- A control state at the end of an iteration of its innermost block (R179): counter one less, index one more. -/
def ctlCounted (c : Ctl) (b : RepBlock) : Ctl :=
  ctlMoved c b.counter (ctlK c b.counter - 1) (ctlJ c b.counter + 1)

section
variable {c : Ctl} {b : RepBlock} {rest : List RepBlock} {a : Nat}

theorem ctlIterEnd_elsewhere (h : b.last ≠ a) : ctlIterEnd (b :: rest) a c = { c with reps := b :: rest } := by
  rw [ctlIterEnd, if_neg h]

theorem ctlIterEnd_here (h : b.last = a) : ctlIterEnd (b :: rest) a c
    = if ctlK c b.counter = 1 then ctlIterEnd rest a { ctlCounted c b with pc := BitVec.ofNat 11 (a + 1) }
      else { ctlCounted c b with reps := b :: rest, pc := BitVec.ofNat 11 b.first } := by
  have hlast : ctlK (ctlCounted c b) b.counter = 0 ↔ ctlK c b.counter = 1 := by
    rw [ctlCounted, ctlK_ctlMoved, if_pos rfl, sub_eq_zero]
  rw [ctlIterEnd, if_pos h]
  simp only [← hlast, ← h]
  rfl

/-- Where no block ends at the bundle, the blocks stay. -/
theorem ctlIterEnd_of_none {reps : List RepBlock} (h : ∀ b r, reps = b :: r → b.last ≠ a) :
    ctlIterEnd reps a c = { c with reps := reps } := by
  cases reps with
  | nil => rfl
  | cons b r => exact ctlIterEnd_elsewhere (h b r rfl)

@[simp] theorem ctlK_moved (c : Ctl) (pc : BitVec 11) (reps : List RepBlock) (x : Nat) :
    ctlK { c with pc := pc, reps := reps } x = ctlK c x := rfl

@[simp] theorem ctlJ_moved (c : Ctl) (pc : BitVec 11) (reps : List RepBlock) (x : Nat) :
    ctlJ { c with pc := pc, reps := reps } x = ctlJ c x := rfl

theorem ctlK_ctlCounted (c : Ctl) (b : RepBlock) (x : Nat) :
    ctlK (ctlCounted c b) x = if x = b.counter then ctlK c b.counter - 1 else ctlK c x :=
  ctlK_ctlMoved c b.counter _ (ctlJ c b.counter + 1) x

theorem ctlJ_ctlCounted (c : Ctl) (b : RepBlock) (x : Nat) :
    ctlJ (ctlCounted c b) x = if x = b.counter then ctlJ c b.counter + 1 else ctlJ c x :=
  ctlJ_ctlMoved c b.counter (ctlK c b.counter - 1) _ x

/-- A last iteration whose bundle ends the enclosing block too counts for both (R179). -/
theorem ctlIterEnd_enclosing {e : RepBlock} {r : List RepBlock} (hb : b.last = a) (hn : ctlK c b.counter = 1)
    (he : e.last = a) (hne : e.counter ≠ b.counter) (hk : ctlK c e.counter ≠ 1) :
    let c' := ctlIterEnd (b :: e :: r) a c
    c'.pc = BitVec.ofNat 11 e.first ∧ c'.reps = e :: r
      ∧ ctlK c' e.counter = ctlK c e.counter - 1 ∧ ctlJ c' e.counter = ctlJ c e.counter + 1
      ∧ ctlK c' b.counter = 0 ∧ ctlJ c' b.counter = ctlJ c b.counter + 1 := by
  generalize hd : ({ ctlCounted c b with pc := BitVec.ofNat 11 (a + 1) } : Ctl) = d
  have hkd : ∀ x, ctlK d x = if x = b.counter then ctlK c b.counter - 1 else ctlK c x := hd ▸ ctlK_ctlCounted c b
  have hjd : ∀ x, ctlJ d x = if x = b.counter then ctlJ c b.counter + 1 else ctlJ c x := hd ▸ ctlJ_ctlCounted c b
  have hend : ctlIterEnd (b :: e :: r) a c = { ctlCounted d e with reps := e :: r, pc := BitVec.ofNat 11 e.first } := by
    rw [ctlIterEnd_here hb, if_pos hn, hd, ctlIterEnd_here he, hkd, if_neg hne, if_neg hk]
  dsimp only
  rw [hend]
  simp only [ctlK_moved, ctlJ_moved, ctlK_ctlCounted, ctlJ_ctlCounted, hkd, hjd, hne, hne.symm, hn, if_true, if_false,
    true_and]
  exact ⟨rfl, trivial⟩

end

/-- The clauses of the end of an iteration. -/
theorem repIterationEnd_counts (h : issuing s t) :
    let c := (s.tile t).ctl
    let a := c.pc.toNat
    (∀ (b : RepBlock) (rest : List RepBlock), c.reps = b :: rest → b.last = a →
      let n := ctlK c b.counter
      let j := ctlJ c b.counter
      ∃ s', exec (.repIterationEnd t) s = .next s' ∧ onlyCtl s s' t
        ∧ (n ≠ 1 → (s'.tile t).ctl.pc = BitVec.ofNat 11 b.first ∧ (s'.tile t).ctl.reps = c.reps
            ∧ counterMoved s s' t b.counter (n - 1) (j + 1))
        ∧ (n = 1 → (∀ e r, rest = e :: r → e.last ≠ a) →
            (s'.tile t).ctl.pc = BitVec.ofNat 11 (a + 1) ∧ (s'.tile t).ctl.reps = rest
            ∧ counterMoved s s' t b.counter 0 (j + 1))
        ∧ (∀ e r, n = 1 → rest = e :: r → e.last = a → e.counter ≠ b.counter → ctlK c e.counter ≠ 1 →
            (s'.tile t).ctl.pc = BitVec.ofNat 11 e.first ∧ (s'.tile t).ctl.reps = rest
            ∧ ctlK (s'.tile t).ctl e.counter = ctlK c e.counter - 1
            ∧ ctlJ (s'.tile t).ctl e.counter = ctlJ c e.counter + 1
            ∧ ctlK (s'.tile t).ctl b.counter = 0 ∧ ctlJ (s'.tile t).ctl b.counter = j + 1))
    ∧ ((∀ b r, c.reps = b :: r → b.last ≠ a) →
      ∃ s', exec (.repIterationEnd t) s = .next s' ∧ onlyCtl s s' t ∧ (s'.tile t).ctl = c) := by
  intro c a
  refine ⟨fun b rest hreps hb => ?_, fun hnone => ⟨_, exec_repIterationEnd h, onlyCtl_modCtl .., ?_⟩⟩
  · intro n j
    have hstep : ctlIterEnd c.reps a c = _ := hreps ▸ ctlIterEnd_here hb
    refine ⟨_, exec_repIterationEnd h, onlyCtl_modCtl .., fun hn => ?_, fun hn hrest => ?_, fun e r hn hrest he hne hk => ?_⟩
    · rw [if_neg hn] at hstep
      refine ⟨?_, ?_, counterMoved_modCtl _ _ _ _ _ hstep⟩ <;> rw [repIterationEnd, State.ctl_modCtl] <;>
        rw [hstep]
    · rw [if_pos hn, ctlIterEnd_of_none hrest] at hstep
      have hcounted : ctlCounted c b = ctlMoved c b.counter 0 (j + 1) := by
        have hone : ctlK c b.counter = 1 := hn
        rw [ctlCounted, hone]
        rfl
      refine ⟨?_, ?_, counterMoved_modCtl _ _ _ _ _ (hcounted ▸ hstep)⟩ <;> rw [repIterationEnd, State.ctl_modCtl] <;>
        rw [hstep]
    · have hreps' : (s.tile t).ctl.reps = b :: e :: r := hreps.trans (congrArg _ hrest)
      rw [repIterationEnd, State.ctl_modCtl, hreps', hrest]
      exact ctlIterEnd_enclosing hb hn he hne hk
  · rw [repIterationEnd, State.ctl_modCtl]
    exact ctlIterEnd_of_none hnone

end

/-! ### Broken promises of the control slot (R180, R196, R197) -/

section
variable {s : State} {t : Nat} {h : Hazard}

/-- A first report of a tile in the frame: it counts and raises HAZARD. -/
def hazardRaised (s : State) (t : Nat) (h : Hazard) : State :=
  ((s.incReg DBG_HZ_COUNT).modTile t fun x => { x with hazardSeen := true }).raiseTile t .hazard (hazardCode h)

/-- The record of a report of tile `t` at `cycle` and `pc`. -/
def hazardRecorded (s : State) (t : Nat) (h : Hazard) (cycle : Nat) (pc : BitVec 11) (tick : BitVec 64) : State :=
  ((((s.setReg DBG_HZ_STATUS (BitVec.ofNat 32 (1 + hazardCode h * 16))).setReg DBG_HZ_TILE (BitVec.ofNat 32 t)).setReg
    DBG_HZ_CYCLE (BitVec.ofNat 32 cycle)).setReg DBG_HZ_PC (pc.setWidth 32)).setReg64 DBG_HZ_TICK_LO tick

theorem hazardReport_of_off (hmode : bit (s.reg FRM_MODE) 2 = false) : hazardReport s t h = s := by
  rw [hazardReport, hmode]
  rfl

theorem hazardReport_of_seen (hmode : bit (s.reg FRM_MODE) 2 = true) (hseen : (s.tile t).hazardSeen = true) :
    hazardReport s t h = s.incReg DBG_HZ_COUNT := by
  rw [hazardReport, hmode]
  exact if_pos hseen

theorem hazardReport_of_first (hmode : bit (s.reg FRM_MODE) 2 = true) (hseen : (s.tile t).hazardSeen = false) :
    ∃ tick, hazardReport s t h = if bit (s.reg DBG_HZ_STATUS) 0 then hazardRaised s t h
      else hazardRecorded (hazardRaised s t h) t h (s.cycle t) (s.tile t).ctl.pc tick := by
  have hstatus : (s.incReg DBG_HZ_COUNT).reg DBG_HZ_STATUS = s.reg DBG_HZ_STATUS := by
    rw [State.reg_incReg, if_neg (by decide)]
  have hseen' : ((s.incReg DBG_HZ_COUNT).tile t).hazardSeen = false := hseen
  rw [← hstatus]
  simp only [hazardReport, hmode, hseen', if_true, Bool.false_eq_true, if_false]
  exact ⟨_, rfl⟩

end

/-- An offset that is none of `eventRegs` of any region, in the numerals that `omega` decides. -/
theorem not_mem_eventRegs {o r : Nat} (h : o < 0x01000000 ∧ o ≠ 0xB0110) : o ∉ eventRegs r := by
  simp only [eventRegs, GOS_L_EVENT, GOS_L_CORR, GOS_L_SUSPECT, GOS_L_HARD, GOS_REC_FAULT, regionBase,
    List.mem_cons, List.not_mem_nil, or_false, not_or]
  omega

section
variable (s : State) (t : Nat) (h : Hazard)

theorem reg_hazardRaised {o : Nat} (ho : ∀ r, o ∉ eventRegs r) :
    (hazardRaised s t h).reg o = (s.incReg DBG_HZ_COUNT).reg o := by
  rw [hazardRaised, State.raiseTile, reg_raise _ _ (ho _), State.reg_modTile]

theorem tile_hazardRaised : (hazardRaised s t h).tile t = { s.tile t with hazardSeen := true } := by
  rw [hazardRaised, State.raiseTile, raise_tile, State.tile_modTile_same]
  rfl

/-- The open frame holds the HAZARD event with the tile, its region and its cycle (R196, R372). -/
theorem event_hazardRaised (hdraining : s.frame.draining = false) :
    (⟨.hazard, s.tileRegion t, t, s.cycle t, hazardCode h⟩ : GEvent) ∈ (hazardRaised s t h).events := by
  generalize hs1 : (s.incReg DBG_HZ_COUNT).modTile t (fun x => { x with hazardSeen := true }) = s1
  have hregion : s1.tileRegion t = s.tileRegion t := by
    rw [← hs1, raise_tileRegion, State.tileRegion, State.physRow, State.usedRows, State.rowMap, State.reg_incReg,
      State.reg_incReg]
    rfl
  have hcycle : s1.cycle t = s.cycle t := by
    rw [← hs1, State.cycle, State.tile_modTile_same]
    rfl
  have hframe : s1.frame.draining = false := by rw [← hs1]; exact hdraining
  rw [hazardRaised, hs1, State.raiseTile, State.raise, hframe, hregion, hcycle]
  exact List.mem_append_right _ (List.mem_singleton_self _)

theorem tiles_hazardRecorded (cycle : Nat) (pc : BitVec 11) (tick : BitVec 64) :
    (hazardRecorded s t h cycle pc tick).tiles = s.tiles := by
  simp only [hazardRecorded, State.setReg64, State.setReg_tiles]

theorem events_hazardRecorded (cycle : Nat) (pc : BitVec 11) (tick : BitVec 64) :
    (hazardRecorded s t h cycle pc tick).events = s.events := by
  simp only [hazardRecorded, State.setReg64, State.setReg_events]

theorem reg_hazardRecorded (cycle : Nat) (pc : BitVec 11) (tick : BitVec 64) :
    (hazardRecorded s t h cycle pc tick).reg DBG_HZ_COUNT = s.reg DBG_HZ_COUNT
      ∧ (hazardRecorded s t h cycle pc tick).reg DBG_HZ_STATUS = BitVec.ofNat 32 (1 + hazardCode h * 16)
      ∧ (hazardRecorded s t h cycle pc tick).reg DBG_HZ_TILE = BitVec.ofNat 32 t
      ∧ (hazardRecorded s t h cycle pc tick).reg DBG_HZ_CYCLE = BitVec.ofNat 32 cycle := by
  simp [hazardRecorded, State.setReg64, DBG_HZ_COUNT, DBG_HZ_STATUS, DBG_HZ_TILE, DBG_HZ_CYCLE,
    DBG_HZ_PC, DBG_HZ_TICK_LO]

end

/-- What a broken promise of the control slot of tile `t` leaves behind (R8, R180, R196, R197). -/
structure FlowReported (s s' : State) (t : Nat) : Prop where
  broken : (s'.tile t).broken = true
  others : sameTilesBut s s' [t]
  memory : sameMemory s s'
  silent : bit (s.reg FRM_MODE) 2 = false → ∀ o, s'.reg o = s.reg o
  seen : bit (s.reg FRM_MODE) 2 = true → (s'.tile t).hazardSeen = true
  counted : bit (s.reg FRM_MODE) 2 = true →
    min ((s.reg DBG_HZ_COUNT).toNat + 1) (2 ^ 32 - 1) ≤ (s'.reg DBG_HZ_COUNT).toNat
  raised : bit (s.reg FRM_MODE) 2 = true → (s.tile t).hazardSeen = false → s.frame.draining = false →
    ⟨.hazard, s.tileRegion t, t, s.cycle t, hazardCode .flow⟩ ∈ s'.events
  recorded : bit (s.reg FRM_MODE) 2 = true → (s.tile t).hazardSeen = false → bit (s.reg DBG_HZ_STATUS) 0 = false →
    s'.reg DBG_HZ_STATUS = BitVec.ofNat 32 (1 + 7 * 16) ∧ s'.reg DBG_HZ_TILE = BitVec.ofNat 32 t
      ∧ s'.reg DBG_HZ_CYCLE = BitVec.ofNat 32 (s.cycle t)

section
variable (s : State) (t : Nat)

theorem reg_flowBreak (o : Nat) : (flowBreak s t).reg o = (hazardReport s t .flow).reg o := rfl

theorem events_flowBreak : (flowBreak s t).events = (hazardReport s t .flow).events := rfl

/-- What a violation does to its own tile and to the rest of the module. -/
theorem flowBreak_tiles : sameTilesBut s (flowBreak s t) [t] ∧ ((flowBreak s t).tile t).broken = true
    ∧ ((flowBreak s t).tile t).hazardSeen = ((hazardReport s t .flow).tile t).hazardSeen := by
  have hkept := (breakPromise_kept s t .flow).others
  have htile : (flowBreak s t).tile t = { (s.breakPromise t .flow).tile t with
      ctl := ((flowBreak s t).tile t).ctl } := by
    rw [flowBreak]
    dsimp only
    rw [State.tile_modCtl_same]
    rfl
  refine ⟨hkept.trans (sameTilesBut_modCtl (s.breakPromise t .flow).free.2 t _), ?_, ?_⟩
  · rw [htile]
    exact broken_breakPromise s t .flow
  · rw [htile, State.breakPromise, State.tile_modTile_same]

theorem toNat_incReg (o : Nat) : ((s.incReg o).reg o).toNat = min ((s.reg o).toNat + 1) (2 ^ 32 - 1) := by
  rw [State.reg_incReg, if_pos rfl, toNat_sat]

/-- A first violation, by the cases of the detector's report. -/
theorem flowReported_flowBreak : FlowReported s (flowBreak s t) t := by
  obtain ⟨hothers, hbroken, hseen'⟩ := flowBreak_tiles s t
  refine ⟨hbroken, hothers, sameMemory_of_mems (by simp), fun hmode o => ?_, fun hmode => ?_, fun hmode => ?_,
    fun hmode hseen hdrain => ?_, fun hmode hseen hstatus => ?_⟩
  · rw [reg_flowBreak, hazardReport_of_off hmode]
  · rw [hseen']
    cases hseen : (s.tile t).hazardSeen with
    | true => rw [hazardReport_of_seen hmode hseen]; exact hseen
    | false =>
      obtain ⟨tick, hreport⟩ := hazardReport_of_first (h := .flow) hmode hseen
      rw [hreport]
      split
      · rw [tile_hazardRaised]
      · rw [State.tile_of_tiles (tiles_hazardRecorded ..), tile_hazardRaised]
  · rw [reg_flowBreak, ← toNat_incReg]
    refine le_of_eq (congrArg BitVec.toNat ?_)
    cases hseen : (s.tile t).hazardSeen with
    | true => rw [hazardReport_of_seen hmode hseen]
    | false =>
      obtain ⟨tick, hreport⟩ := hazardReport_of_first (h := .flow) hmode hseen
      rw [hreport]
      split
      · rw [reg_hazardRaised _ _ _ fun r => not_mem_eventRegs (by decide)]
      · rw [(reg_hazardRecorded ..).1, reg_hazardRaised _ _ _ fun r => not_mem_eventRegs (by decide)]
  · obtain ⟨tick, hreport⟩ := hazardReport_of_first (h := .flow) hmode hseen
    rw [events_flowBreak, hreport]
    split
    · exact event_hazardRaised s t .flow hdrain
    · rw [events_hazardRecorded]
      exact event_hazardRaised s t .flow hdrain
  · obtain ⟨tick, hreport⟩ := hazardReport_of_first (h := .flow) hmode hseen
    rw [if_neg (by simp [hstatus])] at hreport
    simp only [reg_flowBreak, hreport]
    exact (reg_hazardRecorded ..).2

variable {s t} {s1 s2 : State}

/-- A second violation in the same bundle counts again, and leaves the rest of the first report. -/
theorem FlowReported.again (h : FlowReported s s1 t) : FlowReported s (flowBreak s1 t) t := by
  obtain ⟨hothers, hbroken, hseen⟩ := flowBreak_tiles s1 t
  have hmem : sameMemory s1 (flowBreak s1 t) := sameMemory_of_mems (by simp)
  have hcases : bit (s.reg FRM_MODE) 2 = true → hazardReport s1 t .flow = s1
      ∨ hazardReport s1 t .flow = s1.incReg DBG_HZ_COUNT := fun hmode => by
    cases hmode' : bit (s1.reg FRM_MODE) 2 with
    | false => exact .inl (hazardReport_of_off hmode')
    | true => exact .inr (hazardReport_of_seen hmode' (h.seen hmode))
  refine ⟨hbroken, h.others.trans hothers, fun a => ?_, fun hmode o => ?_, fun hmode => ?_, fun hmode => ?_,
    fun hmode hfirst hdrain => ?_, fun hmode hfirst hstatus => ?_⟩
  · obtain ⟨hs, hh, hd⟩ := h.memory a
    obtain ⟨hs', hh', hd'⟩ := hmem a
    exact ⟨hs'.trans hs, hh'.trans hh, hd'.trans hd⟩
  · rw [reg_flowBreak, hazardReport_of_off (by rw [h.silent hmode]; exact hmode), h.silent hmode]
  · rw [hseen]
    rcases hcases hmode with e | e <;> rw [e] <;> exact h.seen hmode
  · refine (h.counted hmode).trans ?_
    rw [reg_flowBreak]
    rcases hcases hmode with e | e <;> rw [e]
    rw [toNat_incReg]
    have := (s1.reg DBG_HZ_COUNT).isLt
    omega
  · rw [events_flowBreak]
    rcases hcases hmode with e | e <;> rw [e] <;> exact h.raised hmode hfirst hdrain
  · have hreg : ∀ o, o ≠ DBG_HZ_COUNT → (flowBreak s1 t).reg o = s1.reg o := fun o ho => by
      rw [reg_flowBreak]
      rcases hcases hmode with e | e <;> rw [e]
      rw [State.reg_incReg, if_neg ho]
    rw [hreg _ (by decide), hreg _ (by decide), hreg _ (by decide)]
    exact h.recorded hmode hfirst hstatus

/-- A violation is reported as from the state before the operation, whose own effect is on the control state. -/
theorem FlowReported.of_modCtl {f : Ctl → Ctl} (hf : (f (s.tile t).ctl).cycle = (s.tile t).ctl.cycle)
    (h : FlowReported (s.modCtl t f) s2 t) : FlowReported s s2 t := by
  have hseen : ((s.modCtl t f).tile t).hazardSeen = (s.tile t).hazardSeen := by rw [State.tile_modCtl_same]
  have hcycle : (s.modCtl t f).cycle t = s.cycle t := by
    rw [State.cycle, State.ctl_modCtl, hf]
    rfl
  refine ⟨h.broken, (sameTilesBut_modCtl s t f).trans h.others, h.memory, h.silent, h.seen, h.counted,
    fun hmode hfirst hdrain => ?_, fun hmode hfirst hstatus => ?_⟩
  · have := h.raised hmode (hseen.trans hfirst) hdrain
    rwa [hcycle, State.modCtl, raise_tileRegion] at this
  · have := h.recorded hmode (hseen.trans hfirst) hstatus
    rwa [hcycle] at this

theorem flowReported_modCtl {f : Ctl → Ctl} (hf : (f (s.tile t).ctl).cycle = (s.tile t).ctl.cycle) :
    FlowReported s (flowBreak (s.modCtl t f) t) t := .of_modCtl hf (flowReported_flowBreak _ t)

theorem cycle_ctlRep (c : Ctl) (k len : Nat) : (ctlRep c k len).cycle = c.cycle := by
  rw [ctlRep]
  dsimp only
  split <;> rfl

/-- A jump within the body, or one that has left it. -/
theorem jump_cases (target : BitVec 11) :
    jump s t target = s.modCtl t (fun c => { c with pc := target }) ∧ ctlJumpBreaks (s.tile t).ctl target.toNat = false
    ∨ FlowReported s (jump s t target) t := by
  cases hbreaks : ctlJumpBreaks (s.tile t).ctl target.toNat with
  | false => exact .inl ⟨jump_within hbreaks, rfl⟩
  | true =>
    refine .inr ?_
    rw [jump, if_pos hbreaks]
    exact flowReported_modCtl rfl

/-- A violation of the promise on the last bundle of a body, after a jump. -/
theorem flowReported_jump_again (target : BitVec 11) : FlowReported s (flowBreak (jump s t target) t) t := by
  rcases jump_cases (s := s) (t := t) target with ⟨hjump, -⟩ | h
  · rw [hjump]
    exact flowReported_modCtl rfl
  · exact h.again

theorem flowReported_jmp {target : BitVec 11}
    (h : ctlJumpBreaks (s.tile t).ctl target.toNat = true ∨ ctlAtBodyEnd (s.tile t).ctl = true) :
    FlowReported s (jmp s t target) t := by
  rw [jmp]
  split
  · exact flowReported_jump_again target
  · next hend =>
    rcases jump_cases (s := s) (t := t) target with ⟨-, hno⟩ | hjump
    · rcases h with h | h
      · exact absurd h (by simp [hno])
      · exact absurd h hend
    · exact hjump

theorem flowReported_jq {q : Nat} {target : BitVec 11}
    (h : (ctlQ (s.tile t).ctl q = true ∧ ctlJumpBreaks (s.tile t).ctl target.toNat = true)
      ∨ ctlAtBodyEnd (s.tile t).ctl = true) : FlowReported s (jq s t q target) t := by
  cases hq : ctlQ (s.tile t).ctl q with
  | false =>
    have hend : ctlAtBodyEnd (s.tile t).ctl = true := h.resolve_left (by simp [hq])
    simp only [jq, hq, hend, Bool.false_eq_true, if_false, if_true]
    exact flowReported_modCtl rfl
  | true =>
    have hjq : jq s t q target = jmp s t target := by simp only [jq, jmp, hq, if_true]
    rw [hjq]
    exact flowReported_jmp (h.imp_left And.right)

theorem flowReported_kset {k : Nat} (imm : BitVec 16) (h : ctlActive (s.tile t).ctl k = true) :
    FlowReported s (kset s t k imm) t := by
  rw [kset, if_pos h]
  exact flowReported_modCtl rfl

theorem flowReported_rep {k len : Nat} (h : ctlActive (s.tile t).ctl k = true ∨ ctlAtBodyEnd (s.tile t).ctl = true
      ∨ (ctlK (s.tile t).ctl k ≠ 0 ∧ len ≠ 0 ∧ 2047 < (s.tile t).ctl.pc.toNat + len)) :
    FlowReported s (rep s t k len) t := by
  rw [rep, if_pos (h.imp_right (.imp_right and_assoc.2))]
  exact flowReported_modCtl (cycle_ctlRep ..)

/-- A control operation that breaks a promise is reported. -/
theorem flowViolation_reported {i : Instr} (hs : issuing s t) (hv : flowViolation (s.tile t).ctl t i) :
    ∃ s', exec i s = .next s' ∧ FlowReported s s' t := by
  unfold flowViolation at hv
  split at hv
  · obtain ⟨rfl, h⟩ := hv
    exact ⟨_, exec_kset hs _ _, flowReported_kset _ h⟩
  · obtain ⟨rfl, h⟩ := hv
    refine ⟨_, exec_rep hs _ _, flowReported_rep (h.imp_right (.imp_right fun ⟨hk, hlen, hcross⟩ => ⟨hk, ?_, hcross⟩))⟩
    rwa [Ne, toNat_eq_zero_iff]
  · obtain ⟨rfl, h⟩ := hv
    exact ⟨_, exec_jmp hs _, flowReported_jmp h⟩
  · obtain ⟨rfl, h⟩ := hv
    exact ⟨_, exec_jq hs _ _, flowReported_jq h⟩
  · exact hv.elim

end

/-- Settles O13: each operation is its update of the control state, the blocks count from the innermost outwards, and each
broken promise is a report of the hazard detector. -/
theorem controlSlot_obligation : Obligations.ControlSlot := by
  refine ⟨fun s t h => controlSlot_unbroken h,
    fun s t h => ⟨rep_unbroken h, (repIterationEnd_counts h).1, (repIterationEnd_counts h).2⟩, fun i s t h hv => ?_⟩
  obtain ⟨s', hexec, hr⟩ := flowViolation_reported h hv
  exact ⟨s', hexec, hr.broken, hr.others, hr.memory, hr.silent, fun hmode => ⟨hr.seen hmode, hr.counted hmode,
    fun hfirst hdrain => ⟨hr.raised hmode hfirst hdrain, hr.recorded hmode hfirst⟩⟩⟩

end Sys2Proof.Machine

/-! PROOFS. O14 fails: the registers of an armed slot beyond the 64 program slots (R49) can be those of another unit. -/

namespace Sys2Proof.Machine

/-! ### An armed slot whose registers are another unit's

The statement is over every state, and a state can hold any number as its armed slot. FRM_PROG_CYCLES of this one is
GOS_L_EVENT of region 0, and the BAD_BUNDLE event of a malformed bundle sets a bit of it: the declared cycles C rise in
the cycle that the statement takes for the last. -/

/-- A program slot that no image can name. -/
def aliasedSlot : Nat := 0x401C0

theorem progCycles_aliasedSlot : FRM_PROG_CYCLES aliasedSlot = GOS_L_EVENT 0 := by decide

/-- A module of one tile in cycle 0 of a frame of one cycle, at a bundle whose reserved bit 240 is set. -/
def aliased : State :=
  let s := { State.reset with frame := { Frame.reset with armed := some aliasedSlot, released := true } }
  (((s.setReg DMC_IDENT (BitVec.ofNat 32 (1 * 2 ^ 8))).setReg (FRM_PROG_CYCLES aliasedSlot) 1).setReg
    (FRM_USED aliasedSlot 0) 1).modTile 0 fun x => { x with imem := [(0, 1 <<< 240)] }

theorem issuing_aliased : issuing aliased 0 := by
  unfold issuing
  decide +kernel

theorem quietTile_aliased : quietTile aliased 0 := by
  refine ⟨by decide +kernel, by decide +kernel, by decide +kernel, fun _ => rfl, by decide +kernel, by decide +kernel,
    by decide +kernel, fun _ => ⟨rfl, rfl⟩, ?_, ?_, ?_⟩ <;> intro x h <;> cases h

theorem malformed_aliased :
    bundleMalformed (mapGet 0 (aliased.tile 0).imem (aliased.tile 0).ctl.pc.toNat) = true := by decide +kernel

/-- It is the last cycle before the bundle issues. -/
theorem lastCycle_aliased : aliased.armedC = 1 ∧ (aliased.tile 0).ctl = ctlReset := by decide +kernel

/-- And no longer so once the event has been counted: the pc goes on. -/
theorem pc_bundleIssue_aliased : ((bundleIssue aliased 0).tile 0).ctl.pc = 1 := by decide +kernel

/-- Refutes O14: on `aliased` the pc of the last bundle does not stay. -/
theorem not_bundlesIssue : ¬ Obligations.BundlesIssue := by
  rintro ⟨hissue, -, -⟩
  obtain ⟨hC, hctl⟩ := lastCycle_aliased
  obtain ⟨s', hexec, hempty, -, -⟩ := hissue aliased 0 issuing_aliased quietTile_aliased
  obtain ⟨hafter, -⟩ := hempty (by rw [hctl]; exact fun b r h => by cases h) (.inr (.inr (.inl malformed_aliased)))
  have hs' : bundleIssue aliased 0 = s' :=
    Host.Outcome.next.inj ((onIssue_of_issuing issuing_aliased (bundleIssue · 0)).symm.trans hexec)
  have hpc : (s'.tile 0).ctl.pc = 0 := by
    rw [hafter, hctl, hC]
    rfl
  rw [← hs', pc_bundleIssue_aliased] at hpc
  exact absurd hpc (by decide)

end Sys2Proof.Machine

/-! PROOFS. O25: the starts of stream runs, and SHALT. -/

namespace Sys2Proof.Machine

/-! ### Registers that reports and events leave alone (R196, R370) -/

/-- The registers that a report of the hazard detector can write (R197). -/
def hazardRegs : List Nat :=
  [DBG_HZ_COUNT, DBG_HZ_STATUS, DBG_HZ_TILE, DBG_HZ_CYCLE, DBG_HZ_PC, DBG_HZ_TICK_LO, DBG_HZ_TICK_HI]

/-- A register that no event and no report writes. -/
def quietReg (o : Nat) : Prop := o ∉ hazardRegs ∧ ∀ r, o ∉ eventRegs r

section
variable {s : State} {t o : Nat}

theorem reg_hazardRecorded_ne (h : Hazard) (cycle : Nat) (pc : BitVec 11) (tick : BitVec 64) (ho : o ∉ hazardRegs) :
    (hazardRecorded s t h cycle pc tick).reg o = s.reg o := by
  simp only [hazardRegs, List.mem_cons, List.not_mem_nil, or_false, not_or] at ho
  obtain ⟨-, hstatus, htile, hcycle, hpc, hlo, hhi⟩ := ho
  have hhi : o ≠ DBG_HZ_TICK_LO + 4 := hhi
  simp only [hazardRecorded, State.setReg64, State.reg_setReg, hstatus, htile, hcycle, hpc, hlo, hhi, if_false]

theorem reg_hazardReport (h : Hazard) (ho : quietReg o) : (hazardReport s t h).reg o = s.reg o := by
  obtain ⟨hz, hev⟩ := ho
  have hcount : o ≠ DBG_HZ_COUNT := fun e => hz (by simp [hazardRegs, e])
  have hinc : (s.incReg DBG_HZ_COUNT).reg o = s.reg o := by rw [State.reg_incReg, if_neg hcount]
  cases hmode : bit (s.reg FRM_MODE) 2 with
  | false => rw [hazardReport_of_off hmode]
  | true =>
    cases hseen : (s.tile t).hazardSeen with
    | true => rw [hazardReport_of_seen hmode hseen, hinc]
    | false =>
      obtain ⟨tick, hreport⟩ := hazardReport_of_first (h := h) hmode hseen
      rw [hreport]
      split
      · rw [reg_hazardRaised _ _ _ hev, hinc]
      · rw [reg_hazardRecorded_ne _ _ _ _ hz, reg_hazardRaised _ _ _ hev, hinc]

theorem reg_breakPromise (h : Hazard) (ho : quietReg o) : (s.breakPromise t h).reg o = s.reg o := by
  rw [State.breakPromise, State.reg_modTile, reg_hazardReport h ho]

/-- Registers of a tile's window, but for those at the offsets of the event registers in a region's. -/
theorem quietReg_tile (t : Nat) {k : Nat} (h : k % 0x10000 < 0x8000 ∨ 0x8010 < k % 0x10000) : quietReg (tileBase t + k) := by
  refine ⟨?_, fun r => tileReg_not_mem_eventRegs t r h⟩
  simp only [hazardRegs, DBG_HZ_COUNT, DBG_HZ_STATUS, DBG_HZ_TILE, DBG_HZ_CYCLE, DBG_HZ_PC, DBG_HZ_TICK_LO,
    DBG_HZ_TICK_HI, tileBase, List.mem_cons, List.not_mem_nil, or_false, not_or]
  omega

end

/-! ### The region of a tile (R27, R31) -/

section
variable (s : State) {t : Nat}

/-- The regions of the part's tiles are few: their windows end below those of the tiles. -/
theorem tileRegion_lt (ht : t < 2048) : s.tileRegion t < 88 := by
  have hrow : s.physRow (t / 32) < 64 := by
    rw [State.physRow, List.getD_eq_getElem?_getD]
    cases hget : s.usedRows[t / 32]? with
    | none => exact Nat.lt_of_le_of_lt (Nat.div_le_div_right (Nat.le_of_lt_succ ht)) (by decide)
    | some row =>
      have hmem : row ∈ List.range 36 := List.mem_of_mem_filter (List.mem_of_getElem? hget)
      exact (List.mem_range.1 hmem).trans (by decide)
  rw [State.tileRegion, regionOfPhys]
  omega

theorem tileCount_lt : s.tileCount < 2048 := Nat.mod_lt _ (by decide)

/-- An event of a tile writes no register of a tile's window. -/
theorem reg_raiseTile_window (ht : t < 2048) (k : EvKind) (detail u x : Nat) :
    (s.raiseTile t k detail).reg (tileBase u + x) = s.reg (tileBase u + x) := by
  refine reg_raise _ _ ?_
  have hregion := tileRegion_lt s ht
  simp only [eventRegs, GOS_L_EVENT, GOS_L_CORR, GOS_L_SUSPECT, GOS_L_HARD, GOS_REC_FAULT, tileBase, regionBase,
    List.mem_cons, List.not_mem_nil, or_false, not_or]
  omega

end

/-! ### Channels -/

section
variable (s : State) (t c : Nat) (x : Channel)

@[simp] theorem State.tile_setChan_same :
    (s.setChan t c x).tile t = { s.tile t with chans := mapSet chanReset (s.tile t).chans c x } := State.tile_modTile_same ..

@[simp] theorem State.chan_setChan_same : (s.setChan t c x).chan t c = x := by
  rw [State.chan, State.tile_setChan_same]
  exact mapGet_mapSet_same ..

theorem State.chan_setChan_ne {d : Nat} (h : d ≠ c) : (s.setChan t c x).chan t d = s.chan t d := by
  rw [State.chan, State.tile_setChan_same]
  exact mapGet_mapSet_ne _ _ _ h

theorem sameTilesBut_setChan : sameTilesBut s (s.setChan t c x) [t] := sameTilesBut_modTile s t _

variable {s t} in
/-- Channels depend on nothing but the tile. -/
theorem State.chan_of_tile {s' : State} (h : (s'.tile t).chans = (s.tile t).chans) (c : Nat) :
    s'.chan t c = s.chan t c := by rw [State.chan, State.chan, h]

end

/-- A channel after its run has left it: idle, and its fences count down (R187, R277). -/
def leaveChannel (s : State) (t c : Nat) (r : StreamRun) : State :=
  fenceDone (s.setChan t c { s.chan t c with run := none, lastDesc := r.desc }) t (.run c)

section
variable (s : State) (t c : Nat) (r : StreamRun)

theorem leaveChannel_tile : ∃ fences, (leaveChannel s t c r).tile t = { s.tile t with
    chans := mapSet chanReset (s.tile t).chans c { s.chan t c with run := none, lastDesc := r.desc }
    fences := fences } := by
  rw [leaveChannel, fenceDone, State.tile_modTile_same, State.tile_setChan_same]
  exact ⟨_, rfl⟩

theorem leaveChannel_chan_same : (leaveChannel s t c r).chan t c = { s.chan t c with run := none, lastDesc := r.desc } := by
  obtain ⟨fences, htile⟩ := leaveChannel_tile s t c r
  rw [State.chan, htile]
  exact mapGet_mapSet_same ..

theorem leaveChannel_frame : onlyTiles s (leaveChannel s t c r) ∧ sameTilesBut s (leaveChannel s t c r) [t] :=
  ⟨(onlyTiles_modTile s t _).trans (onlyTiles_modTile _ t _),
    (sameTilesBut_setChan s t c _).trans (sameTilesBut_modTile _ t _)⟩

theorem retireRun_eq (e : Nat) : retireRun s t c r e = leaveChannel (s.modTile t fun x => { x with
    sigs := if r.semEn && !r.halted then x.sigs ++ [⟨r.sem, 1, some (e + 1)⟩] else x.sigs }) t c r := rfl

/-- What the retirement of a run keeps (R187). -/
theorem retireRun_kept (e : Nat) : onlyTiles s (retireRun s t c r e) ∧ TileKept t s (retireRun s t c r e)
    ∧ (retireRun s t c r e).chan t c = { s.chan t c with run := none, lastDesc := r.desc } := by
  rw [retireRun_eq]
  generalize hs1 : s.modTile t _ = s1
  have honly : onlyTiles s s1 := hs1 ▸ rfl
  have hothers : sameTilesBut s s1 [t] := hs1 ▸ sameTilesBut_modTile s t _
  have htile : (s1.tile t).ctl = (s.tile t).ctl ∧ (s1.tile t).broken = (s.tile t).broken
      ∧ (s1.tile t).chans = (s.tile t).chans := by
    rw [← hs1, State.tile_modTile_same]
    exact ⟨rfl, rfl, rfl⟩
  obtain ⟨hctl, hbroken, hchans⟩ := htile
  obtain ⟨honly', hothers'⟩ := leaveChannel_frame s1 t c r
  obtain ⟨fences, hleft⟩ := leaveChannel_tile s1 t c r
  refine ⟨honly.trans honly', ⟨hothers.trans hothers', ?_, fun hb => ?_⟩, ?_⟩
  · rw [hleft]
    exact hctl
  · rw [hleft]
    exact hbroken.trans hb
  · rw [leaveChannel_chan_same, State.chan_of_tile hchans]

end

/-! ### The start of a run (R185, R238, R241) -/

/-- A channel as a start meets it: a run that completed in an earlier cycle has left it. -/
def channelFreed (s : State) (t c : Nat) : State :=
  match (s.chan t c).run with
  | some r => match r.ended with
    | some e => if e < s.cycle t then retireRun s t c r e else s
    | none => s
  | none => s

/-- A start on a channel that is still running breaks a promise. -/
def channelTaken (s : State) (t c : Nat) : State :=
  if ((channelFreed s t c).chan t c).run.isSome then (channelFreed s t c).breakPromise t .slotOverlap
  else channelFreed s t c

/-- An operation that does not fit its descriptor raises STREAM with code MODE (R242). -/
def startChecked (s : State) (t c d sop : Nat) : State :=
  if sopMisfit sop ((channelTaken s t c).strDesc t c d) then raiseStream (channelTaken s t c) t c 4 0
  else channelTaken s t c

/-- The run that a start gives a channel. -/
def startedRun (s : State) (t c d sop sem : Nat) (semEn : Bool) : StreamRun :=
  let words := (channelTaken s t c).strDesc t c d
  let r : StreamRun := ⟨d, words, sop, sem, semEn, s.cycle t, 0, (startChecked s t c d sop).batchCopies, none,
    sopMisfit sop words, false, 0, 0, s.cycle t + 2, none, []⟩
  { r with ended := if runCount r = 0 then some (s.cycle t) else none }

/-- The channel with its new run: in LINEAR and INDEXED mode the cursor moves on (R238). -/
def startedChannel (ch : Channel) (cycle : Nat) (r : StreamRun) : Channel :=
  if descMode r.words = 1 then { ch with run := some r, lastDesc := r.desc }
  else
    let b : BitVec 64 := if descRestart r.words then 0 else ch.cur
    { cur := b + BitVec.ofNat 64 (if sopMisfit r.sop r.words then 0 else descCount r.words)
      base := b
      basePrev := if ch.baseCycle = cycle then ch.basePrev else ch.base
      baseCycle := cycle
      run := some r
      lastDesc := r.desc }

section
variable (s : State) (t c d sop sem : Nat) (semEn : Bool)

theorem streamStart_eq : streamStart s t c d sop sem semEn = (startChecked s t c d sop).setChan t c
    (startedChannel ((channelFreed s t c).chan t c) (s.cycle t) (startedRun s t c d sop sem semEn)) := rfl

theorem startedRun_fields : let r := startedRun s t c d sop sem semEn
    r.desc = d ∧ r.words = (channelTaken s t c).strDesc t c d ∧ r.sop = sop ∧ r.sem = sem ∧ r.semEn = semEn
      ∧ r.issue = s.cycle t ∧ r.done = 0 ∧ r.next = 0 ∧ r.nextOff = 0 ∧ r.waiting = [] ∧ r.halted = false
      ∧ r.reqAt = s.cycle t + 2 := ⟨rfl, rfl, rfl, rfl, rfl, rfl, rfl, rfl, rfl, rfl, rfl, rfl⟩

@[simp] theorem startedChannel_run (ch : Channel) (cycle : Nat) (r : StreamRun) :
    (startedChannel ch cycle r).run = some r := by
  rw [startedChannel]
  split <;> rfl

theorem channelFreed_kept : onlyTiles s (channelFreed s t c) ∧ TileKept t s (channelFreed s t c)
    ∧ ((channelFreed s t c).chan t c).cur = (s.chan t c).cur := by
  unfold channelFreed
  split
  · split
    · split
      · obtain ⟨honly, hkept, hchan⟩ := retireRun_kept s t c ‹_› ‹_›
        exact ⟨honly, hkept, by rw [hchan]⟩
      · exact ⟨rfl, .refl t s, rfl⟩
    · exact ⟨rfl, .refl t s, rfl⟩
  · exact ⟨rfl, .refl t s, rfl⟩

theorem channelTaken_kept : TileKept t s (channelTaken s t c) := by
  refine (channelFreed_kept s t c).2.1.trans ?_
  unfold channelTaken
  split
  · exact (breakPromise_kept _ t .slotOverlap).toTileKept
  · exact .refl t _

theorem reg_channelTaken {o : Nat} (ho : quietReg o) : (channelTaken s t c).reg o = s.reg o := by
  have hfreed : (channelFreed s t c).reg o = s.reg o :=
    State.reg_of_regs (by simpa using congrArg State.regs (channelFreed_kept s t c).1) o
  unfold channelTaken
  split
  · rw [reg_breakPromise _ ho, hfreed]
  · exact hfreed

theorem strDesc_channelTaken (hc : c < 4) (hd : d < 32) : (channelTaken s t c).strDesc t c d = s.strDesc t c d := by
  refine List.map_congr_left fun w hw => ?_
  have hw := List.mem_range.1 hw
  have hoff : STR_DESC t c d w = tileBase t + (0x30000 + 0x400 * c + 0x20 * d + 0x4 * w) := by unfold STR_DESC; omega
  rw [hoff]
  exact reg_channelTaken s t c (quietReg_tile t (by omega))

theorem raiseStream_tiles (code elem : Nat) : (raiseStream s t c code elem).tiles = s.tiles := by
  rw [raiseStream, State.raiseTile, raise_tiles, State.orReg, State.setReg_tiles, State.setReg_tiles]

/-- What STREAM leaves in the registers of its channel (R242). -/
theorem raiseStream_regs {c : Nat} (ht : t < 2048) (hc : c < 4) (code elem : Nat) :
    (raiseStream s t c code elem).reg (STR_FAULT t c) = BitVec.ofNat 32 (code + elem * 256)
      ∧ bit ((raiseStream s t c code elem).reg (STR_EVENT t)) c = true := by
  have hraise : ∀ (x : State) o, o = STR_FAULT t c ∨ o = STR_EVENT t → (x.raiseTile t .stream code).reg o = x.reg o := by
    rintro x o (rfl | rfl)
    · rw [show STR_FAULT t c = tileBase t + (0x8040 + 4 * c) by unfold STR_FAULT; omega, reg_raiseTile_window x ht]
    · exact reg_raiseTile_window x ht ..
  have hne : STR_FAULT t c ≠ STR_EVENT t := by unfold STR_FAULT STR_EVENT; omega
  have hbit : bit (BitVec.ofNat 32 (2 ^ c)) c = true := by
    have hlt : ∀ k, k < 4 → bit (BitVec.ofNat 32 (2 ^ k)) k = true := by decide
    exact hlt c hc
  refine ⟨?_, ?_⟩ <;> rw [raiseStream, hraise _ _ (by simp)]
  · rw [State.reg_orReg, if_neg hne, State.reg_setReg_same]
  · exact bit_orReg _ _ hbit

theorem startChecked_kept : TileKept t s (startChecked s t c d sop) := by
  refine (channelTaken_kept s t c).trans ?_
  unfold startChecked
  split
  · have htile : ∀ u, _ := State.tile_of_tiles (raiseStream_tiles (channelTaken s t c) t c 4 0)
    exact ⟨fun u _ => htile u, by rw [htile], fun hb => by rw [htile]; exact hb⟩
  · exact .refl t _

end

section
variable {s : State} {t sop : Nat} {ch : BitVec 2} {desc sem : BitVec 5} {semEn : Bool} {ind : BitVec 3}

/-- The descriptor that a start with induction names (R185). -/
theorem streamIndex_eq (s : State) (t : Nat) (desc : BitVec 5) (h : ind = 0 ∨ 4 ≤ ind.toNat) :
    streamIndex s t desc.toNat ind.toNat = if ind = 0 then desc.toNat
      else (desc.toNat + (ctlJ (s.tile t).ctl (ind.toNat - 4)).toNat) % 32 := by
  rw [streamIndex]
  rcases h with rfl | h
  · rfl
  · have hne : ind ≠ 0 := by rintro rfl; exact absurd h (by decide)
    rw [if_pos h, if_neg hne]

theorem indReserved_of_ok (h : ind = 0 ∨ 4 ≤ ind.toNat) : indReserved ind = false := by
  rw [indReserved]
  rcases h with rfl | h
  · rfl
  · simp only [Bool.and_eq_false_iff, decide_eq_false_iff_not]
    omega

theorem onSlot_of_issuing (h : issuing s t) (f : State → State) : onSlot s t false f = .next (f s) :=
  onIssue_of_issuing h _

theorem exec_streamOp {i : Instr} (hop : streamOpOf i = some (t, sop, ch, desc, sem, semEn, ind)) (s : State) :
    (sop = 1 ∨ sop = 2 ∨ sop = 3) ∧ exec i s = onSlot s t (indReserved ind) fun s =>
      streamOp s t sop ch.toNat desc.toNat sem.toNat ind.toNat semEn := by
  unfold streamOpOf at hop
  split at hop <;> cases hop
  · exact ⟨.inl rfl, rfl⟩
  · exact ⟨.inr (.inl rfl), rfl⟩
  · exact ⟨.inr (.inr rfl), rfl⟩

/-- A stream operation of a tile that issues starts its descriptor. -/
theorem exec_streamStart {i : Instr} (hop : streamOpOf i = some (t, sop, ch, desc, sem, semEn, ind)) (h : issuing s t)
    (hind : ind = 0 ∨ 4 ≤ ind.toNat) : exec i s = .next (streamStart s t ch.toNat
      (if ind = 0 then desc.toNat else (desc.toNat + (ctlJ (s.tile t).ctl (ind.toNat - 4)).toNat) % 32) sop sem.toNat
      semEn) := by
  obtain ⟨hsop, hexec⟩ := exec_streamOp hop s
  rw [hexec, indReserved_of_ok hind, onSlot_of_issuing h, streamOp, if_neg (by omega), streamIndex_eq s t desc hind]

end

section
variable (s : State) (t c d sop sem : Nat) (semEn : Bool)

/-- The operations that fit a mode: SRUN all but INDEXED, SGATHER and SSCATTER only that (R242). -/
theorem sopMisfit_eq_false_iff (w : List (BitVec 32)) :
    sopMisfit sop w = false ↔ (sop = 1 → descMode w ≠ 2) ∧ (sop ≠ 1 → descMode w = 2) := by
  rw [sopMisfit]
  split <;> simp_all

theorem startedRun_ended {w : List (BitVec 32)} (hw : (channelTaken s t c).strDesc t c d = w) :
    (startedRun s t c d sop sem semEn).ended = if sopMisfit sop w then some (s.cycle t)
      else if descMode w ≠ 1 ∧ descRsize w = 0 then some (s.cycle t)
      else if descCount w = 0 then some (s.cycle t) else none := by
  rw [startedRun, hw]
  dsimp only
  rw [runCount]
  split
  · rw [if_pos rfl]
  · split
    · rw [if_pos rfl]
    · rfl

/-- The slot of a start that fits, on an idle channel, keeps all registers. -/
theorem startChecked_of_idle (hidle : (s.chan t c).run = none)
    (hfits : sopMisfit sop ((channelTaken s t c).strDesc t c d) = false) : startChecked s t c d sop = s := by
  have hfreed : channelFreed s t c = s := by
    unfold channelFreed
    rw [hidle]
  have htaken : channelTaken s t c = s := by
    rw [channelTaken, hfreed, hidle]
    rfl
  rw [startChecked, hfits, htaken]
  rfl

theorem channelTaken_of_idle (hidle : (s.chan t c).run = none) (o : Nat) : (channelTaken s t c).reg o = s.reg o
    ∧ ∀ x, (channelTaken s t c).chan t x = s.chan t x := by
  have hfreed : channelFreed s t c = s := by
    unfold channelFreed
    rw [hidle]
  rw [channelTaken, hfreed, hidle]
  exact ⟨rfl, fun _ => rfl⟩

/-- A channel that is still running is taken with a broken promise. -/
theorem broken_channelTaken {q : StreamRun} (hrun : (s.chan t c).run = some q) (hend : q.ended = none) :
    ((channelTaken s t c).tile t).broken = true := by
  have hfreed : channelFreed s t c = s := by
    unfold channelFreed
    rw [hrun]
    dsimp only
    rw [hend]
  rw [channelTaken, hfreed, hrun]
  exact broken_breakPromise s t .slotOverlap

end

/-- The clause of O25 on starts. -/
theorem streamStart_starts {i : Instr} {s : State} {t sop : Nat} {ch : BitVec 2} {desc sem : BitVec 5} {semEn : Bool}
    {ind : BitVec 3} (hop : streamOpOf i = some (t, sop, ch, desc, sem, semEn, ind)) (h : issuing s t)
    (hind : ind = 0 ∨ 4 ≤ ind.toNat) :
    let d := if ind = 0 then desc.toNat else (desc.toNat + (ctlJ (s.tile t).ctl (ind.toNat - 4)).toNat) % 32
    let w := s.strDesc t ch.toNat d
    let fits := (sop = 1 → descMode w ≠ 2) ∧ (sop ≠ 1 → descMode w = 2)
    let c := s.chan t ch.toNat
    ∃ s' r, exec i s = .next s' ∧ sameMemory s s' ∧ sameTilesBut s s' [t] ∧ (s'.chan t ch.toNat).run = some r
      ∧ r.desc = d ∧ r.words = w ∧ r.sop = sop ∧ r.sem = sem.toNat ∧ r.semEn = semEn ∧ r.issue = s.cycle t
      ∧ r.done = 0 ∧ r.next = 0 ∧ r.nextOff = 0 ∧ r.waiting = [] ∧ r.halted = false ∧ r.reqAt = s.cycle t + 2
      ∧ (¬ fits ∨ descCount w = 0 ∨ (descMode w ≠ 1 ∧ descRsize w = 0) → r.ended = some (s.cycle t))
      ∧ (fits → descCount w ≠ 0 → (descMode w = 1 ∨ descRsize w ≠ 0) → r.ended = none)
      ∧ (¬ fits → s'.reg (STR_FAULT t ch.toNat) = 4 ∧ bit (s'.reg (STR_EVENT t)) ch.toNat = true)
      ∧ (descMode w = 1 → (s'.chan t ch.toNat).cur = c.cur)
      ∧ (fits → descMode w ≠ 1 →
          let b := if descRestart w then 0 else c.cur
          (s'.chan t ch.toNat).base = b ∧ (s'.chan t ch.toNat).cur = b + BitVec.ofNat 64 (descCount w))
      ∧ ((∃ q, c.run = some q ∧ q.ended = none) → (s'.tile t).broken = true)
      ∧ (c.run = none → (∀ o, fits → s'.reg o = s.reg o) ∧ ∀ x, x ≠ ch.toNat → s'.chan t x = s.chan t x) := by
  intro d w fits c
  have hd : d < 32 := by
    have := desc.isLt
    simp only [d]
    split <;> omega
  have ht : t < 2048 := h.1.trans (tileCount_lt s)
  have hfits : sopMisfit sop w = false ↔ fits := sopMisfit_eq_false_iff sop w
  have hw : (channelTaken s t ch.toNat).strDesc t ch.toNat d = w := strDesc_channelTaken s t _ _ ch.isLt hd
  have hended := startedRun_ended s t ch.toNat d sop sem.toNat semEn hw
  have hcur := (channelFreed_kept s t ch.toNat).2.2
  have hkept := startChecked_kept s t ch.toNat d sop
  have hmem : sameMemory s (streamStart s t ch.toNat d sop sem.toNat semEn) := sameMemory_of_mems (by simp)
  generalize hr : startedRun s t ch.toNat d sop sem.toNat semEn = r at hended
  have hwords : r.words = w := by rw [← hr, (startedRun_fields ..).2.1, hw]
  have hsop : r.sop = sop := by rw [← hr, (startedRun_fields ..).2.2.1]
  rw [streamStart_eq, hr] at hmem
  have hreg : ∀ o x, ((startChecked s t ch.toNat d sop).setChan t ch.toNat x).reg o = (startChecked s t ch.toNat d sop).reg o :=
    fun o x => State.reg_modTile ..
  refine ⟨_, r, (exec_streamStart hop h hind).trans (by rw [streamStart_eq, hr]), hmem,
    hkept.others.trans (sameTilesBut_setChan _ _ _ _), by simp, ?_⟩
  obtain ⟨hdesc, -, -, hfields⟩ := startedRun_fields s t ch.toNat d sop sem.toNat semEn
  rw [hr] at hdesc hfields
  obtain ⟨hsem, hsemEn, hissue, hdone, hnext, hoff, hwait, hhalt, hreq⟩ := hfields
  refine ⟨hdesc, hwords, hsop, hsem, hsemEn, hissue, hdone, hnext, hoff, hwait, hhalt, hreq, fun hnone => ?_,
    fun hf hcount hsize => ?_, fun hf => ?_, fun hmode => ?_, fun hf hmode => ?_, fun ⟨q, hq, hqe⟩ => ?_, fun hidle => ?_⟩
  · rw [hended]
    split
    · rfl
    · next hm =>
      have hf : fits := hfits.1 (Bool.eq_false_iff.2 hm)
      split
      · rfl
      · next hsize => rw [if_pos ((hnone.resolve_left fun hn => hn hf).resolve_right hsize)]
  · rw [hended, hfits.2 hf, if_neg Bool.false_ne_true, if_neg (by omega), if_neg hcount]
  · have hm : sopMisfit sop ((channelTaken s t ch.toNat).strDesc t ch.toNat d) = true := by
      rw [hw]
      exact Bool.not_eq_false _ ▸ fun e => hf (hfits.1 e)
    rw [hreg, hreg, startChecked, if_pos hm]
    obtain ⟨hfault, hevent⟩ := raiseStream_regs (channelTaken s t ch.toNat) t ht ch.isLt 4 0
    exact ⟨hfault.trans (by decide), hevent⟩
  · rw [State.chan_setChan_same, startedChannel, hwords, if_pos hmode, hcur]
  · rw [State.chan_setChan_same, startedChannel, hwords, hsop, if_neg hmode, hfits.2 hf, hcur]
    exact ⟨rfl, rfl⟩
  · rw [State.tile_setChan_same]
    have hb := broken_channelTaken s t ch.toNat hq hqe
    unfold startChecked
    split
    · rw [State.tile_of_tiles (raiseStream_tiles ..)]
      exact hb
    · exact hb
  · refine ⟨fun o hf => ?_, fun x hx => ?_⟩
    · rw [hreg, startChecked_of_idle s t ch.toNat d sop hidle (by rw [hw]; exact hfits.2 hf)]
    · rw [State.chan_setChan_ne _ _ _ _ hx]
      have htaken := (channelTaken_of_idle s t ch.toNat hidle 0).2 x
      unfold startChecked
      split
      · rw [State.chan, State.tile_of_tiles (raiseStream_tiles ..)]
        exact htaken
      · exact htaken

/-! ### SHALT (R185) -/

section
variable {s : State} {t c : Nat} {r : StreamRun}

theorem streamHalt_of_idle (h : (s.chan t c).run = none) : streamHalt s t c = s := by
  rw [streamHalt, h]

/-- At an element boundary the run leaves at once. -/
theorem streamHalt_leaves (h : (s.chan t c).run = some r) (hwait : r.waiting = []) (hoff : r.nextOff = 0) :
    streamHalt s t c = leaveChannel s t c r := by
  rw [streamHalt, h]
  dsimp only
  rw [if_pos ⟨by rw [hwait]; rfl, hoff⟩]
  rfl

/-- Before it the run is marked. -/
theorem streamHalt_marks (h : (s.chan t c).run = some r) (hbusy : r.waiting ≠ [] ∨ r.nextOff ≠ 0) :
    streamHalt s t c = s.setChan t c { s.chan t c with run := some { r with halted := true } } := by
  rw [streamHalt, h]
  dsimp only
  rw [if_neg]
  rintro ⟨hwait, hoff⟩
  rcases hbusy with hne | hne
  · exact hne (List.isEmpty_iff.1 hwait)
  · exact hne hoff

end

/-- The clause of O25 on SHALT. -/
theorem streamHalt_halts {s : State} {t : Nat} (h : issuing s t) (ch : BitVec 2) :
    let c := s.chan t ch.toNat
    (c.run = none → exec (.shalt t ch) s = .next s)
    ∧ ∀ r, c.run = some r →
      ∃ s', exec (.shalt t ch) s = .next s' ∧ onlyTiles s s' ∧ sameTilesBut s s' [t] ∧ (s'.tile t).sigs = (s.tile t).sigs
        ∧ (r.waiting = [] → r.nextOff = 0 → (s'.chan t ch.toNat).run = none)
        ∧ (r.waiting ≠ [] ∨ r.nextOff ≠ 0 → (s'.chan t ch.toNat).run = some { r with halted := true })
        ∧ (s'.chan t ch.toNat).cur = c.cur := by
  have hexec : exec (.shalt t ch) s = .next (streamHalt s t ch.toNat) := onIssue_of_issuing h (streamHalt · t ch.toNat)
  refine ⟨fun hidle => by rw [hexec, streamHalt_of_idle hidle], fun r hrun => ⟨_, hexec, ?_⟩⟩
  by_cases hbusy : r.waiting ≠ [] ∨ r.nextOff ≠ 0
  · rw [streamHalt_marks hrun hbusy]
    refine ⟨onlyTiles_modTile s t _, sameTilesBut_setChan _ _ _ _, by rw [State.tile_setChan_same], fun hwait hoff => ?_,
      fun _ => by rw [State.chan_setChan_same], by rw [State.chan_setChan_same]⟩
    exact (hbusy.elim (· hwait) (· hoff)).elim
  · obtain ⟨hwait, hoff⟩ : r.waiting = [] ∧ r.nextOff = 0 := by simpa [not_or] using hbusy
    rw [streamHalt_leaves hrun hwait hoff]
    obtain ⟨honly, hothers⟩ := leaveChannel_frame s t ch.toNat r
    obtain ⟨fences, htile⟩ := leaveChannel_tile s t ch.toNat r
    exact ⟨honly, hothers, by rw [htile], fun _ _ => by rw [leaveChannel_chan_same], fun hb => (hbusy hb).elim,
      by rw [leaveChannel_chan_same]⟩

/-- Settles O25: a start is its run in the channel's place, and SHALT either leaves the channel or marks the run. -/
theorem streamStartsAndHalts : Obligations.StreamStartsAndHalts :=
  ⟨fun _ _ _ _ _ _ _ _ _ hop h hind => streamStart_starts hop h hind, fun _ _ ch h => streamHalt_halts h ch⟩

end Sys2Proof.Machine

/-! PROOFS. O27: the message slot, held messages and fences. -/

namespace Sys2Proof.Machine

/-! ### Sending from the message slot (R277, R279) -/

/-- A message of the message slot awaits its answer (R270). -/
def slotRecorded (s : State) (t tpl : Nat) (payload : BitVec 64) : State :=
  s.modTile t fun x => { x with
    msgSerial := (s.tile t).msgSerial + 1
    outstanding := x.outstanding ++ [⟨(s.tile t).msgSerial, tpl, fld (s.template t tpl 0) 28 2,
      (s.template t tpl 2).extractLsb' 0 16, payload.extractLsb' 0 32⟩] }

section
variable {s : State} {t tpl : Nat} {ord : Bool} {payload : BitVec 64}

theorem sendMsg_local {m : Msg} (source : ReqSource) (now xfer : Nat) (h : s.rankLocal m.rank.toNat = true) :
    sendMsg s source now xfer m = { s with flight := s.flight ++ [⟨m, source, now + 3 + s.msgDelta source m⟩] } := by
  rw [sendMsg, if_pos h]

theorem fence_slotRecorded (f : Nat) : (slotRecorded s t tpl payload).fence t f = s.fence t f := by
  rw [State.fence, slotRecorded, State.tile_modTile_same]
  rfl

theorem cycle_slotRecorded : (slotRecorded s t tpl payload).cycle t = s.cycle t := by
  rw [State.cycle, slotRecorded, State.tile_modTile_same]
  rfl

theorem slotSend_eq (h : (s.tile t).outstanding.length < 16) : slotSend s t tpl ord payload
    = if bit (s.template t tpl 0) 30 = true ∧ s.fence t (fld (s.template t tpl 1) 26 2) ≠ 0 then
        (slotRecorded s t tpl payload).modTile t fun x => { x with held := x.held ++ [⟨(s.tile t).msgSerial,
          fld (s.template t tpl 1) 26 2, fld (s.template t tpl 2) 16 16, templateMsg s t tpl ord payload⟩] }
      else sendMsg (slotRecorded s t tpl payload) (.slotMsg t (s.tile t).msgSerial) (s.cycle t)
        (fld (s.template t tpl 2) 16 16) (templateMsg s t tpl ord payload) := by
  rw [← fence_slotRecorded (tpl := tpl) (payload := payload), ← cycle_slotRecorded (tpl := tpl) (payload := payload),
    slotSend, if_neg (Nat.not_le.2 h)]
  rfl

theorem slotRecorded_tile : ((slotRecorded s t tpl payload).tile t).msgSerial = (s.tile t).msgSerial + 1
    ∧ ((slotRecorded s t tpl payload).tile t).held = (s.tile t).held
    ∧ ∃ o : Outstanding, ((slotRecorded s t tpl payload).tile t).outstanding = (s.tile t).outstanding ++ [o]
        ∧ o.id = (s.tile t).msgSerial ∧ o.template = tpl ∧ o.nackpol = fld (s.template t tpl 0) 28 2 := by
  rw [slotRecorded, State.tile_modTile_same]
  exact ⟨rfl, rfl, _, rfl, rfl, rfl, rfl⟩

/-- The message slot sends or holds the message of its template. -/
theorem slotSent_slotSend (h : (s.tile t).outstanding.length < 16) :
    slotSent s (slotSend s t tpl ord payload) t tpl ord payload := by
  have hmem : sameMemory s (slotSend s t tpl ord payload) := sameMemory_of_mems (by simp)
  obtain ⟨hserial, hheld, houtstanding⟩ := slotRecorded_tile (s := s) (t := t) (tpl := tpl) (payload := payload)
  have hothers : sameTilesBut s (slotRecorded s t tpl payload) [t] := sameTilesBut_modTile s t _
  rw [slotSend_eq h] at hmem ⊢
  split at hmem
  · next hwaits =>
    rw [if_pos hwaits]
    refine ⟨fun _ => ⟨?_, rfl⟩, fun hno => (hno hwaits).elim, fun _ => ?_, hmem⟩
    · rw [State.tile_modTile_same, hheld]
    · refine ⟨?_, ?_, hothers.trans (sameTilesBut_modTile _ t _)⟩ <;> rw [State.tile_modTile_same]
      · exact hserial
      · exact houtstanding
  · next hwaits =>
    rw [if_neg hwaits]
    refine ⟨fun hyes => (hwaits hyes).elim, fun _ hlocal => ?_, fun hsent => ?_, hmem⟩
    · rw [sendMsg_local (s := slotRecorded s t tpl payload) _ _ _ hlocal]
      rfl
    · rw [sendMsg_local (s := slotRecorded s t tpl payload) _ _ _ (hsent.resolve_left hwaits)]
      exact ⟨hserial, houtstanding, hothers⟩

end

/-! ### What a read of the payload leaves (R132, R196, R233) -/

/-- What the message slot of tile `t` decides by and keeps while it reads its payload: all but what a report of the hazard
detector and a port of the scratchpad change. -/
structure SendKept (t : Nat) (s s' : State) : Prop where
  others : sameTilesBut s s' [t]
  tile : { s'.tile t with portUse := (s.tile t).portUse, hazardSeen := (s.tile t).hazardSeen } = s.tile t
  regs : ∀ o, quietReg o → s'.reg o = s.reg o
  events : s.events.length ≤ s'.events.length
  rest : { s' with tiles := s.tiles, regs := s.regs, events := s.events, closed := s.closed } = s

section
variable {t : Nat} {s s1 s' : State}

theorem SendKept.refl (t : Nat) (s : State) : SendKept t s s := ⟨fun _ _ => rfl, rfl, fun _ _ => rfl, le_refl _, rfl⟩

theorem events_raise (s : State) (e : GEvent) :
    (s.frame.draining = false → (s.raise e).events = s.events ++ [e]) ∧ s.events.length ≤ (s.raise e).events.length := by
  have hcount : (localCount s e).events = s.events := by simpa using congrArg State.events (localCount_onlyRegs s e)
  unfold State.raise State.raiseFrame
  split
  · next hdraining => exact ⟨fun h => absurd hdraining (by simp [h]), (congrArg List.length hcount).ge⟩
  · exact ⟨fun _ => rfl, by simp⟩

theorem sendKept_hazardRaised (h : Hazard) : SendKept t s (hazardRaised s t h) := by
  refine ⟨fun u hu => ?_, by rw [tile_hazardRaised], fun o ho => ?_,
    (events_raise ((s.incReg DBG_HZ_COUNT).modTile t fun x => { x with hazardSeen := true }) _).2, ?_⟩
  · rw [hazardRaised, State.raiseTile, raise_tile]
    exact sameTilesBut_modTile _ t _ u hu
  · obtain ⟨hz, hev⟩ := ho
    rw [reg_hazardRaised _ _ _ hev, State.reg_incReg, if_neg fun e => hz (by simp [hazardRegs, e])]
  · exact congrArg (fun x : State => { x with tiles := s.tiles, regs := s.regs, events := s.events, closed := s.closed })
      (raise_frame ((s.incReg DBG_HZ_COUNT).modTile t fun x => { x with hazardSeen := true }) _)

theorem sendKept_setReg {o : Nat} (v : BitVec 32) (ho : o ∈ hazardRegs) (h : SendKept t s s') :
    SendKept t s (s'.setReg o v) :=
  ⟨h.others, h.tile, fun q hq => (State.reg_setReg_ne _ _ (by rintro rfl; exact hq.1 ho)).trans (h.regs q hq), h.events, h.rest⟩

theorem sendKept_hazardReport (h : Hazard) : SendKept t s (hazardReport s t h) := by
  cases hmode : bit (s.reg FRM_MODE) 2 with
  | false => rw [hazardReport_of_off hmode]; exact .refl t s
  | true =>
    cases hseen : (s.tile t).hazardSeen with
    | true =>
      rw [hazardReport_of_seen hmode hseen]
      exact sendKept_setReg _ (by decide) (.refl t s)
    | false =>
      obtain ⟨tick, hreport⟩ := hazardReport_of_first (h := h) hmode hseen
      rw [hreport]
      have hraised := sendKept_hazardRaised (t := t) (s := s) h
      split
      · exact hraised
      · unfold hazardRecorded State.setReg64
        iterate 6 refine sendKept_setReg _ (by decide) ?_
        exact hraised

theorem sendKept_spadHazard (off len : Nat) : SendKept t s (spadHazard s t off len) := by
  unfold spadHazard
  split
  · exact .refl t s
  · split
    · exact sendKept_hazardReport .readPending
    · exact .refl t s

theorem sendKept_ports (f : SMap Nat → SMap Nat) (h : SendKept t s s') :
    SendKept t s (s'.modTile t fun x => { x with portUse := f x.portUse }) := by
  refine ⟨h.others.trans (sameTilesBut_modTile s' t _), ?_, h.regs, h.events, h.rest⟩
  rw [State.tile_modTile_same]
  exact h.tile

/-- A read of 8 bytes takes one port, which is free. -/
theorem takePorts_word {cyc off : Nat} (hoff : off % 8 = 0) (hports : (s.tile t).portUse = []) :
    s.takePorts t cyc off 8
      = s.modTile t fun x => { x with portUse := mapSet 0 x.portUse (32 * cyc + off / 64 % 16) 1 } := by
  have hlines : (off + 8 - 1) / 64 - off / 64 + 1 = 1 := by omega
  rw [State.takePorts, if_neg (by decide)]
  dsimp only
  rw [hlines]
  exact takePort_of_free (by rw [hports]; rfl)

theorem sendKept_payloadPort {cyc off : Nat} (hoff : off % 8 = 0) (hports : (s.tile t).portUse = []) :
    SendKept t s ((spadHazard s t off 8).takePorts t cyc off 8) := by
  have hview := sliceView_spadHazard s t off 8
  rw [takePorts_word hoff ((congrArg SliceView.ports hview).trans hports)]
  exact sendKept_ports (fun p => mapSet 0 p (32 * cyc + off / 64 % 16) 1) (sendKept_spadHazard off 8)

/-- What `SendKept` says of the fields that the message slot reads. -/
theorem SendKept.fields (h : SendKept t s s') : s'.flight = s.flight ∧ s'.entries = s.entries ∧ s'.frame = s.frame
    ∧ s'.spad = s.spad ∧ s'.spadMark = s.spadMark ∧ s'.spadErr = s.spadErr ∧ s'.mems = s.mems := by
  have h := h.rest
  have hspad : s'.spad = s.spad := by simpa using congrArg State.spad h
  exact ⟨by simpa using congrArg State.flight h, by simpa using congrArg State.entries h,
    by simpa using congrArg State.frame h, hspad, by simpa using congrArg State.spadMark h,
    by simpa using congrArg State.spadErr h, mems_of_fields hspad (by simpa using congrArg State.hbm h)
      (by simpa using congrArg State.ddr h)⟩

end

/-! ### The payload of MSEND (R188, R235) -/

section
variable {s s' : State} {t off : Nat}

/-- A read of an 8-byte word without a latent error returns its bytes, each with the cause of the line. -/
theorem spadRead_word (hoff : off % 8 = 0) (herr : mapFind s.spadErr (spadOff t off / 8) = none) :
    s.spadRead t off 8 = (s, ⟨(List.range 8).map fun k => memGet s.spad (spadOff t (off + k)),
      List.replicate 8 (mapGet Cause.none s.spadMark (spadOff t off / 64)), false⟩) := by
  have hcount : (off % sliceBytes + 8 - 1) / 8 - off % sliceBytes / 8 + 1 = 1 := by
    simp only [sliceBytes]
    omega
  have hword : t * (sliceBytes / 8) + (off % sliceBytes / 8 + 0) % (sliceBytes / 8) = spadOff t off / 8 := by
    simp only [spadOff, sliceBytes]
    omega
  have hline : ∀ i, i < 8 → t * (sliceBytes / 64) + (off % sliceBytes + i) % sliceBytes / 64 = spadOff t off / 64 := by
    intro i hi
    simp only [spadOff, sliceBytes]
    omega
  have hclean := spadWordErr_of_clean (hword ▸ herr)
  unfold State.spadRead
  dsimp only
  rw [if_neg (by decide), hcount, List.range_one, List.map_singleton, List.foldl_cons, List.foldl_nil, hclean]
  dsimp only
  rw [List.map_congr_left (l := List.range 8) fun i _ => congrArg (memGet s.spad) (spadOff_mod t off i),
    List.map_congr_left (l := List.range 8) (g := fun _ => mapGet Cause.none s.spadMark (spadOff t off / 64))
      fun i hi => ?_, List.map_const', List.length_range]
  · rfl
  · rw [hline i (List.mem_range.1 hi)]
    simpa using Eq.symm

theorem causeJoinAll_replicate_eight (c : Cause) : causeJoinAll (List.replicate 8 c) = c := by
  cases c <;> rfl

/-- A sending that starts from a state after the read of its payload is one of the state before. -/
theorem slotSent_of_kept {tpl : Nat} {ord : Bool} {payload : BitVec 64} {s1 : State} (hk : SendKept t s s1) (htpl : tpl < 32)
    (h : slotSent s1 s' t tpl ord payload) : slotSent s s' t tpl ord payload := by
  obtain ⟨hflight, -, -, -, -, -, hmem⟩ := hk.fields
  have htile := hk.tile
  have htemplate : ∀ w, w < 3 → s1.template t tpl w = s.template t tpl w := fun w hw => by
    have hoff : MSG_TPL t tpl w = tileBase t + (0x9200 + 0x10 * tpl + 0x4 * w) := by unfold MSG_TPL; omega
    rw [State.template, State.template, hoff]
    exact hk.regs _ (quietReg_tile (k := 0x9200 + 0x10 * tpl + 0x4 * w) t (by omega))
  have hmsg : templateMsg s1 t tpl ord payload = templateMsg s t tpl ord payload := by
    rw [templateMsg, htemplate 0 (by decide), htemplate 1 (by decide)]
    rfl
  have hquiet : ∀ o, o = DMC_IDENT ∨ o = FAB_OWN_RANK → quietReg o := by
    rintro o (rfl | rfl) <;> exact ⟨by decide, fun r => not_mem_eventRegs (by decide)⟩
  have hlocal : ∀ r, s1.rankLocal r = s.rankLocal r := fun r => by
    rw [State.rankLocal, State.ownRank, hk.regs _ (hquiet _ (.inr rfl))]
    rfl
  have hdelta : ∀ q m, s1.msgDelta q m = s.msgDelta q m := fun q m => by
    have hcount : s1.tileCount = s.tileCount := by rw [State.tileCount, hk.regs _ (hquiet _ (.inl rfl))]; rfl
    rw [State.msgDelta, hcount]
    rfl
  have hcycle : s1.cycle t = s.cycle t := (congrArg (fun x : Tile => x.ctl.cycle) htile :)
  have hfence : ∀ f, s1.fence t f = s.fence t f := fun f =>
    (congrArg (fun x : Tile => (mapGet [] x.fences f).length) htile :)
  have hserial : (s1.tile t).msgSerial = (s.tile t).msgSerial := (congrArg Tile.msgSerial htile :)
  have houtstanding : (s1.tile t).outstanding = (s.tile t).outstanding := (congrArg Tile.outstanding htile :)
  have hheld : (s1.tile t).held = (s.tile t).held := (congrArg Tile.held htile :)
  unfold slotSent at h
  dsimp only at h
  simp only [htemplate 0 (by decide), htemplate 1 (by decide), htemplate 2 (by decide), hmsg, hlocal, hdelta, hcycle, hfence,
    hserial, houtstanding, hheld, hflight] at h
  obtain ⟨hheld', hsent, hrecorded, hmem'⟩ := h
  refine ⟨hheld', hsent, fun hw => ?_, fun a => ?_⟩
  · obtain ⟨hs, ho, hothers⟩ := hrecorded hw
    exact ⟨hs, ho, hk.others.trans hothers⟩
  · obtain ⟨hspad, hhbm, hddr⟩ := sameMemory_of_mems hmem a
    obtain ⟨hspad', hhbm', hddr'⟩ := hmem' a
    exact ⟨hspad'.trans hspad, hhbm'.trans hhbm, hddr'.trans hddr⟩

end

/-- The clause of MSIG. -/
theorem msig_sends {s : State} {t : Nat} (h : issuing s t) (tpl : BitVec 5) (inc : BitVec 16) (ord : Bool)
    (hroom : (s.tile t).outstanding.length < 16) :
    ∃ s', exec (.msig t tpl inc ord) s = .next s' ∧ slotSent s s' t tpl.toNat ord (inc.setWidth 64) := by
  refine ⟨_, onIssue_of_issuing h fun s => msig s t tpl.toNat inc.toNat ord, ?_⟩
  have hinc : BitVec.ofNat 64 inc.toNat = inc.setWidth 64 := BitVec.ofNat_toNat ..
  rw [msig, hinc]
  exact slotSent_slotSend hroom

section
variable {s : State} {t : Nat} (tpl : Nat) (ord : Bool) {off : Nat}

/-- MSEND once its payload's place is known: a word without a latent error is read through one port. -/
theorem msend_of_word (paddr ind step : Nat) (hoff : (paddr + (if 4 ≤ ind then (ctlJ (s.tile t).ctl (ind - 4)).toNat else 0)
      * step) % 2 ^ 17 * 8 = off) (hports : (s.tile t).portUse = []) (herr : mapFind s.spadErr (spadOff t off / 8) = none) :
    ∃ s1, SendKept t s s1 ∧ msend s t tpl paddr ord ind step
      = if mapGet Cause.none s.spadMark (spadOff t off / 64) = .none then slotSend s1 t tpl ord
          (BitVec.ofNat 64 (leNat ((List.range 8).map fun k => memGet s.spad (spadOff t (off + k)))))
        else s1.raiseTile t (causeKind (mapGet Cause.none s.spadMark (spadOff t off / 64)))
          (causeCode (mapGet Cause.none s.spadMark (spadOff t off / 64))) := by
  have hmod : off % 8 = 0 := by omega
  have hk := sendKept_payloadPort (cyc := (spadHazard s t off 8).cycle t) hmod hports
  generalize hs1 : (spadHazard s t off 8).takePorts t ((spadHazard s t off 8).cycle t) off 8 = s1 at hk
  obtain ⟨-, -, -, hspad, hmark, herrs, -⟩ := hk.fields
  have hread := spadRead_word hmod (herrs ▸ herr)
  have hcyc : (spadHazard s t off 8).cycle t = s.cycle t :=
    (congrArg (fun x : Tile => x.ctl.cycle) (sendKept_spadHazard (t := t) (s := s) off 8).tile :)
  rw [hcyc] at hs1
  rw [hspad, hmark] at hread
  refine ⟨s1, hk, ?_⟩
  rw [msend]
  simp only [hoff, hs1, hread, causeJoinAll_replicate_eight]
  by_cases hnone : mapGet Cause.none s.spadMark (spadOff t off / 64) = .none
  · simp only [hnone, ne_eq, not_true, if_false, if_true]
  · simp [hnone]

end

/-- The clause of MSEND. -/
theorem msend_sends {s : State} {t : Nat} (h : issuing s t) (tpl : BitVec 5) (paddr : BitVec 17) (ord : Bool)
    (ind : BitVec 3) (step : BitVec 6) (hind : ind = 0 ∨ 4 ≤ ind.toNat) (hroom : (s.tile t).outstanding.length < 16)
    (hports : (s.tile t).portUse = []) :
    let j := if ind = 0 then 0 else (ctlJ (s.tile t).ctl (ind.toNat - 4)).toNat
    let off := (paddr.toNat + j * step.toNat) % 2 ^ 17 * 8
    let line := spadOff t off / 64
    let payload := BitVec.ofNat 64 (leNat ((List.range 8).map fun k => memGet s.spad (spadOff t (off + k))))
    ∃ s', exec (.msend t tpl paddr ord ind step) s = .next s' ∧
      (mapGet Cause.none s.spadMark line = .none → mapFind s.spadErr (spadOff t off / 8) = none →
        slotSent s s' t tpl.toNat ord payload)
      ∧ (mapGet Cause.none s.spadMark line ≠ .none → mapFind s.spadErr (spadOff t off / 8) = none →
          s'.flight = s.flight ∧ s'.entries = s.entries ∧ (s'.tile t).outstanding = (s.tile t).outstanding
            ∧ (s.frame.draining = false → s.events.length < s'.events.length) ∧ sameMemory s s') := by
  intro j off line payload
  have hj : (if 4 ≤ ind.toNat then (ctlJ (s.tile t).ctl (ind.toNat - 4)).toNat else 0) = j := by
    rcases hind with rfl | hind
    · rfl
    · have hne : ind ≠ 0 := by rintro rfl; exact absurd hind (by decide)
      simp only [j, if_pos hind, if_neg hne]
  have hexec : exec (.msend t tpl paddr ord ind step) s
      = .next (msend s t tpl.toNat paddr.toNat ord ind.toNat step.toNat) := by
    have hslot : exec (.msend t tpl paddr ord ind step) s = onSlot s t (indReserved ind) fun s =>
        msend s t tpl.toNat paddr.toNat ord ind.toNat step.toNat := rfl
    rw [hslot, indReserved_of_ok hind, onSlot_of_issuing h]
  refine ⟨_, hexec, fun hmark herr => ?_, fun hmark herr => ?_⟩
  · obtain ⟨s1, hk, hsend⟩ := msend_of_word tpl.toNat ord paddr.toNat ind.toNat step.toNat (by rw [hj]) hports herr
    have hroom' : (s1.tile t).outstanding.length < 16 := by
      have hkept : (s1.tile t).outstanding = (s.tile t).outstanding := (congrArg Tile.outstanding hk.tile :)
      rwa [hkept]
    rw [hsend, if_pos hmark]
    exact slotSent_of_kept hk tpl.isLt (slotSent_slotSend hroom')
  · obtain ⟨s1, hk, hsend⟩ := msend_of_word tpl.toNat ord paddr.toNat ind.toNat step.toNat (by rw [hj]) hports herr
    obtain ⟨hflight, hentries, hframe, -, -, -, hmem⟩ := hk.fields
    rw [hsend, if_neg hmark, State.raiseTile]
    generalize (⟨_, _, t, _, _⟩ : GEvent) = e
    have hraise := raise_frame s1 e
    refine ⟨(congrArg State.flight hraise :).trans hflight, (congrArg State.entries hraise :).trans hentries, ?_,
      fun hdrain => ?_, sameMemory_of_mems (by simp [hmem])⟩
    · rw [raise_tile]
      exact (congrArg Tile.outstanding hk.tile :)
    · rw [(events_raise s1 e).1 (by rw [hframe]; exact hdrain), List.length_append]
      exact Nat.lt_succ_of_le hk.events

/-- The clause of FENCE_RELEASE_SEND. -/
theorem fenceReleaseSend_sends {s : State} {t : Nat} {h : HeldMsg} (ht : t < s.tileCount)
    (hfind : (s.tile t).held.find? (fun h => s.fence t h.fence == 0) = some h)
    (hlocal : s.rankLocal h.msg.rank.toNat = true) :
    ∃ s', exec (.fenceReleaseSend t) s = .next s' ∧ (s'.tile t).held = (s.tile t).held.erase h
      ∧ s'.flight = s.flight ++ [⟨h.msg, .slotMsg t h.id, s.cycle t + 3 + s.msgDelta (.slotMsg t h.id) h.msg⟩]
      ∧ onlyTiles { s with flight := s'.flight } s' ∧ sameTilesBut s s' [t] := by
  refine ⟨_, onTile_lt ht (fenceReleaseSend · t), ?_⟩
  rw [fenceReleaseSend, hfind]
  dsimp only
  rw [sendMsg_local (s := s.modTile t fun x => { x with held := x.held.erase h }) _ _ _ hlocal]
  exact ⟨congrArg Tile.held (State.tile_modTile_same s t fun x => { x with held := x.held.erase h }), rfl, rfl,
    sameTilesBut_modTile s t fun x => { x with held := x.held.erase h }⟩

/-! ### MFENCE (R277) -/

/-- The clause of MFENCE. -/
theorem mfence_counts {s : State} {t : Nat} (h : issuing s t) (f : BitVec 2) :
    let counts := fun (c : Nat) => ∃ r, (s.chan t c).run = some r ∧ runOut r = true ∧ r.issue ≠ s.cycle t ∧ r.ended = none
    ∃ s', exec (.mfence t f) s = .next s' ∧ onlyTiles s s' ∧ sameTilesBut s s' [t]
      ∧ (∀ id, FenceOp.msg id ∈ mapGet [] (s'.tile t).fences f.toNat ↔ ∃ o ∈ (s.tile t).outstanding, o.id = id)
      ∧ (∀ c, FenceOp.run c ∈ mapGet [] (s'.tile t).fences f.toNat ↔ c < 4 ∧ counts c)
      ∧ (∀ g, g ≠ f.toNat → s'.fence t g = s.fence t g)
      ∧ (s'.tile t).outstanding = (s.tile t).outstanding := by
  refine ⟨_, onIssue_of_issuing h fun s => mfence s t f.toNat, onlyTiles_modTile s t _, sameTilesBut_modTile s t _, fun id => ?_,
    fun c => ?_, fun g hg => ?_, ?_⟩
  · rw [mfence, State.tile_modTile_same, mapGet_mapSet_same, List.mem_append, List.mem_map, List.mem_filterMap]
    constructor
    · rintro (⟨o, ho, hid⟩ | ⟨c, -, hrun⟩)
      · exact ⟨o, ho, FenceOp.msg.inj hid⟩
      · split at hrun <;> simp at hrun
    · rintro ⟨o, ho, rfl⟩
      exact .inl ⟨o, ho, rfl⟩
  · rw [mfence, State.tile_modTile_same, mapGet_mapSet_same, List.mem_append, List.mem_map, List.mem_filterMap]
    constructor
    · rintro (⟨o, -, hid⟩ | ⟨d, hd, hrun⟩)
      · cases hid
      · split at hrun
        · next r hr =>
          obtain ⟨⟨hout, hissue, hended⟩, hdc⟩ := Option.ite_none_right_eq_some.1 hrun
          cases FenceOp.run.inj (Option.some.inj hdc)
          exact ⟨List.mem_range.1 hd, r, hr, hout, hissue, Option.isNone_iff_eq_none.1 hended⟩
        · cases hrun
    · rintro ⟨hc, r, hr, hout, hissue, hended⟩
      refine .inr ⟨c, List.mem_range.2 hc, ?_⟩
      rw [hr]
      exact if_pos ⟨hout, hissue, Option.isNone_iff_eq_none.2 hended⟩
  · rw [State.fence, mfence, State.tile_modTile_same, mapGet_mapSet_ne _ _ _ hg]
    rfl
  · rw [mfence, State.tile_modTile_same]

/-- Settles O27: what the slot sends or holds is its template's message, also after the read of a payload, and MFENCE lists
the operations that are not complete. -/
theorem messagesAndFences : Obligations.MessagesAndFences :=
  ⟨⟨fun _ _ tpl inc ord h hroom => msig_sends h tpl inc ord hroom,
    fun _ _ tpl paddr ord ind step h hind hroom hports => msend_sends h tpl paddr ord ind step hind hroom hports,
    fun _ _ _ ht hfind hlocal => fenceReleaseSend_sends ht hfind hlocal⟩, fun _ _ f h => mfence_counts h f⟩

end Sys2Proof.Machine

/-! PROOFS. O26: completions, replies and row arrivals. -/

namespace Sys2Proof.Machine

/-! ### What accesses to the memories keep of a tile (R235, R379) -/

/-- A tile but for what accesses to its slice change: write-backs and tap digests. -/
def slicelessTile (t : Nat) (s : State) : Tile := { s.tile t with writeBacks := [], taps := [] }

section
variable {s s' : State} {t : Nat}

theorem slicelessTile_of_tiles (h : s'.tiles = s.tiles) : slicelessTile t s' = slicelessTile t s := by
  rw [slicelessTile, State.tile_of_tiles h, slicelessTile]

theorem slicelessTile_modTile {f : Tile → Tile} {u : Nat}
    (hf : ∀ x : Tile, { f x with writeBacks := [], taps := [] } = { x with writeBacks := [], taps := [] }) :
    slicelessTile t (s.modTile u f) = slicelessTile t s := by
  by_cases htu : t = u
  · subst htu
    rw [slicelessTile, State.tile_modTile_same, hf, slicelessTile]
  · rw [slicelessTile, State.tile_modTile_ne _ _ htu, slicelessTile]

end

section
variable (s : State) (o : Nat)

@[simp] theorem tiles_incReg : (s.incReg o).tiles = s.tiles := State.setReg_tiles ..

@[simp] theorem tiles_orReg (v : BitVec 32) : (s.orReg o v).tiles = s.tiles := State.setReg_tiles ..

@[simp] theorem tiles_raiseTile (u : Nat) (k : EvKind) (detail : Nat) : (s.raiseTile u k detail).tiles = s.tiles :=
  raise_tiles ..

@[simp] theorem tiles_raiseRegion (r : Nat) (k : EvKind) (detail : Nat) : (s.raiseRegion r k detail).tiles = s.tiles :=
  raise_tiles ..

end

section
variable (s : State) (t u : Nat)

theorem slicelessTile_queueWriteBack (word : Nat) : slicelessTile t (queueWriteBack s u word) = slicelessTile t s := by
  unfold queueWriteBack
  dsimp only
  split
  · rw [slicelessTile_of_tiles (tiles_orReg ..), slicelessTile_of_tiles (tiles_incReg ..)]
    exact slicelessTile_modTile fun x => by rfl
  · exact slicelessTile_modTile fun x => by rfl

theorem slicelessTile_spadWordErr (word : Nat) : slicelessTile t (spadWordErr s u word).1 = slicelessTile t s := by
  unfold spadWordErr
  dsimp only
  split
  · rfl
  · rw [slicelessTile_queueWriteBack]
    exact slicelessTile_of_tiles ((tiles_raiseTile ..).trans (tiles_incReg ..))
  · split
    · exact slicelessTile_of_tiles ((tiles_raiseTile ..).trans ((tiles_orReg ..).trans
        ((State.setReg_tiles ..).trans (tiles_incReg ..))))
    · rfl

theorem slicelessTile_spadRead (off n : Nat) : slicelessTile t (s.spadRead u off n).1 = slicelessTile t s :=
  foldl_keeps (fun x : State × List Nat × Bool => slicelessTile t x.1)
    (fun x w _ => slicelessTile_spadWordErr x.1 t u w) (s, [], false)

theorem tiles_hbmLineErr (line : Nat) : (hbmLineErr s line).1.tiles = s.tiles := by
  unfold hbmLineErr
  dsimp only
  split
  · simp
  · simp
  · rfl

theorem tiles_ddrLineErr (line : Nat) : (ddrLineErr s line).1.tiles = s.tiles := by
  unfold ddrLineErr
  dsimp only
  split
  · simp
  · simp
  · rfl

theorem slicelessTile_tapLine (line : Nat) : slicelessTile t (tapLine s u line) = slicelessTile t s := by
  unfold tapLine
  split
  · rfl
  · refine foldl_keeps (slicelessTile t) (fun x k _ => ?_) s
    dsimp only
    split
    · exact slicelessTile_modTile fun x => by rfl
    · rfl

theorem slicelessTile_spadWriteLine (off : Nat) (bs : List (BitVec 8)) (cause : Cause) :
    slicelessTile t (spadWriteLine s u off bs cause) = slicelessTile t s := by
  rw [spadWriteLine, slicelessTile_tapLine]
  exact (slicelessTile_modTile fun x => by rfl).trans (slicelessTile_of_tiles rfl)

theorem slicelessTile_spadWrite (off : Nat) (bs : List (BitVec 8)) (cs : List Cause) :
    slicelessTile t (s.spadWrite u off bs cs) = slicelessTile t s := by
  unfold State.spadWrite
  dsimp only
  split
  · rfl
  · exact foldl_keeps (slicelessTile t) (fun x i _ => slicelessTile_spadWriteLine x t u _ _ _) s

theorem slicelessTile_spaceWrite (space off : Nat) (bs : List (BitVec 8)) (cs : List Cause) :
    slicelessTile t (s.spaceWrite space off bs cs) = slicelessTile t s := by
  unfold State.spaceWrite
  refine foldl_keeps (slicelessTile t) (fun x p _ => ?_) s
  dsimp only
  split
  · exact slicelessTile_spadWrite ..
  · rfl
  · rfl

end

/-! ### The bytes of a read by fabric address (R241) -/

/-- The read of a piece of one line of a space. -/
def pieceRead (s : State) (space : Nat) (p : Nat × Nat) : State × List (BitVec 8) × List Cause :=
  match space with
  | 0 =>
    let (s, d) := s.spadRead (p.1 / sliceBytes) (p.1 % sliceBytes) p.2
    (s, d.bytes, d.causes)
  | 1 =>
    let (s, c) := hbmLineErr s (p.1 / 64)
    (s, memRead s.hbm p.1 p.2, List.replicate p.2 c)
  | _ =>
    let (s, c) := ddrLineErr s (p.1 / 64)
    (s, memRead s.ddr p.1 p.2, List.replicate p.2 c)

/-- One more piece of a read. -/
def appendPiece (space : Nat) (acc : State × List (BitVec 8) × List Cause) (p : Nat × Nat) :
    State × List (BitVec 8) × List Cause :=
  ((pieceRead acc.1 space p).1, acc.2.1 ++ (pieceRead acc.1 space p).2.1, acc.2.2 ++ (pieceRead acc.1 space p).2.2)

/-- The bytes of a piece of one line of a space. -/
def pieceBytes (s : State) (space : Nat) (p : Nat × Nat) : List (BitVec 8) :=
  match space with
  | 0 => (List.range p.2).map fun k => memGet s.spad (spadOff (p.1 / sliceBytes) (p.1 % sliceBytes + k))
  | 1 => memRead s.hbm p.1 p.2
  | _ => memRead s.ddr p.1 p.2

section
variable (s : State) (space : Nat)

theorem spaceRead_eq (off n : Nat) : s.spaceRead space off n = (linePieces off n).foldl (appendPiece space) (s, [], []) := by
  rcases space with _ | _ | space <;> rfl

theorem pieceBytes_of_mems {s s' : State} (h : s'.mems = s.mems) : pieceBytes s' = pieceBytes s := by
  have hspad : s'.spad = s.spad := congrArg Memories.spad h
  have hhbm : s'.hbm = s.hbm := congrArg Memories.hbm h
  have hddr : s'.ddr = s.ddr := congrArg Memories.ddr h
  funext space p
  rcases space with _ | _ | space <;> simp only [pieceBytes, hspad, hhbm, hddr]

theorem length_pieceBytes (p : Nat × Nat) : (pieceBytes s space p).length = p.2 := by
  rcases space with _ | _ | space <;> simp [pieceBytes, memRead]

/-- What a piece returns, whatever errors its line holds. -/
theorem pieceRead_bytes (p : Nat × Nat) :
    (pieceRead s space p).1.mems = s.mems ∧ (pieceRead s space p).2.1 = pieceBytes s space p := by
  rcases space with _ | _ | space
  · exact ⟨mems_spadRead .., spadRead_bytes ..⟩
  · exact ⟨mems_hbmLineErr .., congrArg (memRead · p.1 p.2) (congrArg Memories.hbm (mems_hbmLineErr s (p.1 / 64)))⟩
  · exact ⟨mems_ddrLineErr .., congrArg (memRead · p.1 p.2) (congrArg Memories.ddr (mems_ddrLineErr s (p.1 / 64)))⟩

theorem foldl_appendPiece_bytes (l : List (Nat × Nat)) (x : State × List (BitVec 8) × List Cause) :
    (l.foldl (appendPiece space) x).2.1 = x.2.1 ++ l.flatMap (pieceBytes x.1 space) := by
  induction l generalizing x with
  | nil => simp
  | cons p l ih =>
    obtain ⟨hmems, hbytes⟩ := pieceRead_bytes x.1 space p
    rw [List.foldl_cons, ih, List.flatMap_cons, ← List.append_assoc, appendPiece, hbytes, pieceBytes_of_mems hmems]

/-- A read returns the bytes of its pieces. -/
theorem spaceRead_bytes (off n : Nat) :
    (s.spaceRead space off n).2.1 = (linePieces off n).flatMap (pieceBytes s space) := by
  rw [spaceRead_eq, foldl_appendPiece_bytes]
  rfl

/-- The pieces of a run of bytes are as long as the run. -/
theorem sum_linePieces (off n : Nat) : ((linePieces off n).map Prod.snd).sum = n := by
  have hlines : ∀ m, (((List.range m).map fun i => (max off ((off / 64 + i) * 64),
      min (off + n) ((off / 64 + i + 1) * 64) - max off ((off / 64 + i) * 64))).map Prod.snd).sum
        = min (off + n) (max off ((off / 64 + m) * 64)) - off := by
    intro m
    induction m with
    | zero => simp; omega
    | succ m ih =>
      rw [List.range_succ, List.map_append, List.map_append, List.sum_append, ih]
      simp
      omega
  unfold linePieces
  split
  · next h => simp [h]
  · rw [hlines]
    omega

theorem length_spaceRead (off n : Nat) : (s.spaceRead space off n).2.1.length = n := by
  rw [spaceRead_bytes, List.length_flatMap]
  simp only [length_pieceBytes]
  exact sum_linePieces off n

theorem slicelessTile_spaceRead (t off n : Nat) : slicelessTile t (s.spaceRead space off n).1 = slicelessTile t s := by
  rw [spaceRead_eq]
  refine foldl_keeps (fun x : State × List (BitVec 8) × List Cause => slicelessTile t x.1) (fun x p _ => ?_) (s, [], [])
  rcases space with _ | _ | space
  · exact slicelessTile_spadRead ..
  · exact slicelessTile_of_tiles (tiles_hbmLineErr ..)
  · exact slicelessTile_of_tiles (tiles_ddrLineErr ..)

/-- A read of a tier changes no tile. -/
theorem tiles_spaceRead {space : Nat} (h : space ≠ 0) (off n : Nat) : (s.spaceRead space off n).1.tiles = s.tiles := by
  rw [spaceRead_eq]
  refine foldl_keeps (fun x : State × List (BitVec 8) × List Cause => x.1.tiles) (fun x p _ => ?_) (s, [], [])
  rcases space with _ | _ | space
  · exact (h rfl).elim
  · exact tiles_hbmLineErr ..
  · exact tiles_ddrLineErr ..

end

/-! ### Writes that may wrap within a slice (R41, R232) -/

section
variable {s : State} {t off : Nat} {bs : List (BitVec 8)}

/-- The bytes of a run that lie in its part `[a, b)` of one line are those at the part's place. -/
theorem spadOff_mem_line {n a b k : Nat} (t : Nat) (hn : n ≤ sliceBytes) (hk : k < n)
    (ha : off ≤ a) (hb : b ≤ off + n) (hline : b ≤ (a / 64 + 1) * 64) :
    (t * sliceBytes + a % sliceBytes ≤ spadOff t (off + k) ∧ spadOff t (off + k) < t * sliceBytes + a % sliceBytes + (b - a)
      ↔ a ≤ off + k ∧ off + k < b)
    ∧ (a ≤ off + k ∧ off + k < b → spadOff t (off + k) - (t * sliceBytes + a % sliceBytes) = off + k - a) := by
  simp only [spadOff]
  generalize t * sliceBytes = base
  simp only [sliceBytes] at hn ⊢
  omega

theorem memGet_spadWriteLine_part {n a b k : Nat} (hlen : bs.length = n) (hn : n ≤ sliceBytes)
    (hk : k < n) (ha : off ≤ a) (hb : b ≤ off + n) (hline : b ≤ (a / 64 + 1) * 64) (cause : Cause) :
    memGet (spadWriteLine s t (a % sliceBytes) ((bs.drop (a - off)).take (b - a)) cause).spad (spadOff t (off + k))
      = if a ≤ off + k ∧ off + k < b then bs.getD k 0 else memGet s.spad (spadOff t (off + k)) := by
  obtain ⟨hmem, hplace⟩ := spadOff_mem_line t hn hk ha hb hline
  have hlength : ((bs.drop (a - off)).take (b - a)).length = b - a := by
    rw [List.length_take, List.length_drop]
    omega
  rw [spad_spadWriteLine, memGet_memWrite, hlength]
  refine if_ctx_congr hmem (fun hin => ?_) fun _ => rfl
  rw [hplace hin, getD_take_drop _ _ (by omega)]
  congr 1
  omega

/-- The lines written so far hold their part of the bytes, also where the run wraps within the slice. -/
theorem memGet_writeLines_wrap (hlen : bs.length ≤ sliceBytes) (cs : List Cause) (m : Nat) {k : Nat}
    (hk : k < bs.length) : memGet (writeLines s t off bs cs m).spad (spadOff t (off + k))
      = if off + k < (off / 64 + m) * 64 then bs.getD k 0 else memGet s.spad (spadOff t (off + k)) := by
  induction m with
  | zero =>
    rw [if_neg (by omega)]
    rfl
  | succ m ih =>
    rw [writeLines, List.range_succ, List.foldl_append, List.foldl_cons, List.foldl_nil, ← writeLines]
    dsimp only
    rw [memGet_spadWriteLine_part rfl hlen hk (le_max_left ..) (min_le_left ..) (by omega), ih]
    by_cases hdone : off + k < (off / 64 + m) * 64
    · rw [if_pos hdone, ite_self, if_pos (by omega)]
    · rw [if_neg hdone]
      exact if_congr (by omega) rfl rfl

theorem memGet_writeLines_other (hoff : off < sliceBytes) (hlen : bs.length ≤ sliceBytes) (cs : List Cause) (m : Nat) {x : Nat}
    (hx : ∀ k, k < bs.length → x ≠ spadOff t (off + k)) :
    memGet (writeLines s t off bs cs m).spad x = memGet s.spad x := by
  refine foldl_keeps (fun y : State => memGet y.spad x) (fun y i _ => ?_) s
  dsimp only
  rw [spad_spadWriteLine, memGet_memWrite, if_neg]
  rw [List.length_take, List.length_drop]
  intro hin
  refine hx (max off ((off / 64 + i) * 64) - off + (x - (t * sliceBytes + max off ((off / 64 + i) * 64) % sliceBytes)))
    (by omega) ?_
  simp only [spadOff]
  generalize t * sliceBytes = base at *
  simp only [sliceBytes] at *
  omega

end

/-- The `n` bytes of a slice from an offset are the given ones, and no other byte of the memories has changed (R41). -/
def sliceHolds (s s' : State) (t off n : Nat) (bytes : Nat → BitVec 8) : Prop :=
  (∀ k, k < n → memGet s'.spad (spadOff t (off + k)) = bytes k)
    ∧ (∀ x, (∀ k, k < n → x ≠ spadOff t (off + k)) → memGet s'.spad x = memGet s.spad x)
    ∧ s'.hbm = s.hbm ∧ s'.ddr = s.ddr

section
variable {s s' : State} {t off : Nat}

theorem sliceHolds.of_mems {s0 s2 : State} {n : Nat} {bytes : Nat → BitVec 8} (h : sliceHolds s s' t off n bytes)
    (h0 : s.mems = s0.mems) (h2 : s2.mems = s'.mems) : sliceHolds s0 s2 t off n bytes := by
  obtain ⟨hin, hout, hhbm, hddr⟩ := h
  have hspad0 : s.spad = s0.spad := congrArg Memories.spad h0
  have hspad2 : s2.spad = s'.spad := congrArg Memories.spad h2
  refine ⟨fun k hk => ?_, fun x hx => ?_, (congrArg Memories.hbm h2 :).trans (hhbm.trans (congrArg Memories.hbm h0 :)),
    (congrArg Memories.ddr h2 :).trans (hddr.trans (congrArg Memories.ddr h0 :))⟩
  · rw [hspad2]
    exact hin k hk
  · rw [hspad2, hout x hx, hspad0]

/-- A write to a slice, also one that wraps within it. -/
theorem sliceHolds_spadWrite (s : State) (t off : Nat) {bs : List (BitVec 8)} (hlen : bs.length ≤ sliceBytes) (cs : List Cause) :
    sliceHolds s (s.spadWrite t off bs cs) t off bs.length fun k => bs.getD k 0 := by
  by_cases hbs : bs = []
  · subst hbs
    exact ⟨fun k hk => absurd hk k.not_lt_zero, fun _ _ => rfl, rfl, rfl⟩
  · have hoff : off % sliceBytes < sliceBytes := Nat.mod_lt _ (by decide)
    have hlines : s.spadWrite t off bs cs = writeLines s t (off % sliceBytes) bs cs
        ((off % sliceBytes + bs.length - 1) / 64 - off % sliceBytes / 64 + 1) := by
      rw [State.spadWrite, if_neg (by simpa using hbs)]
      rfl
    have hview := landView_spadWrite s t off bs cs
    refine ⟨fun k hk => ?_, fun x hx => ?_, congrArg LandView.hbm hview, congrArg LandView.ddr hview⟩
    · rw [hlines, ← spadOff_mod, memGet_writeLines_wrap hlen cs _ hk, if_pos (by omega)]
    · rw [hlines, memGet_writeLines_other hoff hlen cs _ fun k hk => ?_]
      rw [spadOff_mod]
      exact hx k hk

end

/-! ### The write of a reply (R8, R243) -/

theorem leBytes_leNat (bs : List (BitVec 8)) : leBytes bs.length (leNat bs) = bs := by
  induction bs with
  | nil => rfl
  | cons b bs ih =>
    have hlow : BitVec.ofNat 8 (b.toNat + 256 * leNat bs) = b := by
      apply BitVec.eq_of_toNat_eq
      have := b.isLt
      rw [BitVec.toNat_ofNat]
      omega
    have hhigh : (b.toNat + 256 * leNat bs) / 256 = leNat bs := by
      have := b.isLt
      omega
    rw [List.length_cons, leNat, leBytes, hlow, hhigh, ih]

section
variable {s : State} {t : Nat}

/-- What a tile without broken promises produces is written as it is. -/
theorem spadProduce_of_unbroken (h : (s.tile t).broken = false) (off : Nat) (bs : List (BitVec 8)) (cs : List Cause) :
    s.spadProduce t off bs cs = s.spadWrite t off bs cs := by
  rw [State.spadProduce, State.produce, if_neg (by simp [h])]
  dsimp only
  rw [leBytes_leNat]

theorem tiles_notePoison (s : State) (t c : Nat) (cs : List Cause) : (notePoison s t c cs).tiles = s.tiles := by
  unfold notePoison
  split
  · rfl
  · exact tiles_orReg ..

theorem notePoison_of_none {cs : List Cause} (h : causeJoinAll cs = .none) (s : State) (t c : Nat) :
    notePoison s t c cs = s := if_pos h

/-- What the write of a reply leaves: the bytes in the slice, the other tiles, and the tile but for its slice. -/
structure ReplyWritten (s s' : State) (t off : Nat) (bs : List (BitVec 8)) : Prop where
  bytes : sliceHolds s s' t off bs.length fun k => bs.getD k 0
  others : sameTilesBut s s' [t]
  tile : slicelessTile t s' = slicelessTile t s

theorem replyWritten_replyWrite (h : (s.tile t).broken = false) {bs : List (BitVec 8)} (hlen : bs.length ≤ 64)
    (c off : Nat) (cs : List Cause) : ReplyWritten s (replyWrite s t c off bs cs) t off bs := by
  have htiles := tiles_notePoison (s.spadWrite t off bs cs) t c cs
  have hhold := sliceHolds_spadWrite s t off (hlen.trans (by decide : 64 ≤ sliceBytes)) cs
  rw [replyWrite, spadProduce_of_unbroken h]
  refine ⟨hhold.of_mems rfl (mems_notePoison ..), fun u hu => ?_,
    (slicelessTile_of_tiles htiles).trans (slicelessTile_spadWrite ..)⟩
  rw [State.tile_of_tiles htiles]
  exact sameTilesBut_of_landView (landView_spadWrite s t off bs cs) u hu

/-- A write without poison changes no register. -/
theorem reg_replyWrite (h : (s.tile t).broken = false) {cs : List Cause} (hcs : causeJoinAll cs = .none)
    (c off : Nat) (bs : List (BitVec 8)) (o : Nat) : (replyWrite s t c off bs cs).reg o = s.reg o := by
  have hregs : (s.spadWrite t off bs cs).regs = s.regs := (congrArg State.regs (spadWrite_frame s t off bs cs) :)
  rw [replyWrite, spadProduce_of_unbroken h, notePoison_of_none hcs, State.reg_of_regs hregs]

end

/-! ### Faults of a run (R242) -/

section
variable (s : State) (t c : Nat) (r : StreamRun) (code elem : Nat)

theorem runFault_run : (runFault s t c r code elem).2 = { r with faulted := r.faulted || code != 0 } := by
  obtain ⟨_, _, _, _, _, _, _, _, _, faulted, _, _, _, _, _, _⟩ := r
  unfold runFault
  by_cases hcode : code = 0
  · subst hcode
    rw [if_pos (.inl rfl)]
    simp
  · cases faulted <;> simp [hcode]

theorem tiles_runFault : (runFault s t c r code elem).1.tiles = s.tiles := by
  unfold runFault
  split
  · rfl
  · exact raiseStream_tiles ..

/-- The first fault of a run is recorded. -/
theorem reg_runFault {c : Nat} (ht : t < 2048) (hc : c < 4) (hcode : code ≠ 0) (hfirst : r.faulted = false) :
    (runFault s t c r code elem).1.reg (STR_FAULT t c) = BitVec.ofNat 32 (code + elem * 256)
      ∧ bit ((runFault s t c r code elem).1.reg (STR_EVENT t)) c = true := by
  rw [runFault, if_neg (by simp [hcode, hfirst])]
  exact raiseStream_regs s t ht hc code elem

end

/-! ### The state in which a request on this module is answered (R57, R241) -/

/-- The work of the memory behind a request on this module is noted before its answer (R57). -/
def replyStart (s : State) (t : Nat) (r : StreamRun) (e : StreamElem) : State :=
  let place := s.redirect r.copies (addrSpace e.far) (addrOff e.far)
  match (if e.remote || e.fail.isSome then none else s.memRegion place.1 place.2) with
  | some n => s.noteWork n (s.cycle t)
  | none => s

section
variable {s : State} {t : Nat} {r : StreamRun} {e : StreamElem}

theorem memRegion_space {space off n : Nat} (h : s.memRegion space off = some n) : space ≠ 0 := by
  rintro rfl
  cases h

theorem replyStart_eq (s : State) (t : Nat) (r : StreamRun) (e : StreamElem) : replyStart s t r e = s
    ∨ (s.redirect r.copies (addrSpace e.far) (addrOff e.far)).1 ≠ 0 ∧ ∃ w, replyStart s t r e = { s with work := w } := by
  unfold replyStart
  dsimp only
  split
  · next n hn =>
    split at hn
    · cases hn
    · exact .inr ⟨memRegion_space hn, _, rfl⟩
  · exact .inl rfl

/-- No access is made for an element that failed before it. -/
theorem replyStart_of_fail {f : Nat × Cause} (h : e.fail = some f) : replyStart s t r e = s := by
  have hnone : (if (e.remote || e.fail.isSome) = true then none else s.memRegion
      (s.redirect r.copies (addrSpace e.far) (addrOff e.far)).1 (s.redirect r.copies (addrSpace e.far) (addrOff e.far)).2)
        = none := if_pos (by simp [h])
  rw [replyStart, hnone]

theorem mems_replyStart : (replyStart s t r e).mems = s.mems := by
  rcases replyStart_eq s t r e with h | ⟨-, w, h⟩
  · rw [h]
  · rw [h]
    rfl

theorem tiles_replyStart : (replyStart s t r e).tiles = s.tiles := by
  rcases replyStart_eq s t r e with h | ⟨-, w, h⟩ <;> rw [h]

end

section
variable {s : State}

/-! ### Accesses by fabric address (R241, R412) -/

/-- The space and offset that an access to an address uses (R412). -/
def accessPlace (s : State) (copies : SMap Bool) (a : Nat) : Nat × Nat := s.redirect copies (addrSpace a) (addrOff a)

/-- What an access to `n` bytes at an address meets. -/
def accessStatus (s : State) (copies : SMap Bool) (a n : Nat) : Nat :=
  if addrSpace a = 3 then stAccessDenied else s.spaceStatus (accessPlace s copies a).1 (accessPlace s copies a).2 n

variable {copies : SMap Bool} {a n : Nat}

theorem localRead_of_fault (h : accessStatus s copies a n ≠ stDone) :
    s.localRead copies a n = (s, accessStatus s copies a n, [], []) := if_pos h

theorem localRead_of_done (h : accessStatus s copies a n = stDone) : s.localRead copies a n
    = ((s.spaceRead (accessPlace s copies a).1 (accessPlace s copies a).2 n).1, stDone,
        (s.spaceRead (accessPlace s copies a).1 (accessPlace s copies a).2 n).2.1,
        (s.spaceRead (accessPlace s copies a).1 (accessPlace s copies a).2 n).2.2) := if_neg (not_not.2 h)

theorem localRead_status : (s.localRead copies a n).2.1 = accessStatus s copies a n := by
  by_cases h : accessStatus s copies a n = stDone
  · rw [localRead_of_done h, h]
  · rw [localRead_of_fault h]

theorem localWrite_of_fault {bs : List (BitVec 8)} (h : accessStatus s copies a bs.length ≠ stDone) (cs : List Cause) :
    s.localWrite copies a bs cs = (s, accessStatus s copies a bs.length) := if_pos h

theorem localWrite_of_done {bs : List (BitVec 8)} (h : accessStatus s copies a bs.length = stDone) (cs : List Cause) :
    s.localWrite copies a bs cs = (s.spaceWrite (accessPlace s copies a).1 (accessPlace s copies a).2 bs cs, stDone) :=
  if_neg (not_not.2 h)

theorem length_localRead (h : (s.localRead copies a n).2.1 = stDone) : (s.localRead copies a n).2.2.1.length = n := by
  rw [localRead_status] at h
  rw [localRead_of_done h]
  exact length_spaceRead ..

theorem slicelessTile_localRead (t : Nat) : slicelessTile t (s.localRead copies a n).1 = slicelessTile t s := by
  by_cases h : accessStatus s copies a n = stDone
  · rw [localRead_of_done h]
    exact slicelessTile_spaceRead ..
  · rw [localRead_of_fault h]

/-- A read returns the same with other work noted, and changes the same tiles. -/
theorem localRead_work (hplace : (accessPlace s copies a).1 ≠ 0) (n : Nat) (w : SMap Nat) :
    ({ s with work := w }.localRead copies a n).2.1 = (s.localRead copies a n).2.1
      ∧ ({ s with work := w }.localRead copies a n).2.2.1 = (s.localRead copies a n).2.2.1
      ∧ ({ s with work := w }.localRead copies a n).1.tiles = (s.localRead copies a n).1.tiles := by
  have hstatus : accessStatus { s with work := w } copies a n = accessStatus s copies a n := rfl
  have hsame : accessPlace { s with work := w } copies a = accessPlace s copies a := rfl
  by_cases h : accessStatus s copies a n = stDone
  · rw [localRead_of_done h, localRead_of_done (hstatus.trans h), hsame]
    refine ⟨rfl, ?_, (tiles_spaceRead _ hplace ..).trans (tiles_spaceRead s hplace ..).symm⟩
    dsimp only
    rw [spaceRead_bytes, spaceRead_bytes]
    rfl
  · rw [localRead_of_fault h, localRead_of_fault (hstatus ▸ h), hstatus]
    exact ⟨rfl, rfl, rfl⟩

theorem slicelessTile_localWrite (t : Nat) (bs : List (BitVec 8)) (cs : List Cause) :
    slicelessTile t (s.localWrite copies a bs cs).1 = slicelessTile t s := by
  by_cases h : accessStatus s copies a bs.length = stDone
  · rw [localWrite_of_done h]
    exact slicelessTile_spaceWrite ..
  · rw [localWrite_of_fault h]

/-- A write to a tier does the same with other work noted. -/
theorem spaceWrite_work {space : Nat} (h : space ≠ 0) (off : Nat) (bs : List (BitVec 8)) (cs : List Cause) (w : SMap Nat) :
    { s with work := w }.spaceWrite space off bs cs = { s.spaceWrite space off bs cs with work := w } := by
  unfold State.spaceWrite
  refine List.foldl_hom (fun x : State => { x with work := w }) fun x p => ?_
  rcases space with _ | _ | space
  · exact (h rfl).elim
  · rfl
  · rfl

theorem localWrite_work (hplace : (accessPlace s copies a).1 ≠ 0) (bs : List (BitVec 8)) (cs : List Cause) (w : SMap Nat) :
    ({ s with work := w }.localWrite copies a bs cs).1.mems = (s.localWrite copies a bs cs).1.mems
      ∧ ({ s with work := w }.localWrite copies a bs cs).2 = (s.localWrite copies a bs cs).2 := by
  have hstatus : accessStatus { s with work := w } copies a bs.length = accessStatus s copies a bs.length := rfl
  have hsame : accessPlace { s with work := w } copies a = accessPlace s copies a := rfl
  by_cases h : accessStatus s copies a bs.length = stDone
  · rw [localWrite_of_done h, localWrite_of_done (hstatus.trans h), hsame, spaceWrite_work hplace]
    exact ⟨rfl, rfl⟩
  · rw [localWrite_of_fault h, localWrite_of_fault (hstatus ▸ h), hstatus]
    exact ⟨rfl, rfl⟩

end

theorem localRead_replyStart (s : State) (t : Nat) (r : StreamRun) (e : StreamElem) :
    ((replyStart s t r e).localRead r.copies e.far e.len).2.1 = (s.localRead r.copies e.far e.len).2.1
      ∧ ((replyStart s t r e).localRead r.copies e.far e.len).2.2.1 = (s.localRead r.copies e.far e.len).2.2.1
      ∧ ((replyStart s t r e).localRead r.copies e.far e.len).1.tiles = (s.localRead r.copies e.far e.len).1.tiles := by
  rcases replyStart_eq s t r e with h | ⟨hplace, w, h⟩ <;> rw [h]
  · exact ⟨rfl, rfl, rfl⟩
  · exact localRead_work hplace e.len w

theorem localWrite_replyStart (s : State) (t : Nat) (r : StreamRun) (e : StreamElem) :
    ((replyStart s t r e).localWrite r.copies e.far e.bytes e.causes).1.mems
        = (s.localWrite r.copies e.far e.bytes e.causes).1.mems
      ∧ ((replyStart s t r e).localWrite r.copies e.far e.bytes e.causes).2
        = (s.localWrite r.copies e.far e.bytes e.causes).2 := by
  rcases replyStart_eq s t r e with h | ⟨hplace, w, h⟩ <;> rw [h]
  · exact ⟨rfl, rfl⟩
  · exact localWrite_work hplace e.bytes e.causes w

/-! ### The reply to one request (R241 to R243) -/

/-- The place in the slice of a request's bytes (R241). -/
def elemLoc (r : StreamRun) (e : StreamElem) : Nat := descLaddr r.words + e.elem * descRsize r.words + e.off

section
variable {s : State} {t c : Nat} {r : StreamRun} {e : StreamElem}

theorem applyReply_failed {code : Nat} {cause : Cause} (hfail : e.fail = some (code, cause)) : applyReply s t c r e
    = if (runFault s t c r code e.elem).2.sop = 3 then runFault s t c r code e.elem
      else (replyWrite (runFault s t c r code e.elem).1 t c
          (elemLoc r e) (List.replicate e.len 0) (List.replicate e.len cause), (runFault s t c r code e.elem).2) := by
  rw [applyReply, hfail]
  rfl

theorem applyReply_write (hfail : e.fail = none) (hanswer : e.answer = none) (hout : runOut r = true) :
    let w := s.localWrite r.copies e.far e.bytes e.causes
    applyReply s t c r e = runFault (if w.2 = stDone then notePoison w.1 t c e.causes else w.1) t c r
      (if w.2 = stDone then 0 else 1) e.elem := by
  rw [applyReply, hfail, hanswer]
  exact if_pos hout

theorem applyReply_read (hfail : e.fail = none) (hanswer : e.answer = none) (hin : runOut r = false)
    (hdone : (s.localRead r.copies e.far e.len).2.1 = stDone) :
    let q := s.localRead r.copies e.far e.len
    applyReply s t c r e = (replyWrite q.1 t c (elemLoc r e) (q.2.2.1.take e.len) (q.2.2.2.take e.len), r) := by
  rw [applyReply, hfail, hanswer]
  exact (if_neg (by simp [hin])).trans (if_pos hdone)

theorem applyReply_read_fault (hfail : e.fail = none) (hanswer : e.answer = none) (hin : runOut r = false)
    (hfault : (s.localRead r.copies e.far e.len).2.1 ≠ stDone) : applyReply s t c r e
      = (replyWrite (runFault s t c r 1 e.elem).1 t c (elemLoc r e) (List.replicate e.len 0) [],
          (runFault s t c r 1 e.elem).2) := by
  have hkept : (s.localRead r.copies e.far e.len).1 = s := by
    rw [localRead_of_fault (localRead_status ▸ hfault)]
  rw [applyReply, hfail, hanswer, ← elemLoc]
  dsimp only
  rw [if_neg (by simp [hin]), if_neg hfault, hkept]

/-- What a reply keeps: the tile but for its slice, and the run but for its mark of a fault. -/
structure ReplyKept (s : State) (t : Nat) (r : StreamRun) (p : State × StreamRun) : Prop where
  tile : slicelessTile t p.1 = slicelessTile t s
  run : p.2 = { r with faulted := p.2.faulted }

theorem broken_of_slicelessTile {s' : State} (h : slicelessTile t s' = slicelessTile t s) :
    (s'.tile t).broken = (s.tile t).broken := (congrArg Tile.broken h :)

theorem slicelessTile_runFault (code elem : Nat) :
    slicelessTile t (runFault s t c r code elem).1 = slicelessTile t s := slicelessTile_of_tiles (tiles_runFault ..)

theorem run_runFault (code elem : Nat) :
    (runFault s t c r code elem).2 = { r with faulted := (runFault s t c r code elem).2.faulted } := by
  rw [runFault_run]

/-- The zeros that stand for the bytes of a failed element. -/
theorem zeros_replyWritten (hbroken : (s.tile t).broken = false) (hlen : e.len ≤ 64) (code : Nat) (cs : List Cause) :
    let s' := replyWrite (runFault s t c r code e.elem).1 t c (elemLoc r e) (List.replicate e.len 0) cs
    sliceHolds s s' t (elemLoc r e) e.len (fun _ => 0) ∧ sameTilesBut s s' [t] ∧ slicelessTile t s' = slicelessTile t s := by
  have hwritten := replyWritten_replyWrite (s := (runFault s t c r code e.elem).1) (t := t) (bs := List.replicate e.len 0)
    ((broken_of_slicelessTile (slicelessTile_runFault ..)).trans hbroken) (by simpa using hlen) c (elemLoc r e) cs
  obtain ⟨hin, hrest⟩ := hwritten.bytes.of_mems (mems_runFault ..) rfl
  rw [List.length_replicate] at hin hrest
  refine ⟨⟨fun k hk => (hin k hk).trans (by simp [List.getD_eq_getElem?_getD, hk]), hrest⟩, fun u hu => ?_,
    hwritten.tile.trans (slicelessTile_runFault ..)⟩
  rw [hwritten.others u hu, State.tile_of_tiles (tiles_runFault ..)]

theorem replyKept_applyReply (hbroken : (s.tile t).broken = false) (hlen : e.len ≤ 64) (hanswer : e.answer = none) :
    ReplyKept s t r (applyReply s t c r e) := by
  rcases hfail : e.fail with _ | ⟨code, cause⟩
  · cases hout : runOut r with
    | true =>
      have hwrite : ∀ d : State × Nat, slicelessTile t d.1 = slicelessTile t s →
          slicelessTile t (if d.2 = stDone then notePoison d.1 t c e.causes else d.1) = slicelessTile t s := by
        intro d hd
        split
        · exact (slicelessTile_of_tiles (tiles_notePoison ..)).trans hd
        · exact hd
      rw [applyReply_write hfail hanswer hout]
      exact ⟨(slicelessTile_runFault ..).trans (hwrite _ (slicelessTile_localWrite ..)), run_runFault ..⟩
    | false =>
      by_cases hdone : (s.localRead r.copies e.far e.len).2.1 = stDone
      · have hread := slicelessTile_localRead (s := s) (copies := r.copies) (a := e.far) (n := e.len) t
        rw [applyReply_read hfail hanswer hout hdone]
        exact ⟨(replyWritten_replyWrite ((broken_of_slicelessTile hread).trans hbroken)
          ((List.length_take_le ..).trans hlen) ..).tile.trans hread, rfl⟩
      · rw [applyReply_read_fault hfail hanswer hout hdone]
        exact ⟨(zeros_replyWritten hbroken hlen 1 []).2.2, run_runFault ..⟩
  · rw [applyReply_failed hfail]
    split
    · exact ⟨slicelessTile_runFault .., run_runFault ..⟩
    · exact ⟨(zeros_replyWritten hbroken hlen code _).2.2, run_runFault ..⟩

/-! ### The run after the reply (R187, R241) -/

/-- The run once its oldest request is answered. -/
def answeredRun (r : StreamRun) (e : StreamElem) (now : Nat) : StreamRun :=
  let done := if e.last then e.elem + 1 else r.done
  { r with
    waiting := r.waiting.drop 1
    done := done
    ended := if runCount r ≤ done then some now else r.ended }

theorem afterReply_eq (hhalted : r.halted = false) : afterReply s t c r e
    = s.setChan t c { s.chan t c with run := some (answeredRun r e (s.cycle t)) } :=
  if_neg (by simp [hhalted])

theorem streamReply_eq {rest : List StreamElem} (hrun : (s.chan t c).run = some r) (hended : r.ended = none)
    (hwaiting : r.waiting = e :: rest) (hremote : e.remote = false) (hidle : s.tileIssues t = false) : streamReply s t c
      = afterReply (applyReply (replyStart s t r e) t c r e).1 t c (applyReply (replyStart s t r e) t c r e).2 e := by
  rw [streamReply, hrun]
  dsimp only
  rw [if_neg (by simp [hended]), if_neg (by simp [hwaiting]), replyOldest, hwaiting]
  dsimp only
  rw [if_neg (by simp [hremote]), if_neg (by simp [hidle])]
  rfl

end

/-! ### The clauses on replies -/

section
variable {s : State} {t c : Nat} {r : StreamRun} {e : StreamElem} {rest : List StreamElem}

/-- The run advances past its oldest request, and nothing else changes after the reply. -/
theorem streamReply_advances (hrun : (s.chan t c).run = some r) (hended : r.ended = none) (hhalted : r.halted = false)
    (hwaiting : r.waiting = e :: rest) (hremote : e.remote = false) (hanswer : e.answer = none) (hlen : e.len ≤ 64)
    (hbroken : (s.tile t).broken = false) (hidle : s.tileIssues t = false) :
    let p := applyReply (replyStart s t r e) t c r e
    ∃ r', ((streamReply s t c).chan t c).run = some r' ∧ r'.waiting = rest
      ∧ r'.done = (if e.last then e.elem + 1 else r.done)
      ∧ r'.ended = (if runCount r ≤ r'.done then some (s.cycle t) else none) ∧ r'.faulted = p.2.faulted
      ∧ (streamReply s t c).mems = p.1.mems ∧ (∀ o, (streamReply s t c).reg o = p.1.reg o)
      ∧ sameTilesBut p.1 (streamReply s t c) [t] := by
  intro p
  have hstart : slicelessTile t (replyStart s t r e) = slicelessTile t s := slicelessTile_of_tiles tiles_replyStart
  obtain ⟨htile, hkept⟩ := replyKept_applyReply (c := c) (r := r) ((broken_of_slicelessTile hstart).trans hbroken) hlen hanswer
  have hcycle : p.1.cycle t = s.cycle t := (congrArg (fun x : Tile => x.ctl.cycle) (htile.trans hstart) :)
  have hp : p.2 = { r with faulted := p.2.faulted } := hkept
  have hreply : streamReply s t c
      = p.1.setChan t c { p.1.chan t c with run := some (answeredRun p.2 e (p.1.cycle t)) } := by
    rw [streamReply_eq hrun hended hwaiting hremote hidle]
    exact afterReply_eq ((congrArg StreamRun.halted hp).trans hhalted)
  rw [hreply, hcycle]
  refine ⟨_, congrArg Channel.run (State.chan_setChan_same ..), ?_, ?_, ?_, rfl, mems_setChan .., fun _ => rfl,
    sameTilesBut_setChan _ _ _ _⟩
  · rw [hp, answeredRun, hwaiting]
    rfl
  · rw [hp]
    rfl
  · rw [hp]
    exact if_congr Iff.rfl rfl hended

/-- Bytes read elsewhere in the module are written to the slice (R241). -/
theorem applyReply_fills (hfail : e.fail = none) (hanswer : e.answer = none) (hin : runOut r = false) (hlen : e.len ≤ 64)
    (hbroken : (s.tile t).broken = false) (hdone : (s.localRead r.copies e.far e.len).2.1 = stDone) :
    let q := s.localRead r.copies e.far e.len
    let p := applyReply (replyStart s t r e) t c r e
    sliceHolds s p.1 t (elemLoc r e) e.len (fun k => q.2.2.1.getD k 0) ∧ p.2.faulted = r.faulted
      ∧ sameTilesBut q.1 p.1 [t] := by
  intro q p
  obtain ⟨hstatus, hbytes, htiles⟩ := localRead_replyStart s t r e
  have hp : p = _ := applyReply_read hfail hanswer hin (hstatus.trans hdone)
  have hlength : q.2.2.1.length = e.len := length_localRead hdone
  have hread : slicelessTile t ((replyStart s t r e).localRead r.copies e.far e.len).1 = slicelessTile t s :=
    (slicelessTile_localRead t).trans (slicelessTile_of_tiles tiles_replyStart)
  have hmems : ((replyStart s t r e).localRead r.copies e.far e.len).1.mems = s.mems :=
    (mems_localRead ..).trans mems_replyStart
  rw [hbytes, List.take_of_length_le hlength.le] at hp
  have hwritten := replyWritten_replyWrite ((broken_of_slicelessTile hread).trans hbroken) (hlength.le.trans hlen) c
    (elemLoc r e) (((replyStart s t r e).localRead r.copies e.far e.len).2.2.2.take e.len)
  have hholds := hwritten.bytes.of_mems hmems rfl
  rw [hlength] at hholds
  rw [hp]
  refine ⟨hholds, rfl, fun u hu => ?_⟩
  rw [hwritten.others u hu, State.tile_of_tiles htiles]

/-- Zeros stand for what a failed access would have read (R242). -/
theorem applyReply_zeros (hfail : e.fail = none) (hanswer : e.answer = none) (hin : runOut r = false) (hlen : e.len ≤ 64)
    (hbroken : (s.tile t).broken = false) (hfault : (s.localRead r.copies e.far e.len).2.1 ≠ stDone) :
    let p := applyReply (replyStart s t r e) t c r e
    sliceHolds s p.1 t (elemLoc r e) e.len (fun _ => 0) ∧ p.2.faulted = true ∧ sameTilesBut s p.1 [t]
      ∧ ∀ o, p.1.reg o = (runFault (replyStart s t r e) t c r 1 e.elem).1.reg o := by
  intro p
  have hunbroken : ((replyStart s t r e).tile t).broken = false := by rwa [State.tile_of_tiles tiles_replyStart]
  have hp : p = _ := applyReply_read_fault hfail hanswer hin ((localRead_replyStart s t r e).1.trans_ne hfault)
  obtain ⟨hzeros, hothers, -⟩ := zeros_replyWritten (c := c) (r := r) hunbroken hlen 1 []
  rw [hp]
  refine ⟨hzeros.of_mems mems_replyStart rfl, ?_, fun u hu => ?_, reg_replyWrite ?_ rfl c _ _⟩
  · rw [runFault_run]
    exact Bool.or_true _
  · rw [hothers u hu, State.tile_of_tiles tiles_replyStart]
  · exact (broken_of_slicelessTile (slicelessTile_runFault ..)).trans hunbroken

/-- An index outside the table fails its element before any access (R243). -/
theorem applyReply_outside (hfail : e.fail = some (2, .none)) (hlen : e.len ≤ 64) (hbroken : (s.tile t).broken = false) :
    let p := applyReply (replyStart s t r e) t c r e
    p.2.faulted = true ∧ (r.sop = 3 → p.1.mems = s.mems) ∧ (r.sop ≠ 3 → sliceHolds s p.1 t (elemLoc r e) e.len fun _ => 0)
      ∧ ∀ o, p.1.reg o = (runFault s t c r 2 e.elem).1.reg o := by
  intro p
  have hfaulted : (runFault s t c r 2 e.elem).2.faulted = true := by
    rw [runFault_run]
    exact Bool.or_true _
  have hsop : (runFault s t c r 2 e.elem).2.sop = r.sop := by rw [runFault_run]
  have hp : p = _ := (congrArg (applyReply · t c r e) (replyStart_of_fail hfail)).trans (applyReply_failed hfail)
  rw [hsop] at hp
  rw [hp]
  by_cases hscatter : r.sop = 3
  · rw [if_pos hscatter]
    exact ⟨hfaulted, fun _ => mems_runFault .., fun h => (h hscatter).elim, fun _ => rfl⟩
  · rw [if_neg hscatter]
    obtain ⟨hzeros, -, -⟩ := zeros_replyWritten (c := c) (r := r) hbroken hlen 2 (List.replicate e.len .none)
    have hunbroken := (broken_of_slicelessTile (slicelessTile_runFault (c := c) (r := r) 2 e.elem)).trans hbroken
    exact ⟨hfaulted, fun h => (hscatter h).elim, fun _ => hzeros,
      reg_replyWrite hunbroken (causeJoinAll_replicate_none _) c _ _⟩

/-- Towards the far side the bytes of the request are written there (R241). -/
theorem applyReply_writes (hfail : e.fail = none) (hanswer : e.answer = none) (hout : runOut r = true) :
    let w := s.localWrite r.copies e.far e.bytes e.causes
    let p := applyReply (replyStart s t r e) t c r e
    p.1.mems = w.1.mems ∧ (p.2.faulted = true ↔ r.faulted = true ∨ w.2 ≠ stDone) := by
  intro w p
  obtain ⟨hmems, hstatus⟩ := localWrite_replyStart s t r e
  have hp : p = _ := applyReply_write hfail hanswer hout
  rw [hp, hstatus]
  refine ⟨(mems_runFault ..).trans ?_, ?_⟩
  · split
    · exact (mems_notePoison ..).trans hmems
    · exact hmems
  · rw [runFault_run]
    by_cases hdone : w.2 = stDone
    · simp [w, hdone]
    · simp [w, hdone]

end

/-- The clause of O26 on replies. -/
theorem streamReply_replies {s : State} {t : Nat} {ch : BitVec 2} {r : StreamRun} {e : StreamElem} {rest : List StreamElem}
    (ht : t < s.tileCount) (hrun : (s.chan t ch.toNat).run = some r) (hended : r.ended = none) (hhalted : r.halted = false)
    (hwaiting : r.waiting = e :: rest) (hremote : e.remote = false) (hanswer : e.answer = none) (hlen : e.len ≤ 64)
    (hbroken : (s.tile t).broken = false) (hidle : s.tileIssues t = false) :
    let loc := descLaddr r.words + e.elem * descRsize r.words + e.off
    let q := s.localRead r.copies e.far e.len
    let w := s.localWrite r.copies e.far e.bytes e.causes
    let wrote := fun (s' : State) (bytes : Nat → BitVec 8) => sliceHolds s s' t loc e.len bytes
    ∃ s' r', exec (.streamReply t ch) s = .next s' ∧ (s'.chan t ch.toNat).run = some r'
      ∧ r'.waiting = rest ∧ r'.done = (if e.last then e.elem + 1 else r.done)
      ∧ r'.ended = (if runCount r ≤ r'.done then some (s.cycle t) else none)
      ∧ (runOut r = false → e.fail = none → q.2.1 = stDone → wrote s' (fun k => q.2.2.1.getD k 0) ∧ r'.faulted = r.faulted
          ∧ sameTilesBut q.1 s' [t])
      ∧ (runOut r = false → e.fail = none → q.2.1 ≠ stDone → wrote s' (fun _ => 0) ∧ r'.faulted = true
          ∧ sameTilesBut s s' [t]
          ∧ (r.faulted = false → s'.reg (STR_FAULT t ch.toNat) = BitVec.ofNat 32 (1 + e.elem * 256)
              ∧ bit (s'.reg (STR_EVENT t)) ch.toNat = true))
      ∧ (e.fail = some (2, .none) → r'.faulted = true ∧ (r.sop = 3 → sameMemory s s') ∧ (r.sop ≠ 3 → wrote s' (fun _ => 0))
          ∧ (r.faulted = false → s'.reg (STR_FAULT t ch.toNat) = BitVec.ofNat 32 (2 + e.elem * 256)))
      ∧ (runOut r = true → e.fail = none → sameMemory w.1 s' ∧ (r'.faulted = true ↔ r.faulted = true ∨ w.2 ≠ stDone)) := by
  intro loc q w wrote
  have ht' : t < 2048 := ht.trans_le (tileCount_lt s).le
  obtain ⟨r', hrun', hwaiting', hdone', hended', hfaulted', hmems, hreg, hothers⟩ :=
    streamReply_advances hrun hended hhalted hwaiting hremote hanswer hlen hbroken hidle
  refine ⟨_, r', onTile_lt ht (streamReply · t ch.toNat), hrun', hwaiting', hdone', hended', fun hin hfail hdone => ?_,
    fun hin hfail hfault => ?_, fun hfail => ?_, fun hout hfail => ?_⟩
  · obtain ⟨hbytes, hfaulted, htiles⟩ := applyReply_fills (c := ch.toNat) hfail hanswer hin hlen hbroken hdone
    exact ⟨hbytes.of_mems rfl hmems, hfaulted'.trans hfaulted, htiles.trans hothers⟩
  · obtain ⟨hbytes, hfaulted, htiles, hregs⟩ := applyReply_zeros (c := ch.toNat) hfail hanswer hin hlen hbroken hfault
    refine ⟨hbytes.of_mems rfl hmems, hfaulted'.trans hfaulted, htiles.trans hothers, fun hfirst => ?_⟩
    rw [hreg, hregs, hreg, hregs]
    exact reg_runFault _ _ _ _ _ ht' ch.isLt Nat.one_ne_zero hfirst
  · obtain ⟨hfaulted, hscatter, hbytes, hregs⟩ := applyReply_outside (c := ch.toNat) hfail hlen hbroken
    refine ⟨hfaulted'.trans hfaulted, fun h => sameMemory_of_mems (hmems.trans (hscatter h)),
      fun h => (hbytes h).of_mems rfl hmems, fun hfirst => ?_⟩
    rw [hreg, hregs]
    exact (reg_runFault _ _ _ _ _ ht' ch.isLt (by decide) hfirst).1
  · obtain ⟨hbytes, hfaulted⟩ := applyReply_writes (s := s) (t := t) (c := ch.toNat) hfail hanswer hout
    exact ⟨sameMemory_of_mems (hmems.trans hbytes), by rw [hfaulted']; exact hfaulted⟩

/-! ### Completion, and the rows that arrive (R187, R247) -/

/-- The clause of O26 on completion. -/
theorem streamComplete_completes {s : State} {t : Nat} (ht : t < s.tileCount) {ch : BitVec 2} {r : StreamRun}
    (hrun : (s.chan t ch.toNat).run = some r) :
    (∀ e, r.ended = some e → s.dueNow t e = true →
      ∃ s', exec (.streamComplete t ch) s = .next s' ∧ onlyTiles s s' ∧ sameTilesBut s s' [t]
        ∧ (s'.chan t ch.toNat).run = none ∧ (s'.chan t ch.toNat).cur = (s.chan t ch.toNat).cur
        ∧ (s'.tile t).sigs = (s.tile t).sigs
            ++ (if r.semEn ∧ r.halted = false then [⟨r.sem, 1, some (e + 1)⟩] else []))
    ∧ (r.ended = none → exec (.streamComplete t ch) s = .next s) := by
  have hexec : exec (.streamComplete t ch) s = .next (streamComplete s t ch.toNat) :=
    onTile_lt ht (streamComplete · t ch.toNat)
  rw [hexec, streamComplete, hrun]
  dsimp only
  refine ⟨fun e hended hdue => ?_, fun hended => by rw [hended]⟩
  obtain ⟨honly, hkept, hchan⟩ := retireRun_kept s t ch.toNat r e
  rw [hended]
  dsimp only
  rw [if_pos hdue]
  refine ⟨_, rfl, honly, hkept.others, by rw [hchan], by rw [hchan], ?_⟩
  obtain ⟨fences, hleft⟩ := leaveChannel_tile (s.modTile t fun x => { x with
    sigs := if r.semEn && !r.halted then x.sigs ++ [⟨r.sem, 1, some (e + 1)⟩] else x.sigs }) t ch.toNat r
  rw [retireRun_eq, hleft, State.tile_modTile_same]
  cases r.semEn <;> cases r.halted <;> simp

/-- The clause of O26 on rows. -/
theorem rowStreamArrival_arrives {s : State} {t : Nat} (ht : t < s.tileCount) (hruns : s.tileRuns t = true) :
    let due := fun (w : RowWord) => w.dest == t && s.dueNow t w.due
    ∃ s', exec (.rowStreamArrival t) s = .next s' ∧ (s'.tile t).rowIn = (s.tile t).rowIn ++ s.rowWords.filter due
      ∧ s'.rowWords = s.rowWords.filter (fun w => !due w) ∧ sameTilesBut s s' [t] ∧ sameMemory s s'
      ∧ { s'.tile t with rowIn := (s.tile t).rowIn } = s.tile t ∧ (∀ o, s'.reg o = s.reg o) := by
  intro due
  refine ⟨_, onRun_of_runs ht hruns (rowArrival · t), ?_⟩
  have hmems : (rowArrival s t).mems = s.mems := by
    unfold rowArrival
    dsimp only
    split <;> rfl
  by_cases hnone : (s.rowWords.filter due).isEmpty = true
  · have harrival : rowArrival s t = { s with rowWords := s.rowWords.filter fun w => !due w } := if_pos hnone
    have hempty : s.rowWords.filter due = [] := List.isEmpty_iff.1 hnone
    rw [harrival] at hmems ⊢
    exact ⟨by rw [hempty, List.append_nil]; rfl, rfl, fun _ _ => rfl, sameMemory_of_mems hmems, rfl, fun _ => rfl⟩
  · have harrival : rowArrival s t = ({ s with rowWords := s.rowWords.filter fun w => !due w }).modTile t fun x =>
        { x with rowIn := x.rowIn ++ s.rowWords.filter due } := if_neg hnone
    rw [harrival] at hmems ⊢
    refine ⟨?_, rfl, ?_, sameMemory_of_mems hmems, ?_, fun _ => rfl⟩
    · rw [State.tile_modTile_same]
      rfl
    · exact sameTilesBut_modTile { s with rowWords := s.rowWords.filter fun w => !due w } t fun x =>
        { x with rowIn := x.rowIn ++ s.rowWords.filter due }
    · rw [State.tile_modTile_same]
      rfl

/-- Settles O26: a completion is its retirement, a reply writes one piece of a slice or of the far side before the run
advances, and the rows that are due join their tile's. -/
theorem streamRunsProceed : Obligations.StreamRunsProceed :=
  ⟨fun _ _ _ _ ht hrun => streamComplete_completes ht hrun,
    fun _ _ _ _ _ _ ht hrun hended hhalted hwaiting hremote hanswer hlen hbroken hidle =>
      streamReply_replies ht hrun hended hhalted hwaiting hremote hanswer hlen hbroken hidle,
    fun _ _ ht hruns => rowStreamArrival_arrives ht hruns⟩

end Sys2Proof.Machine
